-- ==== Sys2Proof/Word.lean ====
section
/-! DEFINITION. The word types of the model: 64 B lines, 32-bit register words, stored line images. -/

namespace Sys2Proof

/-- One byte of pool memory. -/
abbrev Byte := BitVec 8
/-- A setup register word (19 R681). -/
abbrev Word := BitVec 32
/-- The 64 B of one line (03, R64). -/
abbrev Line := BitVec 512
/-- The 640 bits a line takes on its subchannel (15 R570). -/
abbrev Image := BitVec 640

/-- Bits `hi` down to `lo` of a number (00 R3). -/
def bitsOf (v hi lo : Nat) : Nat := v / 2 ^ lo % 2 ^ (hi + 1 - lo)

/-- `v` with bits `hi` down to `lo` replaced by `x`. -/
def putBits (v hi lo x : Nat) : Nat :=
  v - bitsOf v hi lo * 2 ^ lo + x % 2 ^ (hi + 1 - lo) * 2 ^ lo

/-- A saturating count of `w` bits after `n` more events. -/
def satAdd (w c n : Nat) : Nat := min (c + n) (2 ^ w - 1)

end Sys2Proof
end

