-- ==== Sys2Proof/Syntax.lean ====
section
/-! DEFINITION. The commands of the block: one constructor of `Instr` for each row of spec/opcode_table.json,
with the operands its rule says the event brings. -/

namespace Sys2Proof

/-- MetaValue of a CXL.mem request (05 Table 5-5). -/
inductive Meta where
  | i | s | a
  deriving DecidableEq, Repr

/-- Answer of a host to a BISnp (05 R191). -/
inductive SnpResp where
  | i | s | e
  deriving DecidableEq, Repr

/-- State that a proxy reports or holds (06 Table 6-1). -/
inductive PeerSt where
  | m | o | e | s | i
  deriving DecidableEq, Repr

/-- Traffic classes (01 Table 1-5), in the coding of 13 Table 13-6. -/
inductive Cls where
  | req | rsp | snp | rty
  deriving DecidableEq, Repr

/-- A request of a host's logical device at its port: agent, logical device address, transaction tag, whether
it came through a secure IDE stream (12 R480), and whether its back-invalidate MetaValue field is as given. -/
structure HostReq where
  agent : Nat
  lda : Nat
  tag : Nat
  secure : Bool
  deriving DecidableEq, Repr

/-- A line of data with its poison flag (15 Table 15-4). -/
structure Payload where
  data : Line
  poison : Bool
  deriving DecidableEq, Repr

/-- The part of a Daoth message header that the receiving agent uses (13 Table 13-6): the peer device, the two
agents, the transaction tag, and whether a request came in RTY instead of REQ (01 R18, R28). -/
structure Hdr where
  dev : Nat
  src : Nat
  dst : Nat
  tag : Nat
  rty : Bool
  deriving DecidableEq, Repr

/-- Extension chunk of a forwarded request (13 R504, 03 R82), with the requesting pair of device and agent. -/
structure Ext where
  parcel : Nat
  gen : Nat
  off : Nat
  frame : Nat
  dev : Nat
  agent : Nat
  hops : Nat
  deriving DecidableEq, Repr

/-- A read-modify-write at the home: AtomicOps of a host, and the Mash operations of 08 R329 and R333. -/
inductive Rmw where
  | fetchAdd (size : Nat) (x : Nat)
  | swap (size : Nat) (x : Nat)
  | cas (size : Nat) (cmp new : Nat)
  | addFmt (fmt : Nat) (x : Nat)
  deriving DecidableEq, Repr

/-- A module as its SPD describes it (14 Table 14-1, Table 14-2). -/
structure Module where
  mrdimm : Bool
  rate : Nat
  gib : Nat
  ranks : Nat
  stack : Bool
  serial : Nat
  deriving DecidableEq, Repr

/-- What a full training's sweeps found for a strobe group, pass or fail at each step from the lowest (14 R554, R555, Table 14-6): the
read delay and the read Vref of step 6, the write delay of step 7, the VrefDQ and the write delay again of step 8. -/
structure Sweeps where
  rd : List Bool
  rdVref : List Bool
  wr : List Bool
  vref : List Bool
  wrAgain : List Bool
  deriving DecidableEq, Repr

/-- What a re-centring slot found for a strobe group (14 R552): pass or fail of the read delay at the 9 steps from 4 below its centre
to 4 above, and the drift in steps that the DQS interval oscillator reports. -/
structure Drift where
  rd : List Bool
  drift : Int
  deriving DecidableEq, Repr

/-- What the exit from self-refresh finds (14 R558, R560): the channels whose training record or mask copy cannot be read, and
the re-centring of the others, as (channel, group, drift). -/
structure RefreshExit where
  bad : List Nat
  drifts : List (Nat × Nat × Drift)
  deriving DecidableEq, Repr

/-- What a mirror write carries (04 R114, R133): the line, and whether the home's own channel serves (log 166). -/
structure MirrorLine where
  data : Payload
  up : Bool
  deriving DecidableEq, Repr

/-- What a mirror acknowledges (04 R114, R133): the home's line, and whether the mirror could write its copy (log 166). -/
structure MirrorDone where
  line : Nat
  ok : Bool
  deriving DecidableEq, Repr

/-- A claim of an operation slot (04 R140): the parcel, and the plots that are marked at the source (log 163). -/
structure SlotClaim where
  parcel : Nat
  plots : List Nat
  deriving DecidableEq, Repr

/-- What a DATUM message of the session exchange carries (17 R644): the hash of the sender's certificate, its ephemeral public key and
its signature. -/
structure DatumBody where
  certHash : Nat
  key : Nat
  sig : Nat
  deriving DecidableEq, Repr

/-- One end's view of a message at the start of its chunks (13 Table 13-6). -/
structure MsgHead where
  e2e : Nat
  opcode : Nat
  cls : Cls
  srcDev : Nat
  srcAgent : Nat
  dstDev : Nat
  dstAgent : Nat
  hasData : Bool
  deriving DecidableEq, Repr

/-- Link header fields of a received flit (13 Table 13-4). -/
structure FlitHdr where
  crcOk : Bool
  seq : Nat
  ack : Nat
  pair : Bool
  freedA : Nat
  freedB : Nat
  deriving DecidableEq, Repr

/-- Readings taken at a latch (16 R604), in units of 0.25 C; the coolant reading may be negative (20 R713). -/
structure Sensors where
  junction : List Nat
  coolant : Int
  deriving DecidableEq, Repr

/-- IDENT fields of the peer (13 R501). -/
structure IdentInfo where
  board : Nat
  port : Nat
  members : Nat
  runId : Nat
  deriving DecidableEq, Repr

/-- An image offered to a flash bank (17 Table 17-3) with the outcome of its cryptographic checks. -/
structure FwImage where
  magic : Nat
  bodyLen : Nat
  svn : Nat
  seq : Nat
  slot : Nat
  keyHashOk : Bool
  sigOk : Bool
  bodyHashOk : Bool
  deriving DecidableEq, Repr

/-- A debug token (17 Table 17-9) with the outcome of its signature check. -/
structure DebugToken where
  format : Nat
  scopes : Nat
  seconds : Nat
  deviceOk : Bool
  nonce : Nat
  agent : Nat
  board : Nat
  sigOk : Bool
  deriving DecidableEq, Repr

/-- Who sends a management command (17 Table 17-1). -/
inductive Mgr where
  | bmc
  | fm (port : Nat)
  | host (agent : Nat)
  | peer (dev : Nat)
  deriving DecidableEq, Repr

/-- A sync operation as it travels to the engine of its object (10 R405). -/
inductive SyncKind where
  | arrive (sense wait : Bool) (timeout : Nat)
  | wait (timeout : Nat)
  | signal (k : Nat)
  | broadcast
  deriving DecidableEq, Repr

/-- A request of a Dynamic Capacity add or release by the FM (12 R471, R473). -/
structure DcReq where
  agent : Nat
  region : Nat
  parcel : Nat
  lda : Nat
  writer : Bool
  deriving DecidableEq, Repr

/-- An on-die array (15 Table 15-2) with what the failing word belongs to: a line staged for a tile (its place in the tile's
access list), a descriptor and the tile from which its state is lost, a table slot of a Tun, a near-cache line, a tag set of a
tract, a directory-cache way, the k-th entry of a translation cache, a parcel's map copies, a logical device's extent table and
decoders, a waiter (line, ring, descriptor), a ring, a link, a line in a controller's queue, a channel's training record or mask
copy, Datum's memory, a block. -/
inductive SramWord where
  | staging (ring n idx pos : Nat)
  | tunState (ring n idx : Nat)
  | tunTable (tun slot : Nat)
  | ncData (line : Nat)
  | ncTags (tract : Nat)
  | dirCache (die set way : Nat)
  | xlatCache (cache k : Nat)
  | mapCopy (parcel : Nat)
  | extentTable (agent : Nat)
  | waiter (line ring n : Nat)
  | ringState (ring : Nat)
  | linkBuffer (link : Nat)
  | readQueue (line : Nat)
  | writeQueue (line : Nat)
  | retained (chan : Nat) (masks : Bool)
  | datumMem
  | config (kind inst : Nat)
  deriving DecidableEq, Repr

/-- A word that an on-die array returned in error in the frame that ends (15 R577): its row, and whether it is uncorrectable. -/
structure SramErr where
  word : SramWord
  row : Nat
  ue : Bool
  deriving DecidableEq, Repr

/-- The commands: one constructor per row of the opcode table, in the table's order. -/
inductive Instr where
  -- Meridian and Kiln ticks (02, 16)
  | frameBoundary (errs : List SramErr)
  | snapshotAbandon
  | revokeDrainForced (parcel : Nat)
  | holderRemovalDrainForced (parcel agent : Nat)
  | planLatch (r : Sensors)
  | kilnSample (stages : List (Nat × Nat))
  | meridianSyncEdge (t highNs : Nat)
  | timingFlitReceive (frame code src boundary : Nat)
  | meridianSourceLost
  | meridianCommit (v : Word)
  -- Tuns and tiles (07)
  | tileIssue (ring n t dur bytes energy : Nat)
  | tileDispatch (ring n idx epoch : Nat)
  | staleRole (ring n idx tun : Nat)
  | staleResponseDiscard (tun epoch : Nat)
  | tileTranslate (ring n idx : Nat)
  | tileComplete (ring n idx t : Nat)
  | arithRetry (ring n idx third : Nat) (rerunOk thirdOk : Bool)
  | strikeLapse (tun core : Nat)
  | roleTileAbandon (ring n idx tun : Nat)
  | tunRoleCommit (tun : Nat) (v : Word)
  -- host requests and coherence (05)
  | hostMemrdI (q : HostReq)
  | hostMemrdS (q : HostReq)
  | hostMemrdA (q : HostReq)
  | hostMemwr (q : HostReq) (mv : Meta) (d : Payload)
  | hostMemwrptl (q : HostReq) (mv : Meta) (d : Payload) (mask : BitVec 64)
  | hostMemclnevct (q : HostReq)
  | hostMemspecrd (q : HostReq)
  | hostAtomicFetchadd (q : HostReq) (size x : Nat)
  | hostAtomicSwap (q : HostReq) (size x : Nat)
  | hostAtomicCas (q : HostReq) (size cmp new : Nat)
  | retry (line dev agent tag : Nat)
  | birsp (agent line : Nat) (resp : SnpResp)
  | biconflict (agent line : Nat)
  | snoopTimeout (agent line : Nat)
  | graceDeadline (agent : Nat)
  | hostLostSweep (dev agent count : Nat)
  | nearCacheEvict (line : Nat)
  | stripeWriteBack (line : Nat)
  -- DRAM channels (14) and service (04)
  | dramReadReturn (line : Nat) (err : Image)
  | dramAccessArrive (chan : Nat) (isWrite : Bool) (line t : Nat) (d : Line)
  | refreshSlot (chan sub rank : Nat)
  | rfmSlot (chan sub rank bank : Nat)
  | zqCalibration (chan sub rank : Nat)
  | ecsOperation (chan sub rank : Nat)
  | mr4Read (chan sub rank : Nat) (double : Bool)
  | spdThermalRead (chan reading : Nat)
  | recentreSlot (chan : Nat) (alert : Bool) (groups : List (Nat × Drift))
  | dramAlert (chan sub t : Nat)
  | dramAlertCleared (chan sub t : Nat)
  | channelQuiesce (chan : Nat)
  | channelPowerOff (chan : Nat)
  | channelPowerOnTrain (chan : Nat)
  | channelRetrain (chan : Nat)
  | channelRebuild (chan : Nat)
  | channelOut (chan : Nat)
  | trainingPassed (chan : Nat) (m : Module) (groups : List (Nat × Sweeps))
  | trainFailed (chan code group sub rank : Nat)
  | rebuildStep (chan : Nat)
  | pprSppr (chan : Nat) (v : Word) (resource confirmed : Bool) (bad : List Nat)
  | pprHppr (chan : Nat) (v : Word) (resource confirmed : Bool)
  | channelSchedWrite (chan : Nat) (v : Word)
  | bankMaskWrite (chan k : Nat) (v : Word)
  | patrolRead (errs : List (Nat × Image))
  -- TWIN and operation slots (04)
  | mirrorWr (h : Hdr) (parcel gen off : Nat) (m : MirrorLine)
  | mirrorAck (h : Hdr) (a : MirrorDone)
  | establish (v : Word)
  | resilver (v : Word)
  | establishChunk (slot : Nat)
  | resilverPlot (slot : Nat)
  | copyWr (h : Hdr) (line : Nat) (d : Payload)
  | mark (h : Hdr) (parcel value : Nat)
  | slotClaim (h : Hdr) (c : SlotClaim)
  -- peer coherence (06)
  | prdcur (h : Hdr) (x : Ext) (line : Nat)
  | prds (h : Hdr) (x : Ext) (line : Nat)
  | prdx (h : Hdr) (x : Ext) (line : Nat)
  | pupg (h : Hdr) (x : Ext) (line : Nat)
  | pwr (h : Hdr) (x : Ext) (line : Nat) (d : Payload) (mask : BitVec 64)
  | pwb (h : Hdr) (x : Ext) (line : Nat) (d : Payload)
  | pevict (h : Hdr) (x : Ext) (line : Nat)
  | pgnt (h : Hdr) (line : Nat) (st : PeerSt) (d : Option Payload)
  | psnpinv (h : Hdr) (line : Nat)
  | psnpshr (h : Hdr) (line : Nat)
  | psnpcur (h : Hdr) (line : Nat)
  | psnptake (h : Hdr) (line : Nat)
  | psnphost (h : Hdr) (parcel line lines kind regions : Nat) (hosts : List Nat)
  | prsp (h : Hdr) (line : Nat) (st : PeerSt) (dirty : Bool) (d : Option Payload)
  | proxyDrop (dev line : Nat)
  | peerLostSweep (dev count : Nat)
  | hostHoldDeadline (dev : Nat)
  | pageResolution (parcel page : Nat)
  | fwdRdI (h : Hdr) (x : Ext)
  | fwdRdS (h : Hdr) (x : Ext)
  | fwdRdA (h : Hdr) (x : Ext)
  | fwdWr (h : Hdr) (x : Ext) (mv : Meta) (d : Payload)
  | fwdWrPtl (h : Hdr) (x : Ext) (mv : Meta) (d : Payload) (mask : BitVec 64)
  | fwdClnevct (h : Hdr) (x : Ext)
  | fwdAtomic (h : Hdr) (x : Ext) (op : Rmw)
  | mashRd (h : Hdr) (x : Ext)
  | mashWr (h : Hdr) (x : Ext) (d : Payload) (mask : BitVec 64)
  | mashRmw (h : Hdr) (x : Ext) (op : Rmw)
  | data (h : Hdr) (d : Payload)
  | cmp (h : Hdr)
  | err (h : Hdr)
  | hostSnpRsp (h : Hdr) (agent line : Nat) (resp : SnpResp)
  | syncOp (h : Hdr) (x : Ext) (line ctx ring dtag : Nat) (k : SyncKind)
  | syncRelease (h : Hdr) (ring n status result : Nat)
  | hostLostMsg (h : Hdr) (agent : Nat)
  | sweepDone (h : Hdr) (agent : Nat)
  | linkFail (dev link : Nat)
  | lost (h : Hdr) (dev : Nat)
  | depart (h : Hdr)
  | datum (h : Hdr) (step : Nat) (ok : Bool) (body : DatumBody)
  | windowReport (win bank die : Nat)
  -- Vorir and Daoth links (01, 13)
  | vorirCrcError (link lane : Nat)
  | daothEnable (n : Nat) (v : Word)
  | daothDisable (n : Nat) (v : Word)
  | daothTestSet (n : Nat)
  | daothTestClear (n : Nat)
  | linkTrained (n width rate : Nat)
  | payloadFlit (n : Nat) (f : FlitHdr) (msgs : List MsgHead)
  | payloadMessage (n : Nat) (tagOk : Bool)
  | idle (n : Nat) (f : FlitHdr)
  | replayReq (n : Nat) (f : FlitHdr)
  | timing (n : Nat) (f : FlitHdr) (frame code src offset arrival : Nat)
  | ident (n : Nat) (f : FlitHdr) (x : IdentInfo)
  | probe (n : Nat) (f : FlitHdr) (turnaround : Nat)
  | echo (n : Nat) (f : FlitHdr) (roundTrip turnaround : Nat)
  | creditInit (n : Nat) (f : FlitHdr)
  | testPattern (n : Nat) (f : FlitHdr)
  | messageSend (n : Nat) (m : MsgHead)
  | groupPad (n : Nat)
  | ackAdvance (n : Nat) (elapsedNs : Nat)
  | creditReturnIdle (n elapsedNs : Nat)
  | xoffChange (n : Nat) (c : Cls)
  | keepalive (n : Nat)
  | replayTimeout (n : Nat)
  | replayReqRepeat (n : Nat)
  | noFlitTimeout (n : Nat)
  | phyLockLoss (n : Nat)
  | linkFailback (n : Nat)
  | peerLostTimeout (dev : Nat)
  | isolationReset
  -- rings and descriptors (08)
  | ringEnable (r : Nat) (v : Word)
  | ringDisable (r : Nat) (v : Word)
  | tail (agent r : Nat) (v : Word)
  | cqHead (agent r : Nat) (v : Word)
  | stop (agent r : Nat)
  | start (agent r : Nat)
  | resume (agent r ctx : Nat)
  | descriptorFetch (r : Nat)
  | descriptorStart (r n tun : Nat)
  | completionRecordWrite (r n : Nat)
  | deferredLimit (r n : Nat)
  | copy (ring n idx : Nat)
  | fill (ring n idx : Nat)
  | convert (ring n idx : Nat)
  | reduce (ring n idx : Nat)
  | axpby (ring n idx : Nat)
  | dot (ring n idx : Nat)
  | gatherSum (ring n idx : Nat)
  | scatterAdd (ring n idx : Nat)
  | optStep (ring n idx : Nat)
  | quantize (ring n idx : Nat)
  | dequant (ring n idx : Nat)
  | checksum (ring n idx : Nat)
  | cowPage (ring n idx : Nat)
  | barrierArrive (ring n : Nat)
  | gateWait (ring n : Nat)
  | gateSignal (ring n : Nat)
  | fence (ring n : Nat)
  | recipe (ring n idx : Nat)
  | windowEnable (w : Nat) (v : Word)
  | windowDisable (w : Nat) (v : Word)
  -- translation (09)
  | contextLoad (v : Word)
  | contextDisable (v : Word)
  | stage1Walk (tun ctx cva : Nat) (write : Bool)
  | prefetchWalk (tun ctx cva : Nat)
  | faultWaitExpiry (r n : Nat)
  | invalContext (agent : Nat) (v : Word)
  | invalPages (agent : Nat) (v : Word)
  | invalLdContexts (agent : Nat) (v : Word)
  | invalTileAbandon (agent : Nat)
  | invalDone (agent : Nat)
  -- sync objects (10)
  | arrive (q : HostReq) (cmd : BitVec 64)
  | signal (q : HostReq) (cmd : BitVec 64)
  | broadcast (q : HostReq) (cmd : BitVec 64)
  | disarm (q : HostReq) (cmd : BitVec 64)
  | syncDebugWrite (line : Nat) (d : Line) (mask : BitVec 64)
  | syncTimeout (die start value ctx : Nat)
  | syncCtxSave (v : Word)
  | syncCtxRestore (v : Word)
  | syncView (d : Nat) (v : Word)
  -- bandwidth (11)
  | qosCommit (v : Word)
  | qosHostCommit (a : Nat) (v : Word)
  | calendarSlot (die slot room : Nat) (queued : List (Nat × Nat))
  | latHwmRead (a c : Nat)
  | latClear (a c : Nat) (v : Word)
  | counterLowerRead (addr : Nat)
  -- host ports (12)
  | portEnable (p : Nat) (v : Word)
  | portDisable (p : Nat) (v : Word)
  | ldEnable (p l : Nat)
  | ldDisable (p l : Nat)
  | ldDisableAnswer (agent : Nat)
  | headTrained (p head width rate : Nat) (flit : Nat)
  | headDown (p head : Nat)
  | ideIntegrityFail (p head : Nat)
  | cxlHotReset (p head : Nat)
  | functionLevelReset (agent : Nat)
  | cxlReset (agent : Nat)
  | hdmDecoderCommit (agent idx hpa size lda ways : Nat)
  | msixUnmask (agent vector : Nat)
  | globalPersistentFlush (agent : Nat)
  | addDcResponse (agent lda : Nat) (accept : Bool)
  | releaseDcResponse (agent lda : Nat)
  | addCapacityTimeout (agent lda : Nat)
  | forcedRevoke (parcel agent : Nat)
  | contextGet (agent : Nat) (entry : BitVec 512)
  | contextSet (agent ctx : Nat) (entry : BitVec 512)
  | contextPut (agent ctx : Nat)
  | syncSave (agent ctx : Nat)
  | syncRestore (agent ctx : Nat)
  | ringSet (agent : Nat) (ctl : Word) (dqParcel dqOff cqParcel cqOff : Nat)
  | ringPut (agent r : Nat)
  | getPoisonList (agent start count : Nat)
  | injectPoison (agent lda : Nat)
  | clearPoison (agent lda : Nat) (d : Line)
  | getLdInfo (m : Mgr)
  | getLdAllocations (m : Mgr) (port : Nat)
  | setLdAllocations (m : Mgr) (port lds : Nat)
  | getMultiHeadedInfo (m : Mgr)
  | getHeadInfo (m : Mgr) (port head : Nat)
  | getDcdInfo (m : Mgr)
  | getHostDcRegionConfig (m : Mgr) (agent : Nat)
  | getDcRegionExtentLists (m : Mgr) (agent : Nat)
  | setDcRegionConfig (m : Mgr) (agent region block : Nat)
  | initiateDcAdd (m : Mgr) (d : DcReq)
  | initiateDcRelease (m : Mgr) (d : DcReq)
  -- security (17)
  | keyProg (agent session stream key : Nat)
  | kSetGo (agent session stream : Nat)
  | kSetStop (agent session stream : Nat)
  | getMeasurements (m : Mgr) (index : Nat)
  | getCertificate (m : Mgr) (slot : Nat)
  | challenge (m : Mgr) (nonce : Nat)
  | keyExchange (m : Mgr) (mutualAuth : Bool) (anchor : Nat)
  | setCertificate (m : Mgr)
  | getCsr (m : Mgr)
  | getFwInfo (m : Mgr)
  | transferFw (m : Mgr) (img : FwImage)
  | activateFw (m : Mgr) (h : Nat)
  | fwHandover
  | fwBankSwitch
  | fwCommit (m : Mgr)
  | svnAdvance (m : Mgr)
  | slotRetire (m : Mgr) (item slot : Nat)
  | enrolArm (m : Mgr) (host : Bool) (pos hash : Nat)
  | debugAuthority (m : Mgr) (key : Nat)
  | debugChallenge (m : Mgr)
  | debugOpen (m : Mgr) (t : DebugToken)
  | debugClose (m : Mgr) (session : Nat)
  | debugSessionExpiry (session : Nat)
  | backupWrite (m : Mgr) (n : Nat) (v : Word)
  | recoveryExit (m : Mgr)
  -- JTAG (17 R660)
  | idcode
  | bypass (opcode : Nat)
  | samplePreload
  | extest
  | clamp
  | highz
  | extestPulse
  | extestTrain
  -- Sparge, pages and set-up checks (03, 17, 15)
  | spargeZero (v : Word)
  | spargeRateWrite (v : Word)
  | spargeZeroStep (lines : Nat)
  | zeroingDone
  | pageMove (v : Word)
  | pageMoveCopy
  | pageMoveDone
  | pageMoveAbort
  | cadastreCommit (v : Word)
  | memmapEnable (v : Word)
  | gazEnable (d : Nat) (v : Word)
  | kilnCommit (v : Word)
  | faultFwEnable (v : Word)
  | faultFwDisable (v : Word)
  | faultHostEnable (agent : Nat) (v : Word)
  | faultHostDisable (agent : Nat) (v : Word)
  | faultFwHead (v : Word)
  | faultHostHead (agent : Nat) (v : Word)
  | faultRecordWrite
  | nearCacheSetSweep (tract set : Nat) (both : Bool)
  -- resets (18)
  | blockResetTun (n : Nat) (hold : Bool)
  | blockResetPort (p : Nat) (hold : Bool)
  | blockResetTract (t : Nat) (hold : Bool)
  | blockResetChannel (c : Nat) (hold : Bool)
  | blockResetDaoth (n : Nat) (hold : Bool)
  | blockRelease (kind inst : Nat)
  | isolationWrapperAnswer (kind inst : Nat)
  | rstNReset (t : Nat)
  | rstNGlitch (lowNs : Nat)
  | resetWarm (v : Word)
  | warmResetEntry
  | warmResetDrainEnd
  | nearCacheFlushDone (t : Nat)
  | flushTimeout
  | bringupStart (t : Nat) (romOk : Bool)
  | selfRefreshExit (found : RefreshExit)
  | initPass (plots : Nat)
  | resetDone (t : Nat)
  | startTimeout (t : Nat)
  | datumSwreset (v : Word)
  | datumWatchdog (t : Nat)
  | wdtKick (v : Word)
  | powerOn (t board : Nat)
  | standbyLost (lowNs : Nat)
  | vinLow (mv ns : Nat)
  | junctionTrip (sensor reading : Nat)
  | refclkLoss (ns : Nat)
  | rstNRelease (t : Nat)
  | vinCollapse (mv : Nat)
  | registerWrite (agent addr : Nat) (v : Word)
  | dramCommandIssue (chan sub t : Nat) (ready : List Nat)
  | hostMemrddata (q : HostReq)
  | heartbeat (m : Mgr) (session : Nat)
  | keyUpdate (m : Mgr) (session : Nat)
  deriving DecidableEq, Repr

end Sys2Proof
end

