-- ==== Sys2Proof/Config.lean ====
section
/-! DEFINITION. The free values: what the spec leaves open, and the functions of cryptography that it names
without giving them as numbers (log 9). They are opaque: nothing in Lean evaluates them or proves a value of them. -/

namespace Sys2Proof.Config

/-- FREE VALUE: the n-th value that the spec does not state (boot nonces, CHALLENGE nonces, ...). -/
opaque freeNat : Nat → Nat

/-- FREE VALUE: what a read decrypts to when the line was written under another key than the one it is read with
(17 R640): the stored key (parcel, generation, slot), the reading key, the line and the plaintext stored. -/
opaque otherKeyRead : Nat × Nat × Nat → Nat × Nat × Nat → Nat → Line → Line

/-- FREE VALUE: what a module's SPD and mode registers set and the spec gives no number for (14 R548, R562), by the
module's serial number: 0 the alert latency in ns, 1 RAAIMT, 2 RAAMMT, 3 what a REF takes off an activation count, 4 what
an RFM takes off it. -/
opaque moduleValue : Nat → Nat → Nat

/-- FREE VALUE: the line that a miscorrected read of an encrypted line decrypts to (15 R573). -/
opaque miscorrected : Nat → Line → Line → Line

/-- FREE VALUE: results that the spec does not state, by kind and operands. -/
opaque unstated : Nat → Nat → Nat

/-- FREE VALUE: how many events of a class (16 Table 16-1) the planned path of a line of a kind takes (R610): 0 host, 1 Mash,
2 background. -/
opaque pathEvents : Nat → Nat → Nat

/-- FREE VALUE: a digest or signature over the named data (17): the model carries it, no proof sees it. -/
opaque digest : List Nat → Nat

/-- FREE VALUE: the public key of an ephemeral key, the hash of this device's own identity public key, its signature over a
transcript, and the secret that a key and a peer's public key share by ECDH (17 R644, R645). -/
opaque publicKey : Nat → Nat
opaque identity : Nat
opaque signature : List Nat → Nat
opaque ecdh : Nat → Nat → Nat

/-- FREE VALUE: HMAC-SHA-512 of a message of named parts under a key (17 R645, R647). -/
opaque hmac : Nat → List Nat → BitVec 512

end Sys2Proof.Config
end

