-- ==== Sys2Proof/Machine/State.lean ====
section
/-! DEFINITION. The state of the block: plain data, holding every piece of state the spec names, and the machine
right after reset. `Env` is what the clock, security and reset commands own; `Work` is what traffic changes. -/

namespace Sys2Proof.Machine

/-- Why a command could stop the block. No command of this spec does (log 1): every command answers a next state.
Safe: nothing raises it. -/
inductive Fault where
  /-- Raised by no command. -/
  | unreachable
  deriving DecidableEq, Repr

/-- Why a command is turned away. -/
inductive Refusal where
  /-- Raised by an arm of `exec` that has no meaning yet. Safe: nothing is claimed of it. -/
  | notModelled (mnemonic : String)
  deriving DecidableEq, Repr

/-- A sparse map by number: keys strictly rising. -/
abbrev AMap (α : Type) := List (Nat × α)

/-- A triplicated critical word (15 R583): its three copies. -/
structure Tri (α : Type) where
  a : α
  b : α
  c : α
  deriving DecidableEq, Repr

/-! ### Clock and Meridian (02) -/

/-- Frame counter and boundary schedule (02 R36, R47-R57). Instants are ps since power-on (log 2): `start` of the frame in
progress, `next` boundary, the period of the frame that ended at `start`. `taken` is the end of the last window in which an edge
was accepted, `phi` what remains of the target phase, `slewing` whether the frame in progress has been adjusted. A follower
counts boundaries without a flit of the source; `srcOverride` is the source chosen under R56 or learnt under R57, `srcNext` the
one from the next boundary on, `returned` whether the device has yet to learn its source, `follow` the frame number, period code
and source that a flit gives for the next boundary, `aligned` whether the latest flit found the boundary within 20 ns (R54). -/
structure Clk where
  frame : Nat := 0
  start : Nat := 0
  next : Nat := 8000000
  lastPeriod : Nat := 8000000
  taken : Option Nat := none
  phi : Int := 0
  slewing : Bool := false
  noFlit : Nat := 0
  srcOverride : Option Nat := none
  srcNext : Option Nat := none
  returned : Bool := false
  follow : Option (Nat × Nat × Nat) := none
  aligned : Bool := false
  now : Nat := 0
  deriving DecidableEq, Repr

/-- An accepted Meridian commit that waits for its frame (02 R58, 19 R690). -/
structure MerPending where
  frame : Nat
  period : Nat
  mode : Nat
  src : Nat
  interval : Nat
  slots : Nat
  base : Nat
  deriving DecidableEq, Repr

/-- A snapshot being written (02 R43-R45): its slot address, its frame, its header word and sequence. -/
structure SnapWrite where
  addr : Nat
  frame : Nat
  code : Nat
  seq : Nat
  deriving DecidableEq, Repr

/-- Live Meridian configuration and pending commit (02 R37: both triplicated; the live word in the layout of MERIDIAN.CTL), and
the snapshot set-up in force (19 R690). -/
structure Mer where
  live : Tri Word := ⟨0x10, 0x10, 0x10⟩
  pending : Tri (Option MerPending) := ⟨none, none, none⟩
  interval : Nat := 0
  slots : Nat := 0
  base : Nat := 0
  slot : Nat := 0
  seq : Nat := 0
  writing : Option SnapWrite := none
  deriving DecidableEq, Repr

/-! ### Faults and messages -/

/-- A fault record before it is placed (15 Table 15-6). `coal` says that its raising rule coalesces it (R591),
`run` that it gives a run of lines at consecutive DPAs in its frame (05 R212, 06 R242), `req` that a request caused it (R594), `host` the host it names, `owed` that it entered the holding table with its host
copy still to write (R592). -/
structure FaultRec where
  ty : Nat
  sev : Nat := 0
  parcel : Nat := 0
  ctx : Option Nat := none
  dev : Nat := 0
  agent : Nat := 0
  addrCva : Bool := false
  addr : Nat := 0
  frame : Nat := 0
  count : Nat := 1
  unit : Nat := 0
  agent2 : Nat := 0
  detail2 : Nat := 0
  specific : Nat := 0
  coal : Bool := false
  run : Bool := false
  req : Bool := false
  host : Option Nat := none
  owed : Bool := false
  deriving DecidableEq, Repr

/-- Back-invalidate snoops (05). -/
inductive Snp where
  | cur | data | inv
  deriving DecidableEq, Repr

/-- Completions of a host request (05 Table 5-5). -/
inductive HostCmp where
  | cmp | cmpS | cmpE
  deriving DecidableEq, Repr

/-- A Daoth message (13 Table 13-6, Table 13-7): opcode, destination device, agents, tag, line, the extension of a
forwarded request (parcel, generation, offset, acceptance frame), data line, byte mask, and operands of its own. -/
structure PeerMsg where
  op : Nat
  dev : Nat
  src : Nat := 0x7F
  dst : Nat := 0x7F
  tag : Nat := 0
  line : Nat := 0
  rty : Bool := false
  ext : Option (Nat × Nat × Nat × Nat) := none
  data : Option Payload := none
  mask : Option (BitVec 64) := none
  args : List Nat := []
  deriving DecidableEq, Repr

/-- A message that leaves the device (log 4). -/
inductive Out where
  /-- Data response on CXL.mem, with its completion and its DevLoad (11 R452). -/
  | hostData (agent tag : Nat) (c : HostCmp) (d : Payload) (load : Nat)
  /-- Completion without data, with its DevLoad; `err` is an error completion. -/
  | hostCmp (agent tag : Nat) (err : Bool) (load : Nat)
  /-- AtomicOp completion: the original value, poisoned or not. -/
  | hostAtomic (agent tag value : Nat) (poison : Bool)
  /-- Unsupported Request (12 R469, 05 R196). -/
  | hostUr (agent tag : Nat)
  /-- Completer Abort (05 R199). -/
  | hostCa (agent tag : Nat)
  /-- BISnpCur, BISnpData or BISnpInv to a host of this device. -/
  | hostSnp (agent line : Nat) (k : Snp)
  /-- BIConflictAck (05 R192). -/
  | biConflictAck (agent line : Nat)
  /-- RETRY to a requester inside the device (05 R189): the pair, its tag, and the line. -/
  | retry (dev agent tag line : Nat)
  /-- A Daoth message to a peer device. -/
  | peer (m : PeerMsg)
  /-- An MSI-X message of a logical device (12 R485). -/
  | msix (agent vector : Nat)
  /-- A CXL event record of a logical device: kind, and two values. -/
  | event (agent kind a b : Nat)
  /-- The reply to a management command: completion code (0 success) and data. -/
  | reply (m : Mgr) (code : Nat) (data : List Nat)
  /-- A flit of a Daoth port: type (13 Table 13-4) and three values. -/
  | flit (port kind a b c : Nat)
  /-- A command on the DDR5 bus of a subchannel: kind, logical rank, bank address. -/
  | dram (chan sub kind rank bank : Nat)
  /-- The value that a register read with a side effect returned (11 R454, 19 R684). -/
  | read (agent addr value : Nat)
  /-- The result of a mailbox command of a logical device: command, return code, output. -/
  | mbox (agent cmd code : Nat) (out : List Nat)
  /-- Whether a host's HDM decoder commit succeeded (12 R475). -/
  | decoder (agent idx : Nat) (ok : Bool)
  /-- Global Persistent Flush acknowledged (12 Table 12-5). -/
  | gpfAck (agent : Nat)
  /-- A JTAG instruction and whether it was decoded (17 R660). -/
  | jtag (op : Nat) (decoded : Bool)
  /-- A Mash work message or its reply on Vorir (07 R290-R292): kind, ring, descriptor, tile, Tun. -/
  | work (kind ring n idx tun : Nat)
  deriving DecidableEq, Repr

/-! ### Pool memory and the near cache (03, 15) -/

/-- The key under which an encrypted line was written (17 R637): parcel, generation, key slot. -/
structure KeyId where
  parcel : Nat
  gen : Nat
  slot : Nat
  deriving DecidableEq, Repr

/-- A near-cache line (01 R12, R13; 05 R202; 06 R219): data, poison flag, dirty flag, parcel, and for a line homed
on a peer its Table 6-1 state, with the generation and parcel offset it was granted under. -/
structure NcLine where
  data : Line
  poison : Bool
  dirty : Bool
  parcel : Nat
  st : Option PeerSt := none
  gen : Nat := 0
  off : Nat := 0
  deriving DecidableEq, Repr

/-- What of a promoted parcel was not yet copied when its source was lost: all above 64 KiB * `mark`, or for a resilver those of the
marked plots (04 R138, R143). -/
structure CutPart where
  parcel : Nat
  mark : Nat
  plots : Option (List Nat)
  deriving DecidableEq, Repr

/-- A way of a Sheet cache (01 R25): parcel, Sheet index, entry, and when it was last used. -/
structure SheetWay where
  parcel : Nat
  idx : Nat
  entry : Nat
  used : Nat
  deriving DecidableEq, Repr

/-- An extent (03 R86): base and length in bytes, parcel, and the generation current when it was added. -/
structure Extent where
  lda : Nat
  len : Nat
  parcel : Nat
  gen : Nat
  deriving DecidableEq, Repr

/-- An accepted Cadastre commit that waits for its frame (03 R73-R75), with the extents that are installed with it, by agent
(R87), and the forced revokes that it carries out, as (parcel, agent) (R91). -/
structure CadPending where
  frame : Nat
  records : List (BitVec 512)
  adds : List (Nat × Extent) := []
  forced : List (Nat × Nat) := []
  deriving DecidableEq, Repr

/-- The page-move unit (03 R97-R99): parcel, Sheet index, page, copy, target page and device, and the frame of go;
`copied` once the copy of step 5 is written, `recalled` the lines of lost sets that it has recalled. -/
structure PageMove where
  parcel : Nat
  plot : Nat
  page : Nat
  copy : Nat
  tdev : Nat
  tpage : Nat
  frame : Nat
  copied : Bool := false
  recalled : List Nat := []
  deriving DecidableEq, Repr

/-- Pool DRAM and what is held in front of it. `mem` is the plaintext by device address; `poison` the lines that
hold the poison pattern; `bad` the lines whose stored image decodes as uncorrectable; `flags` the poison flags of a stripe's slots
that its parity line carries (04 R105), by that line; `keyed` the keys of encrypted lines; `sheets` the Sheet caches by
(resolution point * 2048 + set) * 16 + way, `sheetStamp` the clock of their use (01 R25); `zero` the parcel that
Sparge zeroes and the lines of its offsets done (17 R649), `patrol` the patrol's channel line, `maskRec` the tract masks
of the preserved region (03 Table 3-2), `recovered` the parcels whose recovery map is no longer consulted (06 R252); `cut` the
promoted parcels of which a part reads as poisoned (04 R138, R143). -/
structure Pool where
  mem : List Host.Cell := []
  poison : List Nat := []
  bad : List Nat := []
  flags : AMap Nat := []
  keyed : AMap KeyId := []
  nc : AMap NcLine := []
  sheets : AMap SheetWay := []
  sheetStamp : Nat := 0
  cad : AMap (BitVec 512) := []
  cadPending : Option CadPending := none
  zeroed : List Nat := []
  zero : Option (Nat × Nat) := none
  patrol : Nat := 0
  maskRec : Option (List Nat) := none
  move : Option PageMove := none
  removals : List (Nat × Nat × Nat) := []
  recovered : List Nat := []
  cut : List CutPart := []
  recent : List (Nat × Nat × Nat × Nat) := []
  deriving DecidableEq, Repr

/-! ### The directory (05, 06) -/

/-- Directory states (05 Table 5-1). -/
inductive DirSt where
  | uncached | shared | exclusive
  deriving DecidableEq, Repr

/-- A directory entry (05 Table 5-2) without its tag: holders are holder fields, device in [7:6], agent in [5:0].
`parcel` is the model's own note of the line's parcel. -/
structure DirEntry where
  st : DirSt := .uncached
  coarse : Bool := false
  holders : List Nat := []
  regions : BitVec 16 := 0
  peerSet : BitVec 4 := 0
  peerOwned : Bool := false
  peerOwner : Nat := 0
  parcel : Nat := 0
  deriving DecidableEq, Repr

/-- A way of a store set or of a cache set: the line it names, its entry, its allocation or recency stamp, and for
the cache its dirty bit (05 R174). -/
structure DirWay where
  line : Nat
  entry : DirEntry
  stamp : Nat
  dirty : Bool
  deriving DecidableEq, Repr

/-- A sweep of a die's store (05 R210, 06 R241): for a host pair or a device, since which frame. -/
structure Sweep where
  dev : Nat
  agent : Option Nat
  frame : Nat
  deriving DecidableEq, Repr

/-- The Gazetteer of both dies: `store` by (die * 2^26 + set) * 8 + way, `cache` by (die * 2^17 + set) * 32 + way,
lost sets and broadcast flags (05 R167-R183); the store's bytes stand in its parcel besides. -/
structure Dir where
  store : AMap DirWay := []
  cache : AMap DirWay := []
  stamp : Nat := 0
  lost : List (Nat × Nat) := []
  broadcast : List Nat := []
  outWays : List (Nat × Nat × Nat) := []
  sweeps : List Sweep := []
  deriving DecidableEq, Repr

/-! ### Hosts and the home agents (05, 06) -/

/-- Host coherence states (05 Table 5-6). -/
inductive HostCoh where
  | active | suspect | lost
  deriving DecidableEq, Repr

/-- State of a host as this device holds it: deadline instant when SUSPECT, whether its sweep still runs on some
device, and the devices that have yet to report theirs. -/
structure HostSt where
  coh : HostCoh := .active
  since : Nat := 0
  deadline : Option Nat := none
  sweepsOpen : List Nat := []
  deriving DecidableEq, Repr

/-- What a request asks of a home (05 Table 5-5, 06 Table 6-4). -/
inductive HomeOp where
  | rd (m : Meta)
  | wr (m : Meta) (d : Payload) (mask : BitVec 64) (full : Bool)
  | evict
  | rmw (op : Rmw)
  | mashRd
  | mashWr (d : Payload) (mask : BitVec 64) (full : Bool)
  | mashRmw (op : Rmw)
  | datumWr (d : Payload)
  | pRdCur
  | pRdS
  | pRdX
  | pUpg
  | pWr (d : Payload) (mask : BitVec 64) (full : Bool)
  | pWb (d : Payload)
  | pEvict
  | recall
  | touch
  deriving DecidableEq, Repr

/-- Position of a tile's line access: ring, descriptor, tile, and its place in the tile's access list. -/
structure TileRef where
  ring : Nat
  n : Nat
  idx : Nat
  pos : Nat
  deriving DecidableEq, Repr

/-- How a request is to be answered: as it ends; with an error (12 R492); its response discarded since its head went down,
the request still to be performed (12 R487); or a wrapper has answered it already (12 R492; 03 R92; 18 R679). -/
inductive Ans where
  | normal | error | down | mute
  deriving DecidableEq, Repr

/-- A request at its home: the pair that issued it, its tag and acceptance frame (03 R82), the parcel position, the
line of this device that it resolved to, for a Tun's access its place in the tile, the energy account it is charged
to (16 Table 16-2; `Kiln`), how it is to be answered, the host that a Mash access
is bound to, for a host read the instant of its acceptance and its
latency class (11 R454), and whether it travels in RTY (01 R18). -/
structure Req where
  op : HomeOp
  dev : Nat
  agent : Nat
  tag : Nat
  frame : Nat
  parcel : Nat
  gen : Nat
  off : Nat
  line : Nat
  hops : Nat := 0
  tile : Option TileRef := none
  acct : Nat := 0x2001
  after : Option HomeOp := none
  ans : Ans := .normal
  host : Option Nat := none
  born : Nat := 0
  lat : Nat := 1
  rty : Bool := false
  deriving DecidableEq, Repr

/-- A snoop that a transaction waits for: a host (device, agent) or a peer's near cache. -/
inductive Target where
  | host (dev agent : Nat) (k : Snp)
  | peer (dev kind : Nat)
  deriving DecidableEq, Repr

/-- A copy of a line: its device and DPA (03 R80). -/
structure Place where
  dev : Nat
  dpa : Nat
  deriving DecidableEq, Repr

/-- Snoops that this device's host die has emitted for a home on another device (06 R223, R251): that home, the tag,
the first line and count of lines, the snoop, the answers awaited and the snoops held for a SUSPECT host (each as 64 *
line + agent, lines counted from the first), whether one answer is sent for all, and when the last snoop was sent. -/
structure Relay where
  dev : Nat
  tag : Nat
  line : Nat
  lines : Nat
  kind : Snp
  agents : List Nat
  held : List Nat
  whole : Bool
  since : Nat := 0
  deriving DecidableEq, Repr

/-- An open transaction (05 R189): its request, the snoops sent and unanswered, the snoops held for a SUSPECT host
or an absent device, data taken from a peer owner, whether the requester owned the line when it opened, whether no one else held it
then (06 Table 6-4), the mirror phase of a TWIN write, the copy on another device that a read waits for (04 R115), the phase (0
before its main snoops), when its last snoops were sent, the lost owner whose copy a survivor is asked for (06 Table 6-6), for a store-way eviction the request that needs the way, and the write-backs taken into it whose
mirror write awaits its acknowledgement, by mirror device (05 R728, 04 R114). For a sync engine's write of a TWIN line: a later value
of the line, the messages and the completions of descriptors (ring, number, status, result) that follow the acknowledgement. -/
structure Txn where
  req : Req
  waits : List Target
  held : List Target := []
  taken : Option Payload := none
  owned : Bool := false
  alone : Bool := false
  mirror : Option (Nat × Payload) := none
  copy : Option Place := none
  phase : Nat := 0
  since : Nat := 0
  heir : Option Nat := none
  next : Option Req := none
  taking : List (Nat × Req × Payload) := []
  rewrite : Option Payload := none
  owed : List Out := []
  finish : List (Nat × Nat × Nat × Nat) := []
  deriving DecidableEq, Repr

/-- The home agents: host states by 64 * dev + agent, open transactions, retried requests, forwarded requests, TWIN
writes waiting for the mirror, absent devices with the frame of absence, lost devices (13 R527), those declared lost
since the last boundary with the frame of absence, and those whose loss a boundary has made effective (04 R130), lines read and written for tiles, snoops relayed for peers' homes, and
requests held by a page move (03 R97), requests whose store way has been freed (05 R178), and pages (parcel, page) of
promoted parcels whose resolution has begun (06 R251), and peer snoops that wait for this proxy's own write-backs
(06 R227), conflicts of hosts, as (agent, line), that wait for their own forwarded requests (05 R192), accesses of Tuns that wait for this proxy's outstanding request of their line (06 R230), and accesses that a block's
isolation wrapper has answered, whose descriptors end with CANCELLED (18 R679). -/
structure Home where
  hosts : AMap HostSt := []
  txns : List Txn := []
  waiting : List Req := []
  forwarded : List (Nat × Req) := []
  absent : List (Nat × Nat) := []
  lost : List Nat := []
  declared : List (Nat × Nat) := []
  promoted : List Nat := []
  staged : List (TileRef × Payload) := []
  acked : List TileRef := []
  relays : List Relay := []
  held : List Req := []
  ready : List Req := []
  resolving : List (Nat × Nat) := []
  snoops : List PeerMsg := []
  conflicts : List (Nat × Nat) := []
  queued : List (Nat × Req) := []
  cancelled : List TileRef := []
  deriving DecidableEq, Repr

/-! ### Errors and faults (15) -/

/-- An on-die array (15 R577, R580, R581): its correction counter, the frames of each row's latest corrected words, rows to be
replaced at the next boundary, spares taken. -/
structure Sram where
  fixed : Nat := 0
  rows : AMap (List Nat) := []
  failing : List Nat := []
  spares : Nat := 0
  deriving DecidableEq, Repr

/-- The fault path: FIFO and holding table in order of arrival, drops since the last OVERFLOW with the frame of the
first and the class counts (15 R591-R597), host-ring drops since the last OVERFLOW, the boundary's frame until which
coalescing records stay, generations recorded for host rings (R592), on-die arrays by number, the
firmware ring's preserved TAIL (R597). -/
structure Flt where
  fifo : List FaultRec := []
  hold : List FaultRec := []
  drops : List Nat := [0, 0, 0, 0, 0, 0, 0, 0]
  firstDrop : Option Nat := none
  hostDrops : AMap (List Nat) := []
  hostFirst : AMap Nat := []
  hostGen : AMap Nat := []
  arrays : AMap Sram := []
  keepTail : Option Nat := none
  deriving DecidableEq, Repr

/-! ### DRAM channels (14) -/

/-- An entry of a read or write queue (R539): line, instant of arrival, data of a write, whether it counts as past the age
cap (R542), for a read whether an alert has already sent it back (R563), and the account that its activation is charged to. -/
structure QEntry where
  line : Nat
  t : Nat
  data : Line := 0
  urgent : Bool := false
  again : Bool := false
  acct : Nat := 0x2001
  deriving DecidableEq, Repr

/-- A command that a controller has issued and that an alert may still undo (R562): kind 0 read, 1 write, 2 refresh, 3 RFM, 4 ACT;
its instant, subchannel, rank and bank, its line with a read's second chance, and its account. -/
structure Issued where
  kind : Nat
  t : Nat
  sub : Nat
  rank : Nat
  bank : Nat
  line : Nat
  again : Bool
  acct : Nat := 0x2001
  deriving DecidableEq, Repr

/-- A logical rank of a subchannel (R545-R549): owed refreshes in 1/256, slots left, next bank index, doubled rate, RFM
slots left, RFMsb needed in this frame, and the refresh slots installed in this frame. -/
structure RankSt where
  owed : Nat := 0
  slots : Nat := 0
  bank : Nat := 0
  double : Bool := false
  rfm : Nat := 0
  need : Nat := 0
  given : Nat := 0
  deriving DecidableEq, Repr

/-- A row repair under way (R567, R568): the word of PPR_CTL with its kind, whether the module will confirm it, and the lines that it could not
correct. -/
structure Repair where
  v : Nat
  confirmed : Bool
  bad : List Nat
  deriving DecidableEq, Repr

/-- What trainings and re-centrings have settled for a strobe group (14 R554, R555, R557): read delay, write delay, VrefDQ and read Vref,
each the centre of a sweep, and the narrowest passing span of its delay sweeps (log 176). -/
structure GroupRec where
  rdDelay : Nat
  wrDelay : Nat
  vref : Nat
  rdVref : Nat
  span : Nat
  deriving DecidableEq, Repr

/-- An entry to OUT whose drain is not finished (04 R117): its cause, the frame of the entry, and the state that the channel left. -/
structure Drain where
  cause : Nat
  frame : Nat
  was : Nat
  deriving DecidableEq, Repr

/-- A channel controller (14): its module, strobe-group settings by 20 * rank + 10 * sub + group, queues, drain mode, open
rows and activation counts by bank, ranks by 4 * sub + rank, issued commands, alerts (sample instant by subchannel),
whether its training is that of a cold bring-up, an entry to OUT whose drain is not finished, SPD temperature in 0.25 C. -/
structure Chan where
  mod : Option Module := none
  groups : AMap GroupRec := []
  reads : List QEntry := []
  writes : List QEntry := []
  drain : Bool := false
  rows : AMap Nat := []
  acts : AMap Nat := []
  ranks : AMap RankSt := []
  issued : List Issued := []
  alert : AMap Nat := []
  cold : Bool := false
  out : Option Drain := none
  spd : Nat := 0
  ppr : Option Repair := none
  deriving DecidableEq, Repr

/-- A training record in retained SRAM (R557): the module's identity and the settings. -/
structure TrainRec where
  mod : Module
  groups : AMap GroupRec
  deriving DecidableEq, Repr

/-- What the channel controllers keep beside their registers: in the error window, the lines with uncorrectable
errors, the correctable errors and the alerts, and whether the window's threshold record is written (R565, R566); the
controllers; training records and bank masks in retained SRAM (R557, 15 R602); `asked` the account of a line's latest access that its
home has asked for, the device account where none is listed (16 Table 16-2); `refs` the frame in which a tract's geometry was recorded and
the channel of its reference module (R536); `repairs` lines whose lost write waits for the write of their other copy (R564). -/
structure Chans where
  ueLines : AMap (List Nat) := []
  ceWin : AMap Nat := []
  alertWin : AMap Nat := []
  noted : List Nat := []
  ch : AMap Chan := []
  trained : AMap TrainRec := []
  masks : AMap (List Nat) := []
  asked : AMap Nat := []
  refs : AMap (Nat × Nat) := []
  repairs : List Nat := []
  deriving DecidableEq, Repr

/-! ### Mash work (07, 08) -/

/-- Where a descriptor stands (08 R305, R309-R312; 09 R391; 10 R411): fetched, running on its Tun, held at a sync
engine or at its ring scheduler, waiting on a translation fault, or finished with its record still to write. -/
inductive DescPhase where
  | fetched | running | held | schedHeld | faulted | done
  deriving DecidableEq, Repr

/-- The part of a GATHER_SUM that one tile covers (08 R327): bags, gathered rows of the index stream, and whether the tile
leaves its one bag unfinished or takes it up from the tile before. -/
structure Cut where
  b0 : Nat
  b1 : Nat
  k0 : Nat
  k1 : Nat
  more : Bool
  cont : Bool
  deriving DecidableEq, Repr

/-- A descriptor in progress: its ring and number, its 1024 bits (08 Table 8-4), its Tun once bound (R285), its phase, the
completion it has come to, tiles issued and completed, the frame of its last issue, the consecutive frames deferred (R310), the
accumulator carried from tile to tile and the partial row (R327), poison seen, a retirement to report (07 R279), overruns,
energy of complete frames (16 R620), the frame it waits since, the frame from which its next tile may issue (02 R42), the tile
at whose start it ends and the status it ends with, GATHER_SUM cuts, the sources of a REDUCE table, the activation table's
words (word 7 tells whether it was read poisoned) and its slot, how far the swap of COW_PAGE has come (0 copying, 1 swap sent, 2 count sent, 3 done), and how far its record
has come (0 none, 1 its line read, 2 written), and the peer whose sync engine holds it (10 R425), with the SYNC_OP that it was sent in (R405),
and whether its state was lost, so that it writes nothing but poison (15 Table 15-2). -/
structure Desc where
  ring : Nat
  n : Nat
  img : Nat
  tun : Option Nat := none
  phase : DescPhase := .fetched
  status : Nat := 0
  result : Nat := 0
  bytes : Nat := 0
  issued : Nat := 0
  completed : Nat := 0
  lastIssue : Option Nat := none
  deferred : Nat := 0
  acc : Nat := 0
  carry : List Nat := []
  poisoned : Bool := false
  arith : Bool := false
  overruns : Nat := 0
  energy : Nat := 0
  since : Nat := 0
  notBefore : Nat := 0
  stop : Option (Nat × Nat) := none
  cuts : List Cut := []
  tab : List Nat := []
  act : List Nat := []
  slot : Option Nat := none
  cow : Nat := 0
  rcd : Nat := 0
  engine : Option Nat := none
  sent : Option PeerMsg := none
  retried : Bool := false
  tainted : Bool := false
  deriving DecidableEq, Repr

/-- A page of 4 KiB that a tile touches: its CVA page, the permissions needed, and once translated its parcel, generation
and parcel offset (09 R371), or the fault of its walk (Table 9-7 code). -/
structure TPage where
  page : Nat
  wr : Bool
  stream : Nat
  place : Option (Nat × Nat × Nat) := none
  fault : Option Nat := none
  deriving DecidableEq, Repr

/-- A write or addend of a tile: CVA line, the byte in it, and the operation at its home. -/
structure TWrite where
  line : Nat
  byte : Nat
  op : HomeOp
  deriving DecidableEq, Repr

/-- Where a tile stands: its dispatch is on its way, refused with STALE_ROLE, arrived at its Tun, being translated, translated
with its reads under way, computed with its results held, passed every check, or sent. -/
inductive TileSt where
  | sentOut | stale | arrived | walking | reading | computed | passed | sent
  deriving DecidableEq, Repr

/-- A tile in flight (07, 08 R340-R345, 09 R384-R386): descriptor and place, Tun, epoch of its dispatch, core, issue frame,
staging blocks (07 R283), state and translation phase, the frame of its translation and that in which its phase asked for its pages, its pages, the CVA lines it reads in the
order of their positions, its writes, its partial result or row, whether an input was poisoned, and whether an overrun is
already counted. -/
structure Tile where
  ring : Nat
  n : Nat
  idx : Nat
  tun : Nat
  epoch : Nat
  core : Nat := 0
  frame : Nat
  blocks : Nat
  st : TileSt := .sentOut
  ph : Nat := 0
  xframe : Nat := 0
  wframe : Nat := 0
  pages : List TPage := []
  lines : List Nat := []
  writes : List TWrite := []
  part : List Nat := []
  poison : Bool := false
  late : Bool := false
  deriving DecidableEq, Repr

/-- A ring in operation: its doorbell page (08 Table 8-3), the generations recorded at its enable (R300), whether a fetch is
under way, and whether it becomes DISABLED rather than STOPPED when its stop has ended (R309). -/
structure Ring where
  tail : Nat := 0
  head : Nat := 0
  cqHead : Nat := 0
  done : Nat := 0
  ignored : Nat := 0
  dqGen : Nat := 0
  cqGen : Nat := 0
  fetching : Bool := false
  stopping : Option Nat := none
  deriving DecidableEq, Repr

/-- What a Tun holds beside its registers (07): strikes by core with their frames (R277), cores to retire at the next boundary
(R278), a role change that waits for its boundary (R293), the boundary at which the last change took effect (R295), and the
activation tables of its table area by slot, as context, CVA and words, none until they are read (08 R339). -/
structure TunSt where
  strikes : AMap Nat := []
  retire : List Nat := []
  pend : Option Nat := none
  changed : Option Nat := none
  tables : AMap (Nat × Nat × List Nat) := []
  deriving DecidableEq, Repr

/-- A bank of an accumulation window (08 R348-R356): epoch, state (0 OPEN, 1 FULL, 2 CLOSED), last close frame, rearm
votes, lines at N by die, and the dies that have reported. -/
structure Bank where
  epoch : Nat
  st : Nat := 0
  close : Nat := 0
  votes : Nat := 0
  atN0 : Nat := 0
  atN1 : Nat := 0
  reports : List Nat := []
  deriving DecidableEq, Repr

/-- An enabled window: its parcel and banks; `off` once a disable waits for its boundary (08 R357, 19 R735). -/
structure Win where
  parcel : Nat
  b0 : Bank := { epoch := 0 }
  b1 : Bank := { epoch := 1 }
  off : Bool := false
  deriving DecidableEq, Repr

/-- Mash work: enabled accumulation windows, descriptors in progress by ring * 2^32 + number, tiles in flight, rings by
number, Tuns by number, the next transaction tag of the Tuns, and the overrun counters of Tuns (at n) and contexts (at
0x1000 + c; 02 R42). -/
structure Mash where
  wins : AMap Win := []
  descs : AMap Desc := []
  tiles : List Tile := []
  rings : AMap Ring := []
  tuns : AMap TunSt := []
  tag : Nat := 0
  overruns : AMap Nat := []
  deriving DecidableEq, Repr

/-! ### Translation (09) -/

/-- A loaded context (09 R358-R364): its entry, and whether it is enabled. -/
structure Ctx where
  entry : BitVec 512
  on : Bool
  deriving DecidableEq, Repr

/-- An entry of a translation cache (R372): the L1 of Tun t (0-31) or the L2 of die d (32 + d); context, level, the CVA bits
above the level's page (`leaf`) or table, the address it gives, the write grant, and its recency stamp. -/
structure XEnt where
  cache : Nat
  ctx : Nat
  level : Nat
  tagv : Nat
  addr : Nat
  wok : Bool
  leaf : Bool
  stamp : Nat
  deriving DecidableEq, Repr

/-- A walk (R365, R376-R383): its Tun, context, CVA and need, whether it is a prefetch, the level and table it has come to
(level 0 before it starts), the write grant so far, the entry read that it waits for (its staging number), the frame in which it
was asked for, the frame of an invalidation since which its result fills no cache and serves only who asked before it (Table 9-5
step 2), and the tables seen, as (level, base, grant). -/
structure Walk where
  tun : Nat
  ctx : Nat
  cva : Nat
  write : Bool
  pre : Bool := false
  level : Nat := 0
  base : Nat := 0
  wok : Bool := true
  id : Nat := 0
  reading : Bool := false
  born : Nat := 0
  stale : Option Nat := none
  seen : List (Nat × Nat × Bool) := []
  deriving DecidableEq, Repr

/-- An invalidation in progress (R377, R378): its contexts, the first page and count of scope 0b01, and the frame of its go. -/
structure Inval where
  ctxs : List Nat
  pages : Option (Nat × Nat) := none
  frame : Nat
  deriving DecidableEq, Repr

/-- Translation: loaded contexts, commands queued for the boundary (context, op, the entry that
a LOAD read), cache entries, recency, walks in progress,
walks queued for prefetch, invalidations by agent. -/
structure Xlat where
  ctxs : AMap Ctx := []
  cmds : List (Nat × Nat × BitVec 512) := []
  ents : List XEnt := []
  stamp : Nat := 0
  walks : List Walk := []
  pre : List (Nat × Nat × Nat) := []
  next : Nat := 0
  invals : AMap Inval := []
  deriving DecidableEq, Repr

/-! ### Sync engines (10) -/

/-- State of a waiter entry (10 Table 10-9). -/
inductive WaitSt where
  | held | saved | abandoned | void
  deriving DecidableEq, Repr

/-- A waiter entry with the object it waits on (a line of this device), its descriptor, its expiry frame, and its place in the order of
arrival. A saved entry whose object has been disarmed is VOID until its restore (10 R404). -/
structure Waiter where
  line : Nat
  gate : Bool
  value : Nat
  dev : Nat
  agent : Nat
  ctx : Nat
  ring : Nat
  n : Nat
  tag : Nat
  start : Nat
  expiry : Option Nat
  st : WaitSt := .held
  seq : Nat := 0
  deriving DecidableEq, Repr

/-- A save or restore in progress (10 R431-R433): context, whether it restores, and the frame of its boundary. -/
structure SaveOp where
  ctx : Nat
  restore : Bool
  base : Nat
  len : Nat
  deriving DecidableEq, Repr

/-- The sync engines: waiters in arrival order, abandoned tickets that signals still have to pass (line, ticket),
entries abandoned in the current frame, saved contexts with base and count of their save area, saves in progress, and
releases owed to absent devices. -/
structure Sync where
  waiters : List Waiter := []
  gone : List (Nat × Nat) := []
  recent : List Waiter := []
  saved : AMap (Nat × Nat) := []
  op : Option SaveOp := none
  owed : List (Nat × Nat × Nat × Nat × Nat) := []
  deriving DecidableEq, Repr

/-! ### Host ports (12) -/

/-- A logical device, by agent (12): enabled; the frame of a disable whose second boundary is still to come (R492); extent
table; back-invalidate enabled (R476; log 13); HDM decoders by index as (hpa, size, lda), and those of the next boundary (09 R370); MSI-X entries unmasked and
pending (R485); Add Capacity offers and release requests still to be answered, as (lda, frame); IDE streams as (key,
active); the result held in the mailbox (Table 12-8), as (command, return code, output). -/
structure Ld where
  enabled : Bool := false
  off : Option Nat := none
  extents : List Extent := []
  bi : Bool := false
  hdm : AMap (Nat × Nat × Nat) := []
  hdmNext : Option (AMap (Nat × Nat × Nat)) := none
  unmasked : List Nat := []
  msix : List Nat := []
  offers : List (Nat × Nat) := []
  releases : List (Nat × Nat) := []
  ide : AMap (Nat × Bool) := []
  mbox : Option (Nat × Nat × List Nat) := none
  deriving DecidableEq, Repr

/-- The host ports: logical devices by agent, the mode each port was last enabled with, and vendor commands whose reply waits
for a boundary, as (agent, command, operand). -/
structure Ports where
  lds : AMap Ld := []
  modes : AMap Nat := []
  waiting : List (Nat × Nat × Nat) := []
  deriving DecidableEq, Repr

/-! ### Vorir and Daoth (01, 13) -/

/-- A message on a hop of Vorir: its class, its agents and its 64 B slots (01 R17, R19, R31). -/
structure VMsg where
  cls : Cls
  src : Nat
  dst : Nat
  slots : Nat
  deriving DecidableEq, Repr

/-- The Vorir fabric (01 R19-R24, 15 R582): lane parity errors in the current window at link * 2^16 + lane, lanes whose traffic
waits for its spare, spares taken by link, links at half width, replay requests by link. By direction (twice the link, plus one towards
the memory or host die): the number of its next flit and the message of its latest one, which a replay sends again; and the
receive slots that are occupied, at 4 * direction + class. -/
structure Vorir where
  errs : AMap Nat := []
  failing : List Nat := []
  spared : AMap Nat := []
  half : List Nat := []
  replays : AMap Nat := []
  seq : AMap Nat := []
  last : AMap VMsg := []
  occ : AMap Nat := []
  deriving DecidableEq, Repr

/-- A flit in a replay buffer (13 R519): its sequence number and the messages of which it holds a chunk. -/
structure TxFlit where
  seq : Nat
  msgs : List MsgHead
  deriving DecidableEq, Repr

/-- The key of one direction of a link (17 R645, R647): the link secret S that it is derived from, the sender's and the receiver's board
numbers, the key and the salt. -/
structure DirKey where
  secret : BitVec 512
  src : Nat
  dst : Nat
  key : BitVec 256
  salt : BitVec 32
  deriving DecidableEq, Repr

/-- One Daoth link (13); its state, half bit and reason stand in DAOTH[n].STATUS. The transmitter: replay buffer oldest first,
next sequence number, resends of its oldest flit, the pair bit, C and F' by class (R512), xoff bits received (R517), sequenced
flits since CREDIT_INIT (R508), replacements of S by their count (17 R647) and all flits sent. The receiver: N, how often the
pending replay request has been sent (0 none; R520), F and occupied slots by class, xoff bits sent, messages and flits of the group not yet verified, the ack advertised, the
last flit of the latest verified group, acceptances and freed slots not yet reported (R516), the sequenced flits
accepted since CREDIT_INIT and the replacements of S by their count (17 R647). INIT: identity accepted, echoes
seen, the least round trip less turnaround, session established and the keys of its two directions (17 R645). `off` a disable that waits for its boundary (19 R735), `away` that messages bound to the link still go on its sibling (R523-R525), `since` the frame in
which it became ACTIVE. -/
structure Link where
  held : List TxFlit := []
  next : Nat := 0
  resends : Nat := 0
  pair : Bool := false
  cons : List Nat := [0, 0, 0, 0]
  freedIn : List Nat := [0, 0, 0, 0]
  xoffIn : Nat := 0
  flits : Nat := 0
  keyOut : Nat := 0
  sent : Nat := 0
  expect : Nat := 0
  asking : Nat := 0
  freed : List Nat := [0, 0, 0, 0]
  occ : List Nat := [0, 0, 0, 0]
  xoffOut : Nat := 0
  group : List MsgHead := []
  inGroup : Nat := 0
  ackOut : Nat := 4095
  verified : Nat := 4095
  unadv : Nat := 0
  unreported : Nat := 0
  got : Nat := 0
  keyIn : Nat := 0
  identOk : Bool := false
  echoes : Nat := 0
  trip : Option Nat := none
  session : Bool := false
  outKey : Option DirKey := none
  inKey : Option DirKey := none
  off : Bool := false
  away : Bool := false
  since : Nat := 0
  deriving DecidableEq, Repr

/-- What a device keeps for a peer (13 R501, R523-R528): the run identity last seen, the next e2e_seq by class, the lowest
number not received and the numbers received above it by class, the messages held while no link can carry them, the identity
under which the peer was declared lost, the session exchange's step, this end's ephemeral key and the transcript so far (17 R644), and the
Datum messages received (17 R624). -/
structure Pair where
  run : Option Nat := none
  nextSeq : List Nat := [0, 0, 0, 0]
  base : List Nat := [0, 0, 0, 0]
  seen : List (List Nat) := [[], [], [], []]
  frozen : List MsgHead := []
  lostRun : Option Nat := none
  step : Nat := 0
  eph : Nat := 0
  transcript : List Nat := []
  datum : Nat := 0
  deriving DecidableEq, Repr

/-- The Daoth links by port and the pairs by peer device. -/
structure Links where
  ports : AMap Link := []
  pairs : AMap Pair := []
  deriving DecidableEq, Repr

/-! ### Bandwidth (11) -/

/-- The shaper: grants of the frame, hosts held at their guarantee, whether the frame is congested, lines counted (R438)
and admitted (R447) in the frame, Mash lines counted against ceilings (R441), lines queued at the ports (R39 demand),
eligible times in 2^-16 slots (R446), and the values of accepted commits that wait for their boundary, by register address
(R451, R733). `iv` are the interval marks of 19 R695, kept apart from the registers: the highest read latency by 4 * agent +
class, and the reads by bucket at 64 * agent + 16 * class + bucket; `ivHeld` those latched for the snapshot being written. -/
structure Qos where
  grants : AMap Nat := []
  held : List Nat := []
  congested : Bool := false
  counted : AMap Nat := []
  admitted : AMap Nat := []
  mashLines : AMap Nat := []
  queued : AMap Nat := []
  elig : AMap Int := []
  pend : AMap Word := []
  ivHwm : AMap Nat := []
  ivHist : AMap Nat := []
  ivHeld : Option (AMap Nat × AMap Nat) := none
  deriving DecidableEq, Repr

/-! ### Operation slots (04 R147) -/

/-- An operation slot: kind 1 REBUILD, 2 ESTABLISH, 3 RESILVER; its channel, or its parcel with the other device and
whether this device is the mirror; its state (PROTECT.SLOT.STATUS), live watermark, the watermark that a mirror commits
at its next boundary (R142), whether the mirror has claimed its own slot (R140), the rebuild list's place and length,
and at a mirror the plots that the source had marked when its resilver began (log 163). -/
structure OpSlot where
  kind : Nat
  chan : Nat := 0
  parcel : Nat := 0
  peer : Nat := 0
  mirror : Bool := false
  st : Nat := 1
  mark : Nat := 0
  next : Option Nat := none
  claimed : Bool := true
  base : Nat := 0
  count : Nat := 0
  plots : List Nat := []
  deriving DecidableEq, Repr

/-! ### Energy (16) -/

/-- The plan of a frame for one partition (16 R613; the one of DEFAULT mode is partition 0): what is left of the host part in
lines, of the Mash allotment in bytes and energy (none before Kiln's first commit, R617), of the background allotment in
bytes, and of the spare lines (R614). -/
structure PartPlan where
  host : Nat := 0
  mash : Nat := 0
  mashE : Option Nat := none
  bg : Nat := 0
  spare : Nat := 0
  deriving DecidableEq, Repr

/-- A plan between its latch and its installation (R613): grants, hosts held at their guarantee, whether a plan left its frame
congested (11 R444), what each partition has, the budget in pJ, and the deepest cut (R616; 0 none). -/
structure Plan where
  grants : AMap Nat := []
  held : List Nat := []
  congested : Bool := false
  parts : AMap PartPlan := []
  budget : Nat := 0
  cut : Nat := 0
  deriving DecidableEq, Repr

/-- Energy accounts and the plan (16). `charged` is the energy of the frame by account in 1/16 pJ: host a at a, context c at
0x1000 + c, background at 0x2000; the device account is what is left (R606). `total` holds the cumulative energy of hosts and
contexts (R621). Energy measured in this frame and since reset, and in the last frame, in pJ (R603); the budgets of this frame
and the last; the device accounts of the latest complete frames, newest first, in 1/16 pJ (R610); the plan for the next frame;
whether a Kiln commit has been accepted (R617) and the one that waits for its boundary, by register address; the deepest cut
of the last frame (R616); the bytes that background work has drawn beyond its allotment, by partition (log 164); T_in and the hottest junction sensor of the last latch, in 0.25 C, and whether the coolant reading
was out of range (20 R713). -/
structure Kiln where
  charged : AMap Nat := []
  parts : AMap PartPlan := []
  total : AMap Nat := []
  input : Nat := 0
  measured : Nat := 0
  measuredLast : Nat := 0
  budget : Option Nat := none
  budgetLast : Option Nat := none
  devHist : List Int := []
  next : Option Plan := none
  cut : Nat := 0
  bgDebt : AMap Nat := []
  committed : Bool := false
  pend : AMap Word := []
  coolant : Int := 0
  hottest : Nat := 0
  sensorBad : Bool := false
  deriving DecidableEq, Repr

/-! ### Block resets (18 R678-R680) -/

/-- A block under reset: kind and instance (18 Table 18-7), whether it is held until a release, whether the reset has taken
effect and at which boundary, the boundary of its release once one is set, requests that its wrapper has answered. -/
structure BlockRst where
  kind : Nat
  inst : Nat
  hold : Bool
  since : Option Nat := none
  free : Option Nat := none
  answered : Nat := 0
  deriving DecidableEq, Repr

/-- A change that an accepted command has queued for a later boundary (19 R700). -/
inductive Due where
  | gracePeriod (v : Word)
  | snoopTimeout (v : Word)
  | peerCtl (v : Word)
  | chanOut (c cause : Nat)
  | chanTo (c st : Nat)
  | sched (c : Nat)
  | bankMask (c k : Nat)
  | rebuild (c : Nat)
  | zero (parcel : Nat)
  | opStart (kind parcel peer : Nat)
  | suspect (a : Nat)
  | ldOn (a : Nat)
  | ldOff (a : Nat)
  | portOff (p : Nat)
  deriving DecidableEq, Repr

/-! ### Security (17) -/

/-- A flash bank (17 Table 17-3): its state byte and its image. -/
structure Bank2 where
  st : Nat := 0xFF
  img : Option FwImage := none
  deriving DecidableEq, Repr

/-- An SPDM session (17 R635, R643): who opened it, whether it is mutually authenticated, the trust anchor its requester's chain
ends in, and how often its keys were updated. -/
structure Session where
  who : Mgr
  mutualAuth : Bool
  anchor : Nat
  updates : Nat := 0
  deriving DecidableEq, Repr

/-- A debug session (17 R657, R658): its requester, scopes, and the instant at which it expires. -/
structure DebugSession where
  who : Mgr
  scopes : Nat
  expires : Nat
  deriving DecidableEq, Repr

/-- The root of trust (17): retirement fuses (bit 4 * item + slot), the rollback counter, the provisioned fuse; banks A and B and
the running one (log 8); SPDM sessions; the debug authority, the latest nonces as (requester, nonce, instant), debug sessions
and how many were opened since power-on; board members and host trust anchors with the positions and ports armed for
enrolment; by record (0 membership, 1 host anchors, 2 debug authority), the link root slot under whose key it is sealed (R645); an
accepted handover frame, and whether the staged image has started and still owes its FW_BANK_SWITCH. -/
structure Sec where
  retired : Nat := 0
  rollback : Nat := 0
  provisioned : Bool := false
  bankA : Bank2 := { st := 0x1F, img := some ⟨0x4B4C4657, 0, 0, 0, 0, true, true, true⟩ }
  bankB : Bank2 := {}
  running : Nat := 0
  sessions : AMap Session := []
  nextSession : Nat := 0
  authority : Option Nat := none
  nonces : List (Mgr × Nat × Nat) := []
  debugs : AMap DebugSession := []
  opened : Nat := 0
  members : AMap Nat := []
  anchors : AMap (List Nat) := []
  armed : List Nat := []
  seals : AMap Nat := []
  handover : Option Nat := none
  switching : Bool := false
  deriving DecidableEq, Repr

/-! ### Resets (18, 20) -/

/-- Where the device stands (18): without standby power, on the way into a warm reset, held in reset, in bring-up, in service,
in recovery mode. -/
inductive Phase where
  | off | entry | held | bringup | service | recovery
  deriving DecidableEq, Repr

/-- The standby domain's view of resets (18, 20): the phase; whether the next bring-up follows a power-on; cold or warm and
whether the bring-up has stopped; S and the cause instant in ps; steps of Table 18-3 done and the frame of the second boundary
after the cause; RST_N held low from outside, and the conditions for which Klohal drives it low (1 VIN, 2 junction, 3
reference); READY; channels left in self-refresh, PWR_EN as the standby island holds it; the unflushed line count and list of
retained SRAM (R668); the handover record (17 R654); the instant of the watchdog's last kick; words without a majority that
force a warm reset, and the latest TRIPLE_NO_MAJORITY record in retained SRAM (15 R584). -/
structure Rst where
  phase : Phase := .bringup
  powerOn : Bool := true
  cold : Bool := true
  stopped : Bool := false
  s : Nat := 0
  t0 : Nat := 0
  step : Nat := 0
  bound : Nat := 0
  rstLow : Bool := false
  drives : List Nat := []
  ready : Bool := false
  selfRefresh : Bool := false
  pwr : Nat := 0
  unflushed : Nat := 0
  dirty : List Nat := []
  record : Bool := false
  kick : Nat := 0
  noMajority : List Nat := []
  nmRec : Option FaultRec := none
  deriving DecidableEq, Repr

/-! ### The machine -/

/-- What the traffic of the pool changes. `regs` holds the register words of the management space that differ from
their reset values, `live` the values in force of staged registers, `hregs` the host pages (agent * 0x1000 + offset),
`half` the upper halves that reads of 64-bit counters have latched (19 R684), by address, `due` the changes queued for a boundary, `out` the messages that
left the device, newest first (log 4), `ctr` the count of free values drawn (log 9). -/
structure Work where
  regs : AMap Word := []
  live : AMap Word := []
  hregs : AMap Word := []
  half : AMap Word := []
  due : List Due := []
  pool : Pool := {}
  dir : Dir := {}
  home : Home := {}
  flt : Flt := {}
  chans : Chans := {}
  mash : Mash := {}
  xlat : Xlat := {}
  sync : Sync := {}
  kiln : Kiln := {}
  ports : Ports := {}
  qos : Qos := {}
  links : Links := {}
  vorir : Vorir := {}
  ops : AMap OpSlot := []
  blocks : List BlockRst := []
  out : List Out := []
  ctr : Nat := 0
  deriving DecidableEq, Repr

/-- What the clock, security and reset commands own. `board` is BOARD_ID (20), `backup` the triplicated backup words
(18 Table 18-5), `keysel` KEYSEL (17 R627), `jtag` the JTAG instruction in force (17 R660; 1 BYPASS). -/
structure Env where
  clk : Clk := {}
  mer : Mer := {}
  board : Nat := 0
  backup : AMap (Tri Word) := []
  keysel : Tri Word := ⟨0, 0, 0⟩
  rst : Rst := {}
  sec : Sec := {}
  jtag : Nat := 1
  deriving DecidableEq, Repr

/-- The state of the block, with its queue of commands (first in, first out). -/
structure State where
  env : Env := {}
  w : Work := {}
  pending : List Instr := []
  deriving DecidableEq, Repr

/-- The machine right after reset. -/
def State.reset : State := {}

end Sys2Proof.Machine
end

