-- ==== Sys2Proof/Machine/Mem.lean ====
section
/-! DEFINITION. Sparse maps, sets of numbers, and pool memory: sorted lists in one canonical form. -/

namespace Sys2Proof.Machine

/-! ### Sparse maps -/

def mget {α : Type} (m : AMap α) (k : Nat) : Option α :=
  match m with
  | [] => none
  | (i, x) :: r => if i = k then some x else mget r k

def mset {α : Type} (m : AMap α) (k : Nat) (v : α) : AMap α :=
  match m with
  | [] => [(k, v)]
  | (i, x) :: r =>
    if i < k then (i, x) :: mset r k v
    else if i = k then (k, v) :: r
    else (k, v) :: (i, x) :: r

def mdel {α : Type} (m : AMap α) (k : Nat) : AMap α := m.filter (fun x => x.1 != k)

def mgetD {α : Type} (m : AMap α) (k : Nat) (d : α) : α := (mget m k).getD d

def mhas {α : Type} (m : AMap α) (k : Nat) : Bool := (mget m k).isSome

/-- Change the value at `k`, present or not. -/
def mmod {α : Type} (m : AMap α) (k : Nat) (d : α) (f : α → α) : AMap α := mset m k (f (mgetD m k d))

/-- Keys strictly rising from `lo`. -/
def mapWfFrom {α : Type} (lo : Nat) (m : AMap α) : Bool :=
  match m with
  | [] => true
  | (i, _) :: r => decide (lo ≤ i) && mapWfFrom (i + 1) r

def mapWf {α : Type} (m : AMap α) : Bool := mapWfFrom 0 m

/-! ### Sets of numbers, strictly rising -/

def sadd (l : List Nat) (k : Nat) : List Nat :=
  match l with
  | [] => [k]
  | i :: r => if i < k then i :: sadd r k else if i = k then i :: r else k :: i :: r

def sdel (l : List Nat) (k : Nat) : List Nat := l.filter (· ≠ k)

/-! ### Pool memory -/

/-- What a byte that no write has touched reads as: zero (log 5). -/
def memDefault : Byte := 0

/-- The byte at device address `a`. -/
def memRd (m : List Host.Cell) (a : Nat) : Byte :=
  match m with
  | [] => memDefault
  | (i, b) :: r => if i = a then b else memRd r a

/-- List a byte, addresses strictly rising. -/
def memIns (m : List Host.Cell) (a : Nat) (b : Byte) : List Host.Cell :=
  match m with
  | [] => [(a, b)]
  | (i, x) :: r =>
    if i < a then (i, x) :: memIns r a b
    else if i = a then (a, b) :: r
    else (a, b) :: (i, x) :: r

/-- Write one byte, keeping the canonical form: addresses strictly rising, no entry equal to the default. -/
def memWr (m : List Host.Cell) (a : Nat) (b : Byte) : List Host.Cell :=
  if b = memDefault then m.filter (fun x => x.1 != a) else memIns m a b

def memWfFrom (lo : Nat) (m : List Host.Cell) : Bool :=
  match m with
  | [] => true
  | (i, b) :: r => decide (lo ≤ i) && decide (b ≠ memDefault) && memWfFrom (i + 1) r

/-- The canonical form of pool memory. -/
def Memory.wf (m : List Host.Cell) : Bool := memWfFrom 0 m

/-- `n` bytes from `a` as a little-endian number (00 R2). -/
def memNat (m : List Host.Cell) (a n : Nat) : Nat :=
  match n with
  | 0 => 0
  | k + 1 => (memRd m a).toNat + 256 * memNat m (a + 1) k

/-- Write `n` bytes of `v`, little-endian, from `a`. -/
def memPut (m : List Host.Cell) (a n v : Nat) : List Host.Cell :=
  match n with
  | 0 => m
  | k + 1 => memPut (memWr m a (BitVec.ofNat 8 v)) (a + 1) k (v / 256)

/-- The 64 B line with line number `l` (03: DPA[47:6]). -/
def memLine (m : List Host.Cell) (l : Nat) : Line := BitVec.ofNat 512 (memNat m (64 * l) 64)

def memPutLine (m : List Host.Cell) (l : Nat) (d : Line) : List Host.Cell := memPut m (64 * l) 64 d.toNat

/-! ### Bits of numbers -/

def bitAt (v i : Nat) : Bool := v / 2 ^ i % 2 == 1

def setBitAt (v i : Nat) (b : Bool) : Nat := putBits v i i (if b then 1 else 0)

/-- The number of bits set among the low `n`. -/
def popcount (v n : Nat) : Nat :=
  match n with
  | 0 => 0
  | k + 1 => v % 2 + popcount (v / 2) k

/-- Parity of the low `n` bits. -/
def parity (v n : Nat) : Nat := popcount v n % 2

/-- The numbers below `n` whose bit is set, in rising order. -/
def bitList (v n : Nat) : List Nat := (List.range n).filter (bitAt v)

/-- Bytes of `d` where `mask` is set, of `old` elsewhere. -/
def mergeLine (old d : Line) (mask : BitVec 64) : Line :=
  BitVec.ofNat 512 ((List.range 64).foldr
    (fun i acc => 256 * acc + (if mask.getLsbD i then bitsOf d.toNat (8 * i + 7) (8 * i)
      else bitsOf old.toNat (8 * i + 7) (8 * i))) 0)

end Sys2Proof.Machine
end

