-- ==== Sys2Proof/Machine/Fp.lean ====
section
/-! DEFINITION. In-pool arithmetic (07): number formats, exact values, rounding, MX blocks. Every operation is exact
arithmetic followed by the one rounding that its rule names. -/

namespace Sys2Proof.Machine

/-- A number as arithmetic sees it: a NaN, an infinity, or (-1)^neg * m * 2^e exactly. -/
inductive Val where
  | nan
  | inf (neg : Bool)
  | fin (neg : Bool) (m : Nat) (e : Int)
  deriving DecidableEq, Repr

/-- A floating-point layout (07 Table 7-2): exponent and fraction bits, bias, and the codes with all exponent bits
set: 0 infinity and NaN (IEEE 754), 1 NaN in the last code alone (E4M3), 2 ordinary numbers (MX elements). -/
structure FpFmt where
  ebits : Nat
  fbits : Nat
  bias : Nat
  top : Nat
  deriving DecidableEq, Repr

/-- An element format: floating point, or two's complement of `n` bits with `frac` fraction bits. -/
inductive ElFmt where
  | fp (f : FpFmt)
  | int (n frac : Nat)
  deriving DecidableEq, Repr

def fp64 : FpFmt := ⟨11, 52, 1023, 0⟩
def fp32 : FpFmt := ⟨8, 23, 127, 0⟩
def fp16 : FpFmt := ⟨5, 10, 15, 0⟩
def bf16 : FpFmt := ⟨8, 7, 127, 0⟩
def e4m3 : FpFmt := ⟨4, 3, 7, 1⟩
def e5m2 : FpFmt := ⟨5, 2, 15, 0⟩
def e3m2 : FpFmt := ⟨3, 2, 3, 2⟩
def e2m3 : FpFmt := ⟨2, 3, 1, 2⟩
def e2m1 : FpFmt := ⟨2, 1, 1, 2⟩

/-- The element format of a code (07 Table 7-2); none for the reserved codes. -/
def elFmt (code : Nat) : Option ElFmt :=
  match code with
  | 0 => some (.fp fp64)
  | 1 => some (.fp fp32)
  | 2 => some (.fp fp16)
  | 3 => some (.fp bf16)
  | 4 => some (.fp e4m3)
  | 5 => some (.fp e5m2)
  | 6 => some (.fp e4m3)
  | 7 => some (.fp e5m2)
  | 8 => some (.fp e3m2)
  | 9 => some (.fp e2m3)
  | 10 => some (.fp e2m1)
  | 11 => some (.int 8 6)
  | 12 => some (.int 8 0)
  | 13 => some (.int 32 0)
  | _ => none

def isMx (code : Nat) : Bool := decide (6 ≤ code) && decide (code ≤ 11)

/-- Bits of an element. -/
def elBits (code : Nat) : Nat :=
  match code with
  | 0 => 64 | 1 => 32 | 13 => 32 | 2 => 16 | 3 => 16 | 8 => 6 | 9 => 6 | 10 => 4
  | _ => 8

/-- Bytes of an element of a format that is not MX. -/
def elBytes (code : Nat) : Nat := elBits code / 8

/-- Block size B of an MX format (07 Table 7-3). -/
def mxBytes (code : Nat) : Nat := 4 * elBits code

/-- emax of an MX format (07 Table 7-3). -/
def mxEmax (code : Nat) : Nat :=
  match code with
  | 6 => 8 | 7 => 15 | 8 => 4 | 9 => 2 | 10 => 2
  | _ => 0

/-! ### Decoding -/

def FpFmt.maxExp (f : FpFmt) : Nat := 2 ^ f.ebits - 1

/-- The value of a bit pattern (07 R258: subnormals as IEEE 754 defines them). -/
def FpFmt.decode (f : FpFmt) (b : Nat) : Val :=
  let neg := bitAt b (f.ebits + f.fbits)
  let ex := b / 2 ^ f.fbits % 2 ^ f.ebits
  let fr := b % 2 ^ f.fbits
  if ex = f.maxExp ∧ f.top = 0 then (if fr = 0 then .inf neg else .nan)
  else if ex = f.maxExp ∧ f.top = 1 ∧ fr = 2 ^ f.fbits - 1 then .nan
  else if ex = 0 then .fin neg fr (1 - (f.bias : Int) - f.fbits)
  else .fin neg (2 ^ f.fbits + fr) ((ex : Int) - f.bias - f.fbits)

def decodeEl (f : ElFmt) (b : Nat) : Val :=
  match f with
  | .fp f => f.decode b
  | .int n frac =>
    let b := b % 2 ^ n
    if b < 2 ^ (n - 1) then .fin false b (-(frac : Int)) else .fin true (2 ^ n - b) (-(frac : Int))

/-! ### Rounding (07 R268, R269) -/

/-- How a conversion rounds: to nearest even, or stochastically with the 16-bit draw u. -/
inductive Rnd where
  | nearest
  | stochastic (u : Nat)
  deriving DecidableEq, Repr

/-- m * 2^e as a whole number of units 2^q, rounded. -/
def roundUnits (m : Nat) (e q : Int) (r : Rnd) : Nat :=
  if q ≤ e then m * 2 ^ (e - q).toNat
  else
    let sh := (q - e).toNat
    let hi := m / 2 ^ sh
    let lo := m % 2 ^ sh
    match r with
    | .nearest =>
      let half := 2 ^ (sh - 1)
      if lo > half ∨ (lo = half ∧ hi % 2 = 1) then hi + 1 else hi
    | .stochastic u => if u < 2 ^ 16 * lo / 2 ^ sh then hi + 1 else hi

/-- The largest finite value of a format, as a number of units 2^q. -/
def FpFmt.maxFin (f : FpFmt) : Nat × Int :=
  match f.top with
  | 0 => (2 ^ (f.fbits + 1) - 1, (f.maxExp : Int) - 1 - f.bias - f.fbits)
  | 1 => (2 ^ (f.fbits + 1) - 2, (f.maxExp : Int) - f.bias - f.fbits)
  | _ => (2 ^ (f.fbits + 1) - 1, (f.maxExp : Int) - f.bias - f.fbits)

/-- Whether a * 2^x exceeds b * 2^y. -/
def gtUnits (a : Nat) (x : Int) (b : Nat) (y : Int) : Bool :=
  if x ≤ y then decide (a > b * 2 ^ (y - x).toNat) else decide (a * 2 ^ (x - y).toNat > b)

def signBit (f : FpFmt) (neg : Bool) : Nat := if neg then 2 ^ (f.ebits + f.fbits) else 0

/-- The bits of n * 2^q, which the format holds exactly. -/
def FpFmt.pack (f : FpFmt) (neg : Bool) (n : Nat) (q : Int) : Nat :=
  if n = 0 then signBit f neg
  else
    let p := Nat.log2 n
    let ex := q + p
    let emin : Int := 1 - f.bias
    if ex < emin then signBit f neg + n * 2 ^ (q - (emin - f.fbits)).toNat
    else
      let fr := if p ≤ f.fbits then n * 2 ^ (f.fbits - p) else n / 2 ^ (p - f.fbits)
      signBit f neg + (ex + f.bias).toNat * 2 ^ f.fbits + fr % 2 ^ f.fbits

/-- The canonical quiet NaN (07 R267). -/
def FpFmt.nanBits (f : FpFmt) : Nat :=
  if f.top = 1 then 2 ^ (f.ebits + f.fbits) - 1
  else f.maxExp * 2 ^ f.fbits + 2 ^ (f.fbits - 1)

def FpFmt.maxBits (f : FpFmt) (neg : Bool) : Nat := f.pack neg f.maxFin.1 f.maxFin.2

/-- A value in a floating-point format, with the overflow rule of Table 7-5. -/
def FpFmt.encode (f : FpFmt) (v : Val) (r : Rnd) (sat : Bool) : Nat :=
  match v with
  | .nan => f.nanBits
  | .inf neg => if f.top = 0 then signBit f neg + f.maxExp * 2 ^ f.fbits else f.nanBits
  | .fin neg m e =>
    if m = 0 then signBit f neg
    else
      let q := max (e + Nat.log2 m - f.fbits) (1 - (f.bias : Int) - f.fbits)
      let n := roundUnits m e q r
      if gtUnits n q f.maxFin.1 f.maxFin.2 then
        (if f.top = 0 ∧ sat = false then signBit f neg + f.maxExp * 2 ^ f.fbits else f.maxBits neg)
      else f.pack neg n q

/-- Two's complement of n bits. -/
def twos (n : Nat) (x : Int) : Nat := (x % (2 ^ n : Int)).toNat

/-- A value in an integer format (07 Table 7-5): rounded, then clamped; NaN becomes 0. An MX INT8 element is clamped
to its largest finite magnitude. -/
def encodeInt (n frac : Nat) (v : Val) (r : Rnd) : Nat :=
  let hi : Int := 2 ^ (n - 1) - 1
  let lo : Int := if frac = 0 then -(2 ^ (n - 1)) else -hi
  match v with
  | .nan => 0
  | .inf neg => twos n (if neg then lo else hi)
  | .fin neg m e =>
    let k := roundUnits m e (-(frac : Int)) r
    let x : Int := if neg then -(k : Int) else k
    twos n (max lo (min hi x))

def encodeEl (f : ElFmt) (v : Val) (r : Rnd) (sat : Bool) : Nat :=
  match f with
  | .fp f => f.encode v r sat
  | .int n frac => encodeInt n frac v r

/-- The draw u of stochastic rounding (07 R269). -/
def srDraw (seed k i : Nat) : Nat :=
  let w := ((seed ^^^ (2 ^ 28 * k)) + 0x9E3779B9 * i) % 2 ^ 32
  let w := w ^^^ (w / 2 ^ 16)
  let w := 0x7FEB352D * w % 2 ^ 32
  let w := w ^^^ (w / 2 ^ 15)
  let w := 0x846CA68B * w % 2 ^ 32
  let w := w ^^^ (w / 2 ^ 16)
  w / 2 ^ 16

/-! ### Exact operations (07 R263, R267) -/

def vneg (v : Val) : Val :=
  match v with
  | .nan => .nan
  | .inf n => .inf (!n)
  | .fin n m e => .fin (!n) m e

def sgn (neg : Bool) (m : Nat) : Int := if neg then -(m : Int) else m

def vadd (a b : Val) : Val :=
  match a, b with
  | .nan, _ => .nan
  | _, .nan => .nan
  | .inf x, .inf y => if x = y then .inf x else .nan
  | .inf x, _ => .inf x
  | _, .inf y => .inf y
  | .fin x m e, .fin y n f =>
    let q := min e f
    let s := sgn x m * 2 ^ (e - q).toNat + sgn y n * 2 ^ (f - q).toNat
    .fin (if s = 0 then x && y else decide (s < 0)) s.natAbs q

def vmul (a b : Val) : Val :=
  match a, b with
  | .nan, _ => .nan
  | _, .nan => .nan
  | .inf x, .inf y => .inf (x != y)
  | .inf x, .fin y n _ => if n = 0 then .nan else .inf (x != y)
  | .fin x m _, .inf y => if m = 0 then .nan else .inf (x != y)
  | .fin x m e, .fin y n f => .fin (x != y) (m * n) (e + f)

/-- A quotient with enough bits for any format and a sticky last bit: it rounds as the exact quotient does. -/
def vdiv (a b : Val) : Val :=
  match a, b with
  | .nan, _ => .nan
  | _, .nan => .nan
  | .inf _, .inf _ => .nan
  | .inf x, .fin y _ _ => .inf (x != y)
  | .fin x _ _, .inf y => .fin (x != y) 0 0
  | .fin x m e, .fin y n f =>
    if n = 0 then (if m = 0 then .nan else .inf (x != y))
    else
      let k := 130 + Nat.log2 n - min (Nat.log2 m) (Nat.log2 n)
      let q := m * 2 ^ k / n
      let sticky := if m * 2 ^ k % n = 0 then 0 else 1
      .fin (x != y) (2 * q + sticky) (e - f - k - 1)

/-- Integer square root by bits from the top. -/
def isqrtBits (n bits acc : Nat) : Nat :=
  match bits with
  | 0 => acc
  | k + 1 =>
    let t := acc + 2 ^ k
    isqrtBits n k (if t * t ≤ n then t else acc)

def isqrt (n : Nat) : Nat := isqrtBits n (Nat.log2 n / 2 + 1) 0

def vsqrt (a : Val) : Val :=
  match a with
  | .nan => .nan
  | .inf false => .inf false
  | .inf true => .nan
  | .fin x m e =>
    if m = 0 then .fin x 0 0
    else if x then .nan
    else
      let odd := (e % 2).toNat
      let n := m * 2 ^ (odd + 260)
      let s := isqrt n
      .fin false (2 * s + (if s * s = n then 0 else 1)) ((e - odd - 260) / 2 - 1)

/-- Whether a < b for numbers; -0 below +0 (IEEE 754-2019 minimum and maximum). -/
def vlt (a b : Val) : Bool :=
  match a, b with
  | .nan, _ => false
  | _, .nan => false
  | .inf x, .inf y => x && !y
  | .inf x, _ => x
  | _, .inf y => !y
  | .fin x m e, .fin y n f =>
    let q := min e f
    let s := sgn x m * 2 ^ (e - q).toNat
    let t := sgn y n * 2 ^ (f - q).toNat
    if s = t then s == 0 && x && !y else decide (s < t)

def vmax (a b : Val) : Val := if a = .nan ∨ b = .nan then .nan else if vlt a b then b else a
def vmin (a b : Val) : Val := if a = .nan ∨ b = .nan then .nan else if vlt b a then b else a
def vabs (a : Val) : Val := match a with | .fin _ m e => .fin false m e | .inf _ => .inf false | .nan => .nan

/-- A value rounded to a format and read back: one rounding to nearest even. -/
def rnd (f : ElFmt) (v : Val) : Val :=
  match f with
  | .fp f => f.decode (f.encode v .nearest false)
  | .int n frac =>
    -- an INT32 accumulator wraps (07 R265)
    match v with
    | .fin neg m e => decodeEl (.int n frac) (twos n (sgn neg (roundUnits m e (-(frac : Int)) .nearest)))
    | _ => decodeEl (.int n frac) (encodeInt n frac v .nearest)

/-- Add a product or addend into an accumulator: one rounding to nearest even (07 R263). -/
def accAdd (f : ElFmt) (acc x : Val) : Val := rnd f (vadd acc x)

def vzero : Val := .fin false 0 0

/-- 2^k. -/
def vpow2 (k : Int) : Val := .fin false 1 k

/-! ### Addends of SCATTER_ADD (08 R329) -/

/-- An exact value as the operand of a read-modify-write: its sign in bit 0, its kind in bits 2-1 (0 finite, 1 infinite,
2 NaN), its exponent plus 2^28 in bits 31-3, its magnitude above them. -/
def valToNat (v : Val) : Nat :=
  match v with
  | .nan => 4
  | .inf n => 2 + (if n then 1 else 0)
  | .fin n m e => (if n then 1 else 0) + (e + 2 ^ 28).toNat % 2 ^ 29 * 8 + 2 ^ 32 * m

def natToVal (x : Nat) : Val :=
  if bitsOf x 2 1 = 0 then .fin (bitAt x 0) (x / 2 ^ 32) ((bitsOf x 31 3 : Int) - 2 ^ 28)
  else if bitsOf x 2 1 = 1 then .inf (bitAt x 0) else .nan

/-- An element after an addend: one rounding to nearest even in its format (R329). -/
def addInFmt (fmt old x : Nat) : Nat :=
  match elFmt fmt with
  | some f => encodeEl f (vadd (decodeEl f old) (natToVal x)) .nearest false
  | none => old

/-! ### MX blocks (07 R259-R262) -/

/-- The value of an MX element with its scale byte. -/
def mxValue (code s b : Nat) : Val :=
  if s = 0xFF then .nan
  else match elFmt code with
    | some f => vmul (vpow2 ((s : Int) - 127)) (decodeEl f b)
    | none => .nan

/-- floor(log2 |v|) of a finite value that is not zero. -/
def vlog2 (v : Val) : Int := match v with | .fin _ m e => e + Nat.log2 m | _ => 0

/-- The scale of a block of values (07 R262). -/
def mxScale (code : Nat) (vs : List Val) : Nat :=
  if vs.any (fun v => match v with | .fin _ _ _ => false | _ => true) then 0xFF
  else
    let amax := vs.foldl (fun a v => if vlt a (vabs v) then vabs v else a) vzero
    match amax with
    | .fin _ 0 _ => 127
    | v => (max 0 (min 254 (vlog2 v - mxEmax code + 127))).toNat

/-- The element codes of a block under a scale; all zero under 0xFF. -/
def mxEncode (code s : Nat) (vs : List (Val × Rnd)) : List Nat :=
  match elFmt code with
  | none => []
  | some f => vs.map (fun x => if s = 0xFF then 0 else encodeEl f (vmul (vpow2 (127 - (s : Int))) x.1) x.2 true)

end Sys2Proof.Machine
end

