-- ==== Sys2Proof/Machine/RegMap.lean ====
section
/-! DEFINITION. The setup register map (19 Table 19-1, Table 19-4): the address of every register, and for every
register word its RW and RWL bits and its reset value. Bits in neither are read-only, write-only or reserved. -/

namespace Sys2Proof.Machine

/-- One register word: masks of its RW and RWL fields (00 Table 0-3), and its reset value. -/
structure RegLay where
  rw : Nat
  rwl : Nat
  reset : Nat
  deriving DecidableEq, Repr

/-- A block of the management space: base, instances, stride, registers in offset order (19 R688). -/
structure RegBlock where
  base : Nat
  count : Nat
  stride : Nat
  regs : List RegLay
  deriving DecidableEq, Repr

def aMeridianCtl : Nat := 0x0
def aMeridianStatus : Nat := 0x4
def aMeridianEffectiveFrame : Nat := 0x8
def aMeridianSnapInterval : Nat := 0x10
def aMeridianSnapSlots : Nat := 0x14
def aMeridianSnapBase : Nat := 0x18
def aMeridianSnapSkipped : Nat := 0x20
def aMeridianSyncAccepted : Nat := 0x24
def aMeridianSyncIgnored : Nat := 0x28
def aMeridianSlewFrames : Nat := 0x2C
def aCadastreCtl : Nat := 0x100
def aCadastreStageBase : Nat := 0x104
def aCadastreEffectiveFrame : Nat := 0x10C
def aCadastreStatus : Nat := 0x114
def aMemmapCtl : Nat := 0x200
def aMemmapStatus : Nat := 0x204
def aMemmapTractXor (k : Nat) : Nat := 0x208 + 0x8 * k
def aProtectOpCtl : Nat := 0x300
def aProtectStatus : Nat := 0x304
def aProtectSlotStatus (k : Nat) : Nat := 0x308 + 0xC * k
def aProtectSlotMark (k : Nat) : Nat := 0x30C + 0xC * k
def aCoherenceGrace : Nat := 0x400
def aCoherenceSnoopTimeout : Nat := 0x404
def aPeerCtl : Nat := 0x500
def aMashCtl : Nat := 0x600
def aXlatCtxBase : Nat := 0x700
def aXlatCtxCmd : Nat := 0x708
def aXlatStatus : Nat := 0x70C
def aXlatFaultWait : Nat := 0x710
def aSyncCtxCmd : Nat := 0x800
def aSyncSaveBase : Nat := 0x804
def aSyncSaveLen : Nat := 0x80C
def aSyncSaveCount : Nat := 0x810
def aSyncStatus : Nat := 0x814
def aSyncRun : Nat := 0x818
def aQosCtl : Nat := 0x900
def aQosCapacity : Nat := 0x904
def aQosStatus : Nat := 0x908
def aQosGlobal : Nat := 0x90C
def aQosSlotMapBase : Nat := 0x914
def aDaothCtl : Nat := 0xA00
def aFaultFwCtl : Nat := 0xB00
def aFaultFwBase : Nat := 0xB04
def aFaultFwHead : Nat := 0xB0C
def aFaultFwTail : Nat := 0xB10
def aFaultStatus : Nat := 0xB14
def aFaultDrop (k : Nat) : Nat := 0xB18 + 0x4 * k
def aKilnCtl : Nat := 0xC00
def aKilnCoolant : Nat := 0xC04
def aKilnLimits : Nat := 0xC08
def aKilnBgCap : Nat := 0xC0C
def aKilnStatic : Nat := 0xC10
def aKilnWeight (k : Nat) : Nat := 0xC14 + 0x4 * k
def aKilnStatus : Nat := 0xC54
def aKilnBudget : Nat := 0xC58
def aKilnMeasured : Nat := 0xC5C
def aKilnTemp : Nat := 0xC60
def aKilnInputEnergy : Nat := 0xC64
def aKilnDeviceEnergy : Nat := 0xC6C
def aKilnCutFrames (k : Nat) : Nat := 0xC74 + 0x4 * (k - 1)
def aKilnOverFrames : Nat := 0xC84
def aSpargeZeroCtl : Nat := 0xD00
def aSpargeZeroParcel : Nat := 0xD04
def aSpargeStatus : Nat := 0xD08
def aSpargeZeroMark : Nat := 0xD0C
def aSpargePatrol : Nat := 0xD10
def aSpargeInitMark (k : Nat) : Nat := 0xD14 + 0x4 * k
def aDramRecentre : Nat := 0xE00
def aVorirLaneLimit : Nat := 0xE80
def aSheetMoveCtl : Nat := 0xF00
def aSheetMoveParcel : Nat := 0xF04
def aSheetMovePlot : Nat := 0xF08
def aSheetMoveTarget : Nat := 0xF0C
def aSheetMoveStatus : Nat := 0xF14
def aResetBlockCtl : Nat := 0xF80
def aResetStatus : Nat := 0xF84
def aResetWarm : Nat := 0xF88
def aResetGlitches : Nat := 0xF8C
def aDatumBackup (k : Nat) : Nat := 0x1000 + 0x4 * k
def aDatumSwreset : Nat := 0x1040
def aDatumWdt : Nat := 0x1044
def aGazCtl (n : Nat) : Nat := 0x2000 + 0x100 * n
def aGazStatus (n : Nat) : Nat := 0x2004 + 0x100 * n
def aGazProbe (n : Nat) : Nat := 0x2008 + 0x100 * n
def aGazProbeData (n k : Nat) : Nat := 0x200C + 0x100 * n + 0x4 * k
def aSyncDieViewCtl (n : Nat) : Nat := 0x2400 + 0x100 * n
def aSyncDieViewObj (n : Nat) : Nat := 0x2404 + 0x100 * n
def aSyncDieViewBuf (n : Nat) : Nat := 0x240C + 0x100 * n
def aSyncDieViewStatus (n : Nat) : Nat := 0x2414 + 0x100 * n
def aTractGeometry (n : Nat) : Nat := 0x3000 + 0x40 * n
def aTractXorSub (n : Nat) : Nat := 0x3004 + 0x40 * n
def aTractXorBg (n k : Nat) : Nat := 0x300C + 0x40 * n + 0x8 * k
def aTractXorBank (n k : Nat) : Nat := 0x3024 + 0x40 * n + 0x8 * k
def aQosPartTracts (n : Nat) : Nat := 0x3400 + 0x20 * n
def aQosPartNcWays (n : Nat) : Nat := 0x3404 + 0x20 * n
def aQosPartDirWays (n : Nat) : Nat := 0x3408 + 0x20 * n
def aQosPartXlatWays (n : Nat) : Nat := 0x340C + 0x20 * n
def aQosPartTuns (n : Nat) : Nat := 0x3410 + 0x20 * n
def aQosPartEnergy (n : Nat) : Nat := 0x3414 + 0x20 * n
def aDaothPortCtl (n : Nat) : Nat := 0x3800 + 0x20 * n
def aDaothPortStatus (n : Nat) : Nat := 0x3804 + 0x20 * n
def aDaothPortCrcErr (n : Nat) : Nat := 0x3808 + 0x20 * n
def aDaothPortReplays (n : Nat) : Nat := 0x380C + 0x20 * n
def aDaothPortDups (n : Nat) : Nat := 0x3810 + 0x20 * n
def aDaothPortDelay (n : Nat) : Nat := 0x3814 + 0x20 * n
def aTunRoleCtl (n : Nat) : Nat := 0x4000 + 0x20 * n
def aTunRole (n : Nat) : Nat := 0x4004 + 0x20 * n
def aTunStatus (n : Nat) : Nat := 0x4008 + 0x20 * n
def aTunCoreMap (n : Nat) : Nat := 0x400C + 0x20 * n
def aTunStaleCount (n : Nat) : Nat := 0x4010 + 0x20 * n
def aQosHostCtl (n : Nat) : Nat := 0x5000 + 0x10 * n
def aQosHostMin (n : Nat) : Nat := 0x5004 + 0x10 * n
def aQosHostMax (n : Nat) : Nat := 0x5008 + 0x10 * n
def aQosHostQueue (n : Nat) : Nat := 0x500C + 0x10 * n
def aKilnHostEnergy (n : Nat) : Nat := 0x5800 + 0x8 * n
def aPortCtl (n : Nat) : Nat := 0x6000 + 0x10 * n
def aPortStatus (n : Nat) : Nat := 0x6004 + 0x10 * n
def aPortLdCtl (n k : Nat) : Nat := 0x6008 + 0x10 * n + 0x4 * k
def aWindowCtl (n : Nat) : Nat := 0x8000 + 0x20 * n
def aWindowLines (n : Nat) : Nat := 0x8004 + 0x20 * n
def aWindowExpect (n : Nat) : Nat := 0x8008 + 0x20 * n
def aWindowBarrier (n : Nat) : Nat := 0x800C + 0x20 * n
def aWindowBarrierOffset (n : Nat) : Nat := 0x8010 + 0x20 * n
def aWindowStatus (n : Nat) : Nat := 0x8018 + 0x20 * n
def aWindowRearmIgnored (n : Nat) : Nat := 0x801C + 0x20 * n
def aChannelSvc (n : Nat) : Nat := 0x10000 + 0x80 * n
def aChannelSvcReason (n : Nat) : Nat := 0x10004 + 0x80 * n
def aChannelRebuildBase (n : Nat) : Nat := 0x10008 + 0x80 * n
def aChannelRebuildCount (n : Nat) : Nat := 0x10010 + 0x80 * n
def aChannelRebuildMark (n : Nat) : Nat := 0x10014 + 0x80 * n
def aChannelSched (n : Nat) : Nat := 0x1001C + 0x80 * n
def aChannelTrainStatus (n : Nat) : Nat := 0x10020 + 0x80 * n
def aChannelErrWindow (n : Nat) : Nat := 0x10024 + 0x80 * n
def aChannelErrCfg (n : Nat) : Nat := 0x10028 + 0x80 * n
def aChannelCeCount (n : Nat) : Nat := 0x1002C + 0x80 * n
def aChannelUeCount (n : Nat) : Nat := 0x10030 + 0x80 * n
def aChannelAlertCount (n : Nat) : Nat := 0x10034 + 0x80 * n
def aChannelRfmUnplanned (n : Nat) : Nat := 0x10038 + 0x80 * n
def aChannelPprCtl (n : Nat) : Nat := 0x1003C + 0x80 * n
def aChannelPprStatus (n : Nat) : Nat := 0x10040 + 0x80 * n
def aChannelBankMask (n k : Nat) : Nat := 0x10044 + 0x80 * n + 0x4 * k
def aRingCtl (n : Nat) : Nat := 0x20000 + 0x40 * n
def aRingDqParcel (n : Nat) : Nat := 0x20004 + 0x40 * n
def aRingCqParcel (n : Nat) : Nat := 0x20008 + 0x40 * n
def aRingDqOffset (n : Nat) : Nat := 0x2000C + 0x40 * n
def aRingCqOffset (n : Nat) : Nat := 0x20014 + 0x40 * n
def aRingLimit (n : Nat) : Nat := 0x2001C + 0x40 * n
def aRingStatus (n : Nat) : Nat := 0x20020 + 0x40 * n
def aKilnCtxEnergy (n : Nat) : Nat := 0x40000 + 0x8 * n

def meridianBlock : RegBlock := ⟨0x0, 1, 0x100, [
  ⟨0xF0000FF, 0x0, 0x10⟩, ⟨0x0, 0x0, 0x100000⟩, ⟨0xFFFFFFFF, 0x0, 0x0⟩, ⟨0xFFFF, 0x0, 0x0⟩,
  ⟨0x1FF, 0x0, 0x0⟩, ⟨0xFFFF, 0x0, 0x0⟩, ⟨0xFFFFFFFF, 0x0, 0x0⟩, ⟨0xFFFF, 0x0, 0x0⟩,
  ⟨0x0, 0x0, 0x0⟩, ⟨0x0, 0x0, 0x0⟩, ⟨0x0, 0x0, 0x0⟩, ⟨0x0, 0x0, 0x0⟩]⟩
def cadastreBlock : RegBlock := ⟨0x100, 1, 0x100, [
  ⟨0x1FF, 0x0, 0x0⟩, ⟨0xFFFFFFFF, 0x0, 0x0⟩, ⟨0xFFFF, 0x0, 0x0⟩, ⟨0xFFFFFFFF, 0x0, 0x0⟩,
  ⟨0xFFFF, 0x0, 0x0⟩, ⟨0x0, 0x0, 0x0⟩]⟩
def memmapBlock : RegBlock := ⟨0x200, 1, 0x100, [
  ⟨0x80000000, 0x0, 0x0⟩, ⟨0x0, 0x0, 0x0⟩, ⟨0x0, 0xFFFFFFFF, 0x0⟩, ⟨0x0, 0xFFFF, 0x0⟩,
  ⟨0x0, 0xFFFFFFFF, 0x0⟩, ⟨0x0, 0xFFFF, 0x0⟩, ⟨0x0, 0xFFFFFFFF, 0x0⟩, ⟨0x0, 0xFFFF, 0x0⟩]⟩
def protectBlock : RegBlock := ⟨0x300, 1, 0x100, [
  ⟨0x6003FFFF, 0x0, 0x0⟩, ⟨0x0, 0x0, 0x0⟩, ⟨0x0, 0x0, 0x0⟩, ⟨0x0, 0x0, 0x0⟩,
  ⟨0x0, 0x0, 0x0⟩, ⟨0x0, 0x0, 0x0⟩, ⟨0x0, 0x0, 0x0⟩, ⟨0x0, 0x0, 0x0⟩,
  ⟨0x0, 0x0, 0x0⟩, ⟨0x0, 0x0, 0x0⟩, ⟨0x0, 0x0, 0x0⟩]⟩
def coherenceBlock : RegBlock := ⟨0x400, 1, 0x100, [
  ⟨0xFFFF, 0x0, 0x64⟩, ⟨0xFFFF, 0x0, 0x3E8⟩]⟩
def peerBlock : RegBlock := ⟨0x500, 1, 0x100, [
  ⟨0x1FFFF, 0x0, 0x103E8⟩]⟩
def mashBlock : RegBlock := ⟨0x600, 1, 0x100, [
  ⟨0x3F, 0x0, 0x17⟩]⟩
def xlatBlock : RegBlock := ⟨0x700, 1, 0x100, [
  ⟨0xFFFFFFFF, 0x0, 0x0⟩, ⟨0xFFFF, 0x0, 0x0⟩, ⟨0xC000FFF, 0x0, 0x0⟩, ⟨0x0, 0x0, 0x0⟩,
  ⟨0xFFFFFF, 0x0, 0x1E848⟩]⟩
def syncBlock : RegBlock := ⟨0x800, 1, 0x100, [
  ⟨0xC000FFF, 0x0, 0x0⟩, ⟨0xFFFFFFFF, 0x0, 0x0⟩, ⟨0xFFFF, 0x0, 0x0⟩, ⟨0x1FFFF, 0x0, 0x0⟩,
  ⟨0x0, 0x0, 0x0⟩, ⟨0x0, 0x0, 0x0⟩, ⟨0x0, 0x0, 0x0⟩]⟩
def qosBlock : RegBlock := ⟨0x900, 1, 0x100, [
  ⟨0x10000, 0x0, 0x0⟩, ⟨0xFFFFFF, 0x0, 0xD9800⟩, ⟨0x0, 0x0, 0x0⟩, ⟨0x0, 0x0, 0x0⟩,
  ⟨0x0, 0x0, 0x0⟩, ⟨0xFFFFFFFF, 0x0, 0x0⟩, ⟨0xFFFF, 0x0, 0x0⟩]⟩
def daothBlock : RegBlock := ⟨0xA00, 1, 0x100, [
  ⟨0x3FF, 0xF0000, 0xA⟩]⟩
def faultBlock : RegBlock := ⟨0xB00, 1, 0x100, [
  ⟨0x80000000, 0x1F, 0xC⟩, ⟨0x0, 0xFFFFFFFF, 0x0⟩, ⟨0x0, 0xFFFF, 0x0⟩, ⟨0xFFFFFFFF, 0x0, 0x0⟩,
  ⟨0x0, 0x0, 0x0⟩, ⟨0x0, 0x0, 0x0⟩, ⟨0x0, 0x0, 0x0⟩, ⟨0x0, 0x0, 0x0⟩,
  ⟨0x0, 0x0, 0x0⟩, ⟨0x0, 0x0, 0x0⟩, ⟨0x0, 0x0, 0x0⟩, ⟨0x0, 0x0, 0x0⟩,
  ⟨0x0, 0x0, 0x0⟩, ⟨0x0, 0x0, 0x0⟩]⟩
def kilnBlock : RegBlock := ⟨0xC00, 1, 0x100, [
  ⟨0x7FFF00, 0x0, 0x145F00⟩, ⟨0xFFFF, 0x0, 0x828⟩, ⟨0xFFFFFFFF, 0x0, 0x1F4060E⟩, ⟨0xFFFF, 0x0, 0x28⟩,
  ⟨0xFFFF, 0x0, 0x0⟩, ⟨0xFFFFFF, 0x0, 0x0⟩, ⟨0xFFFFFF, 0x0, 0x0⟩, ⟨0xFFFFFF, 0x0, 0x0⟩,
  ⟨0xFFFFFF, 0x0, 0x0⟩, ⟨0xFFFFFF, 0x0, 0x0⟩, ⟨0xFFFFFF, 0x0, 0x0⟩, ⟨0xFFFFFF, 0x0, 0x0⟩,
  ⟨0xFFFFFF, 0x0, 0x0⟩, ⟨0xFFFFFF, 0x0, 0x0⟩, ⟨0xFFFFFF, 0x0, 0x0⟩, ⟨0xFFFFFF, 0x0, 0x0⟩,
  ⟨0xFFFFFF, 0x0, 0x0⟩, ⟨0xFFFFFF, 0x0, 0x0⟩, ⟨0xFFFFFF, 0x0, 0x0⟩, ⟨0xFFFFFF, 0x0, 0x0⟩,
  ⟨0xFFFFFF, 0x0, 0x0⟩, ⟨0x0, 0x0, 0x400000⟩, ⟨0x0, 0x0, 0x0⟩, ⟨0x0, 0x0, 0x0⟩,
  ⟨0x0, 0x0, 0x0⟩, ⟨0x0, 0x0, 0x0⟩, ⟨0x0, 0x0, 0x0⟩, ⟨0x0, 0x0, 0x0⟩,
  ⟨0x0, 0x0, 0x0⟩, ⟨0x0, 0x0, 0x0⟩, ⟨0x0, 0x0, 0x0⟩, ⟨0x0, 0x0, 0x0⟩,
  ⟨0x0, 0x0, 0x0⟩, ⟨0x0, 0x0, 0x0⟩]⟩
def spargeBlock : RegBlock := ⟨0xD00, 1, 0x100, [
  ⟨0xFFFF, 0x0, 0x28⟩, ⟨0xFFFF, 0x0, 0x0⟩, ⟨0x0, 0x0, 0x0⟩, ⟨0x0, 0x0, 0x0⟩,
  ⟨0x800000FF, 0x0, 0x18⟩, ⟨0x0, 0x0, 0x0⟩, ⟨0x0, 0x0, 0x0⟩, ⟨0x0, 0x0, 0x0⟩,
  ⟨0x0, 0x0, 0x0⟩, ⟨0x0, 0x0, 0x0⟩, ⟨0x0, 0x0, 0x0⟩, ⟨0x0, 0x0, 0x0⟩,
  ⟨0x0, 0x0, 0x0⟩]⟩
def dramBlock : RegBlock := ⟨0xE00, 1, 0x80, [
  ⟨0xFFFFFF, 0x0, 0x20000⟩]⟩
def vorirBlock : RegBlock := ⟨0xE80, 1, 0x80, [
  ⟨0xFFFF, 0x0, 0x40⟩]⟩
def sheetMoveBlock : RegBlock := ⟨0xF00, 1, 0x80, [
  ⟨0x100001FF, 0x0, 0x0⟩, ⟨0xFFFF, 0x0, 0x0⟩, ⟨0x3FFFFFF, 0x0, 0x0⟩, ⟨0xFFFFFFFF, 0x0, 0x0⟩,
  ⟨0x30F, 0x0, 0x0⟩, ⟨0x0, 0x0, 0x0⟩]⟩
def resetBlock : RegBlock := ⟨0xF80, 1, 0x80, [
  ⟨0x7800007F, 0x0, 0x0⟩, ⟨0x0, 0x0, 0x0⟩, ⟨0x0, 0x0, 0x0⟩, ⟨0x0, 0x0, 0x0⟩]⟩
def datumBlock : RegBlock := ⟨0x1000, 1, 0x1000, [
  ⟨0xFFFFFFFF, 0x0, 0x0⟩, ⟨0xFFFFFFFF, 0x0, 0x0⟩, ⟨0xFFFFFFFF, 0x0, 0x0⟩, ⟨0xFFFFFFFF, 0x0, 0x0⟩,
  ⟨0xFFFFFFFF, 0x0, 0x0⟩, ⟨0xFFFFFFFF, 0x0, 0x1⟩, ⟨0xFFFFFFFF, 0x0, 0x0⟩, ⟨0xFFFFFFFF, 0x0, 0x0⟩,
  ⟨0xFFFFFFFF, 0x0, 0x0⟩, ⟨0xFFFFFFFF, 0x0, 0x0⟩, ⟨0xFFFFFFFF, 0x0, 0x0⟩, ⟨0xFFFFFFFF, 0x0, 0x0⟩,
  ⟨0xFFFFFFFF, 0x0, 0x0⟩, ⟨0xFFFFFFFF, 0x0, 0x0⟩, ⟨0xFFFFFFFF, 0x0, 0x0⟩, ⟨0xFFFFFFFF, 0x0, 0x0⟩,
  ⟨0x0, 0x0, 0x0⟩, ⟨0xFFFF, 0x0, 0x3E8⟩]⟩
def gazBlock : RegBlock := ⟨0x2000, 2, 0x100, [
  ⟨0x80000000, 0x1FFFFF, 0x160000⟩, ⟨0x0, 0x0, 0x0⟩, ⟨0x3FFFFF, 0x0, 0x0⟩, ⟨0x0, 0x0, 0x0⟩,
  ⟨0x0, 0x0, 0x0⟩, ⟨0x0, 0x0, 0x0⟩]⟩
def syncDieBlock : RegBlock := ⟨0x2400, 2, 0x100, [
  ⟨0xFFFF, 0x0, 0x0⟩, ⟨0xFFFFFFFF, 0x0, 0x0⟩, ⟨0x3FF, 0x0, 0x0⟩, ⟨0xFFFFFFFF, 0x0, 0x0⟩,
  ⟨0xFFFF, 0x0, 0x0⟩, ⟨0x0, 0x0, 0x0⟩]⟩
def tractBlock : RegBlock := ⟨0x3000, 8, 0x40, [
  ⟨0x0, 0x0, 0x0⟩, ⟨0x0, 0xFFFFFFFF, 0x0⟩, ⟨0x0, 0xFFFF, 0x0⟩, ⟨0x0, 0xFFFFFFFF, 0x0⟩,
  ⟨0x0, 0xFFFF, 0x0⟩, ⟨0x0, 0xFFFFFFFF, 0x0⟩, ⟨0x0, 0xFFFF, 0x0⟩, ⟨0x0, 0xFFFFFFFF, 0x0⟩,
  ⟨0x0, 0xFFFF, 0x0⟩, ⟨0x0, 0xFFFFFFFF, 0x0⟩, ⟨0x0, 0xFFFF, 0x0⟩, ⟨0x0, 0xFFFFFFFF, 0x0⟩,
  ⟨0x0, 0xFFFF, 0x0⟩]⟩
def qosPartBlock : RegBlock := ⟨0x3400, 8, 0x20, [
  ⟨0xFF, 0x0, 0x0⟩, ⟨0xFFFF, 0x0, 0x0⟩, ⟨0xFFFF00FF, 0x0, 0x0⟩, ⟨0xFFFFFFFF, 0x0, 0x0⟩,
  ⟨0xFFFFFFFF, 0x0, 0x0⟩, ⟨0xFF, 0x0, 0x0⟩]⟩
def daothPortBlock : RegBlock := ⟨0x3800, 8, 0x20, [
  ⟨0xC0000000, 0x0, 0x0⟩, ⟨0x0, 0x0, 0x0⟩, ⟨0x0, 0x0, 0x0⟩, ⟨0x0, 0x0, 0x0⟩,
  ⟨0x0, 0x0, 0x0⟩, ⟨0x0, 0x0, 0x0⟩]⟩
def tunBlock : RegBlock := ⟨0x4000, 32, 0x20, [
  ⟨0x30000, 0x0, 0x10000⟩, ⟨0x0, 0x0, 0x1⟩, ⟨0x0, 0x0, 0x180000⟩, ⟨0x0, 0x1FF, 0x0⟩,
  ⟨0x0, 0x0, 0x0⟩]⟩
def qosHostBlock : RegBlock := ⟨0x5000, 64, 0x10, [
  ⟨0x7C03FFFF, 0x0, 0x10040⟩, ⟨0xFFFFFF, 0x0, 0x0⟩, ⟨0xFFFFFF, 0x0, 0xFFFFFF⟩, ⟨0x3FF, 0x0, 0x80⟩]⟩
def kilnHostBlock : RegBlock := ⟨0x5800, 64, 0x8, [
  ⟨0x0, 0x0, 0x0⟩, ⟨0x0, 0x0, 0x0⟩]⟩
def portBlock : RegBlock := ⟨0x6000, 32, 0x10, [
  ⟨0x80000000, 0xFE00000, 0xC00000⟩, ⟨0x0, 0x0, 0x0⟩, ⟨0x80000000, 0x0, 0x0⟩, ⟨0x80000000, 0x0, 0x0⟩]⟩
def windowBlock : RegBlock := ⟨0x8000, 256, 0x20, [
  ⟨0x80000000, 0xFF0FFFF, 0x1300000⟩, ⟨0x0, 0xFFFFFFF, 0x0⟩, ⟨0x0, 0xFFFF, 0x0⟩, ⟨0x0, 0x8000FFFF, 0x0⟩,
  ⟨0x0, 0xFFFFFFFF, 0x0⟩, ⟨0x0, 0xFFFFFFFF, 0x0⟩, ⟨0x0, 0x0, 0x0⟩, ⟨0x0, 0x0, 0x0⟩]⟩
def channelBlock : RegBlock := ⟨0x10000, 80, 0x80, [
  ⟨0xF000000, 0x0, 0x200⟩, ⟨0x0, 0x0, 0x0⟩, ⟨0xFFFFFFFF, 0x0, 0x0⟩, ⟨0xF, 0x0, 0x0⟩,
  ⟨0x1FFFF, 0x0, 0x0⟩, ⟨0x0, 0x0, 0x0⟩, ⟨0x0, 0x0, 0x0⟩, ⟨0xFFFFFF, 0x0, 0x103010⟩,
  ⟨0x0, 0x0, 0x0⟩, ⟨0xFFFFFF, 0x0, 0x1E848⟩, ⟨0xFFFFFFFF, 0x0, 0x88041000⟩, ⟨0x0, 0x0, 0x0⟩,
  ⟨0x0, 0x0, 0x0⟩, ⟨0x0, 0x0, 0x0⟩, ⟨0x0, 0x0, 0x0⟩, ⟨0x1FF1FFFF, 0x0, 0x0⟩,
  ⟨0x0, 0x0, 0x0⟩, ⟨0xFFFFFFFF, 0x0, 0x0⟩, ⟨0xFFFFFFFF, 0x0, 0x0⟩, ⟨0xFFFFFFFF, 0x0, 0x0⟩,
  ⟨0xFFFFFFFF, 0x0, 0x0⟩, ⟨0xFFFFFFFF, 0x0, 0x0⟩, ⟨0xFFFFFFFF, 0x0, 0x0⟩, ⟨0xFFFFFFFF, 0x0, 0x0⟩,
  ⟨0xFFFFFFFF, 0x0, 0x0⟩]⟩
def ringBlock : RegBlock := ⟨0x20000, 1024, 0x40, [
  ⟨0x80000000, 0xFFFFFFF, 0x6000400⟩, ⟨0x0, 0xFFFF, 0x0⟩, ⟨0x0, 0xFFFF, 0x0⟩, ⟨0x0, 0xFFFFFFFF, 0x0⟩,
  ⟨0x0, 0xFFFFFFFF, 0x0⟩, ⟨0x0, 0xFFFFFFFF, 0x0⟩, ⟨0x0, 0xFFFFFFFF, 0x0⟩, ⟨0x0, 0xFFFF, 0x0⟩,
  ⟨0x0, 0x0, 0x0⟩]⟩
def kilnCtxBlock : RegBlock := ⟨0x40000, 4096, 0x8, [
  ⟨0x0, 0x0, 0x0⟩, ⟨0x0, 0x0, 0x0⟩]⟩

/-- Every block of the management space. -/
def regBlocks : List RegBlock := [
  meridianBlock, cadastreBlock, memmapBlock, protectBlock, coherenceBlock,
  peerBlock, mashBlock, xlatBlock, syncBlock, qosBlock,
  daothBlock, faultBlock, kilnBlock, spargeBlock, dramBlock,
  vorirBlock, sheetMoveBlock, resetBlock, datumBlock, gazBlock,
  syncDieBlock, tractBlock, qosPartBlock, daothPortBlock, tunBlock,
  qosHostBlock, kilnHostBlock, portBlock, windowBlock, channelBlock,
  ringBlock, kilnCtxBlock]

/-- The register word at management address `a`, where one is assigned (19 R682). Each Tun block is numbered from its
own base; the reset roles of Tuns 15 and 31 are BACKGROUND (07 Table 7-12). -/
def regLayIn (bs : List RegBlock) (a : Nat) : Option RegLay :=
  match bs with
  | [] => none
  | b :: r =>
    if b.base ≤ a && decide (a < b.base + b.count * b.stride) then b.regs[(a - b.base) % b.stride / 4]?
    else regLayIn r a

def regLay (a : Nat) : Option RegLay := if a % 4 = 0 then regLayIn regBlocks a else none

def regReset (a : Nat) : Nat :=
  if a = aTunRoleCtl 15 ∨ a = aTunRoleCtl 31 then
    (match regLay a with | some l => putBits l.reset 17 16 2 | none => 0)
  else match regLay a with | some l => l.reset | none => 0

def hQosGrant : Nat := 0x0
def hQosCounted : Nat := 0x4
def hQosHeldFrames : Nat := 0x8
def hQosGlobal : Nat := 0x10
def hEnergy : Nat := 0x18
def hLatHwm (k : Nat) : Nat := 0x40 + 4 * k
def hLatClear (k : Nat) : Nat := 0x50 + 4 * k
def hLatHist (c i : Nat) : Nat := 0x80 + 0x40 * c + 4 * i
def hInvalCtl : Nat := 0x200
def hInvalBase : Nat := 0x204
def hInvalPages : Nat := 0x20C
def hInvalStatus : Nat := 0x210
def hFaultHostCtl : Nat := 0x300
def hFaultHostParcel : Nat := 0x304
def hFaultHostOffset : Nat := 0x308
def hFaultHostHead : Nat := 0x310
def hFaultHostTail : Nat := 0x314
def hFaultHostStatus : Nat := 0x318
def hFaultHostDrop (k : Nat) : Nat := 0x31C + 4 * k

/-- The host page of a logical device (19 Table 19-4): offset from 0x3_0000, layout. -/
def hostRegs : List (Nat × RegLay) := [
  (0x0, ⟨0x0, 0x0, 0x0⟩), (0x4, ⟨0x0, 0x0, 0x0⟩), (0x8, ⟨0x0, 0x0, 0x0⟩),
  (0x10, ⟨0x0, 0x0, 0x0⟩), (0x14, ⟨0x0, 0x0, 0x0⟩), (0x18, ⟨0x0, 0x0, 0x0⟩),
  (0x1C, ⟨0x0, 0x0, 0x0⟩), (0x40, ⟨0x0, 0x0, 0x0⟩), (0x44, ⟨0x0, 0x0, 0x0⟩),
  (0x48, ⟨0x0, 0x0, 0x0⟩), (0x4C, ⟨0x0, 0x0, 0x0⟩), (0x50, ⟨0x0, 0x0, 0x0⟩),
  (0x54, ⟨0x0, 0x0, 0x0⟩), (0x58, ⟨0x0, 0x0, 0x0⟩), (0x5C, ⟨0x0, 0x0, 0x0⟩),
  (0x200, ⟨0x3000FFF, 0x0, 0x0⟩), (0x204, ⟨0xFFFFF000, 0x0, 0x0⟩), (0x208, ⟨0xFFFFFFFF, 0x0, 0x0⟩),
  (0x20C, ⟨0xFFFFFFFF, 0x0, 0x0⟩), (0x210, ⟨0x0, 0x0, 0x1⟩), (0x300, ⟨0x80000000, 0x1F, 0x0⟩),
  (0x304, ⟨0x0, 0xFFFF, 0x0⟩), (0x308, ⟨0x0, 0xFFFFFFFF, 0x0⟩), (0x30C, ⟨0x0, 0xFFFFFFFF, 0x0⟩),
  (0x310, ⟨0xFFFFFFFF, 0x0, 0x0⟩), (0x314, ⟨0x0, 0x0, 0x0⟩), (0x318, ⟨0x0, 0x0, 0x0⟩),
  (0x31C, ⟨0x0, 0x0, 0x0⟩), (0x320, ⟨0x0, 0x0, 0x0⟩), (0x324, ⟨0x0, 0x0, 0x0⟩),
  (0x328, ⟨0x0, 0x0, 0x0⟩), (0x32C, ⟨0x0, 0x0, 0x0⟩), (0x330, ⟨0x0, 0x0, 0x0⟩),
  (0x334, ⟨0x0, 0x0, 0x0⟩), (0x338, ⟨0x0, 0x0, 0x0⟩)]

def hostLay (off : Nat) : Option RegLay :=
  if 0x80 ≤ off && decide (off < 0x180) && off % 4 == 0 then some ⟨0, 0, 0⟩ else mget hostRegs off

def hostReset (off : Nat) : Nat := match hostLay off with | some l => l.reset | none => 0

end Sys2Proof.Machine
end

