-- ==== Sys2Proof/Machine/Ops.lean ====
section
/-! DEFINITION. The named operations over registers, records, messages and free values. -/

namespace Sys2Proof.Machine

/-! ### Commands on traffic and commands on the whole -/

/-- The main domain runs: it has power and is not held in reset (18 Table 18-3 step 7, 20 R707). -/
def mainRuns (e : Env) : Bool := !(e.rst.phase == .off || e.rst.phase == .held)

/-- The pool runs: all of the main domain has power, as it has outside recovery mode (18 R674). -/
def poolRuns (e : Env) : Bool := mainRuns e && !(e.rst.phase == .recovery)

/-- A command that reads `Env` and changes `Work`: the clock, the security state and the queue stay as they are. It acts on
nothing while the pool does not run. -/
def traffic (s : State) (f : Env → Work → Work) : Host.Outcome State Fault Refusal :=
  .next { s with w := if poolRuns s.env then f s.env s.w else s.w }

/-- The same for a command of a block that recovery mode powers (18 R674). -/
def serve (s : State) (f : Env → Work → Work) : Host.Outcome State Fault Refusal :=
  .next { s with w := if mainRuns s.env then f s.env s.w else s.w }

/-- A command of the clock, of security or of a reset: the queue stays as it is. -/
def whole (s : State) (f : Env → Work → Env × Work) : Host.Outcome State Fault Refusal :=
  .next { s with env := (f s.env s.w).1, w := (f s.env s.w).2 }

/-! ### Registers -/

/-- A register word of the management space: its value, or its reset value where none is listed (19 R685). -/
def Work.reg (w : Work) (a : Nat) : Nat :=
  match mget w.regs a with
  | some v => v.toNat
  | none => regReset a

/-- Store a register word, keeping `regs` canonical: no entry equal to its reset value. -/
def Work.setReg (w : Work) (a v : Nat) : Work :=
  { w with regs := if v % 2 ^ 32 = regReset a then mdel w.regs a else mset w.regs a (BitVec.ofNat 32 v) }

/-- Field [hi:lo] of a register. -/
def Work.fld (w : Work) (a hi lo : Nat) : Nat := bitsOf (w.reg a) hi lo

def Work.setFld (w : Work) (a hi lo v : Nat) : Work := w.setReg a (putBits (w.reg a) hi lo v)

/-- Write the bits of a mask, leaving the others. -/
def Work.setMask (w : Work) (a m v : Nat) : Work := w.setReg a (w.reg a - (w.reg a &&& m) + (v &&& m))

/-- A value in two consecutive registers (19 R683). -/
def Work.reg2 (w : Work) (a : Nat) : Nat := w.reg a + 2 ^ 32 * w.reg (a + 4)

def Work.setReg2 (w : Work) (a v : Nat) : Work := (w.setReg a v).setReg (a + 4) (v / 2 ^ 32)

/-- A saturating 32-bit counter after `n` more events. -/
def Work.inc (w : Work) (a n : Nat) : Work := w.setReg a (satAdd 32 (w.reg a) n)

/-- The value in force of a staged register: the last one applied, or its reset value. -/
def Work.liv (w : Work) (a : Nat) : Nat :=
  match mget w.live a with
  | some v => v.toNat
  | none => regReset a

def Work.setLiv (w : Work) (a v : Nat) : Work :=
  { w with live := if v % 2 ^ 32 = regReset a then mdel w.live a else mset w.live a (BitVec.ofNat 32 v) }

def Work.livF (w : Work) (a hi lo : Nat) : Nat := bitsOf (w.liv a) hi lo

/-- The register word of the host page of agent `a` at offset `off`. -/
def Work.hreg (w : Work) (a off : Nat) : Nat :=
  match mget w.hregs (0x1000 * a + off) with
  | some v => v.toNat
  | none => hostReset off

def Work.setHreg (w : Work) (a off v : Nat) : Work :=
  { w with hregs := if v % 2 ^ 32 = hostReset off then mdel w.hregs (0x1000 * a + off)
      else mset w.hregs (0x1000 * a + off) (BitVec.ofNat 32 v) }

def Work.hfld (w : Work) (a off hi lo : Nat) : Nat := bitsOf (w.hreg a off) hi lo

def Work.setHfld (w : Work) (a off hi lo v : Nat) : Work := w.setHreg a off (putBits (w.hreg a off) hi lo v)

def Work.hreg2 (w : Work) (a off : Nat) : Nat := w.hreg a off + 2 ^ 32 * w.hreg a (off + 4)

def Work.setHreg2 (w : Work) (a off v : Nat) : Work :=
  (w.setHreg a off v).setHreg a (off + 4) (v / 2 ^ 32)

/-! ### Messages and free values -/

/-- A message leaves the device. -/
def Work.emit (w : Work) (o : Out) : Work := { w with out := o :: w.out }

/-- The next free value of `w`, and the state that has drawn it (log 9). -/
def Work.free (w : Work) : Nat × Work := (Config.freeNat w.ctr, { w with ctr := w.ctr + 1 })

/-- Queue a change for a boundary (19 R700). -/
def Work.queue (w : Work) (d : Due) : Work := { w with due := w.due ++ [d] }

/-! ### Triplicated words (15 R583) -/

/-- The voted value: the value of two equal copies, none without a majority. -/
def Tri.vote {α : Type} [DecidableEq α] (t : Tri α) : Option α :=
  if t.a = t.b then some t.a else if t.a = t.c then some t.a else if t.b = t.c then some t.b else none

/-- All three copies written at once. -/
def triOf (v : Nat) : Tri Word := ⟨BitVec.ofNat 32 v, BitVec.ofNat 32 v, BitVec.ofNat 32 v⟩

/-- The copies after a vote: the third copy rewritten where two are equal. -/
def Tri.repaired {α : Type} [DecidableEq α] (t : Tri α) : Tri α := match t.vote with | some v => ⟨v, v, v⟩ | none => t

/-- The value of backup word `k` (18 Table 18-5): its voted value, zero without a majority. -/
def Env.backupWord (e : Env) (k : Nat) : Nat :=
  match mget e.backup k with
  | some t => (match t.vote with | some v => v.toNat | none => 0)
  | none => regReset (aDatumBackup k)

def Env.setBackup (e : Env) (k v : Nat) : Env := { e with backup := mset e.backup k (triOf v) }

/-! ### Meridian configuration in force (02 R37, R52) -/

/-- The live configuration word; its reset value without a majority (15 Table 15-3). -/
def Env.merWord (e : Env) : Nat := match e.mer.live.vote with | some v => v.toNat | none => 0x10

/-- The period code, in units of 0.5 us. -/
def Env.periodCode (e : Env) : Nat := bitsOf e.merWord 7 0

/-- The frame period P in ps (02 R35). -/
def Env.period (e : Env) : Nat := 500000 * e.periodCode

def Env.syncMode (e : Env) : Nat := bitsOf e.merWord 27 26

def Env.srcDev (e : Env) : Nat := bitsOf e.merWord 25 24

/-- The pending commit; none without a majority of its copies. -/
def Env.merPending (e : Env) : Option MerPending := (e.mer.pending.vote).join

/-- The three copies of the pending commit written at once. -/
def Env.setMerPending (e : Env) (p : Option MerPending) : Env := { e with mer := { e.mer with pending := ⟨p, p, p⟩ } }

/-- Milliseconds and microseconds in ps. -/
def msPs (n : Nat) : Nat := 1000000000 * n
def usPs (n : Nat) : Nat := 1000000 * n

/-! ### The board (02 R721) -/

/-- Whether device `d` is present: this device, or a member that DAOTH.CTL.members names. -/
def present (e : Env) (w : Work) (d : Nat) : Bool := d == e.board || bitAt (w.fld aDaothCtl 19 16) d

/-- The devices present, in rising board number. -/
def presentDevs (e : Env) (w : Work) : List Nat := (List.range 4).filter (present e w)

/-- The device acting as the Meridian source (02 R52, R56, R721). -/
def meridianSource (e : Env) (w : Work) : Nat :=
  let d := e.clk.srcOverride.getD e.srcDev
  if present e w d then d else (presentDevs e w).headD e.board

/-- This device acts as the source: never while it has returned to a board and not yet learnt its source (R57), unless it
is alone. -/
def isSource (e : Env) (w : Work) : Bool :=
  meridianSource e w == e.board && (!e.clk.returned || (presentDevs e w).length == 1)

/-- The device that MERIDIAN.STATUS shows as the source (R721): for a device that has returned and not yet learnt its source, the
lowest of the others where the rules name itself (log 148). -/
def shownSource (e : Env) (w : Work) : Nat :=
  if meridianSource e w == e.board && !isSource e w then ((presentDevs e w).filter (· != e.board)).headD e.board
  else meridianSource e w

/-! ### Fault records (15 R591-R595) -/

/-- The class of a record type: bits [15:12]. -/
def FaultRec.cls (r : FaultRec) : Nat := r.ty / 0x1000

/-- The host ring that takes a copy of the record: the host named, when its ring is enabled. -/
def hostRing (w : Work) (r : FaultRec) : Option Nat :=
  match r.host with
  | some a => if w.hfld a hFaultHostCtl 31 31 = 1 then some a else none
  | none => none

/-- One more drop of class `k` in a list of eight counts. -/
def bumpAt (l : List Nat) (k : Nat) : List Nat :=
  match l, k with
  | [], _ => []
  | x :: r, 0 => (x + 1) :: r
  | x :: r, j + 1 => x :: bumpAt r j

/-- Count a drop in frame `f` in the host ring's drop counts (15 R599). -/
def dropHostCopy (f : Nat) (w : Work) (r : FaultRec) : Work :=
  match hostRing w r with
  | none => w
  | some a =>
    let w := w.setHreg a (hFaultHostDrop (r.cls - 1)) (satAdd 32 (w.hreg a (hFaultHostDrop (r.cls - 1))) 1)
    { w with flt := { w.flt with
        hostDrops := mmod w.flt.hostDrops a [0, 0, 0, 0, 0, 0, 0, 0] (fun l => bumpAt l (r.cls - 1))
        hostFirst := if mhas w.flt.hostFirst a then w.flt.hostFirst else mset w.flt.hostFirst a f } }

/-- Drop a record in frame `f` and count it (15 R593): FAULT.DROP of its class and the drops since the last OVERFLOW (R596). -/
def dropRec (f : Nat) (w : Work) (r : FaultRec) : Work :=
  let w := w.inc (aFaultDrop (r.cls - 1)) 1
  { w with flt := { w.flt with drops := bumpAt w.flt.drops (r.cls - 1)
                               firstDrop := (match w.flt.firstDrop with | some g => some g | none => some f) } }

/-- Same type, parcel, agent, unit and frame (15 R591). -/
def sameEvent (x r : FaultRec) : Bool :=
  x.ty == r.ty && x.parcel == r.parcel && x.dev == r.dev && x.agent == r.agent && x.unit == r.unit && x.frame == r.frame

/-- Two records that their raising rule coalesces (15 R591); POISON_CONSUMED by context too (15 Table 15-5). -/
def sameKey (x r : FaultRec) : Bool := x.coal && r.coal && sameEvent x r && (x.ty != 0x4006 || x.ctx == r.ctx)

/-- Merge a record into the one it coalesces with, if any. -/
def mergeRec (l : List FaultRec) (r : FaultRec) : Option (List FaultRec) :=
  match l with
  | [] => none
  | x :: t =>
    if sameKey x r then some ({ x with count := satAdd 32 x.count r.count } :: t)
    else match mergeRec t r with
      | some t' => some (x :: t')
      | none => none

/-- PARTITIONED mode in force (11 Table 11-2). -/
def partitioned (w : Work) : Bool := w.livF aQosCtl 16 16 == 1

/-- The partition of a host: QOS.HOST[a].CTL.part in force. -/
def partOf (w : Work) (a : Nat) : Nat := w.livF (aQosHostCtl a) 29 27

/-- The partitions with a tract (11 Table 11-6). -/
def liveParts (w : Work) : Nat := ((List.range 8).filter (fun p => w.livF (aQosPartTracts p) 7 0 != 0)).length

/-- A partition's share of `n` entries in PARTITIONED mode: equal parts among the partitions with a tract, the
remainder unused (11 Table 11-6). -/
def partShare (w : Work) (n : Nat) : Nat := n / max 1 (liveParts w)

/-- Whether the holding table has an entry for the record (15 R594): 56 for requests, 8 for device events; in
PARTITIONED mode a request takes only from its partition's share. -/
def holdRoom (w : Work) (l : List FaultRec) (r : FaultRec) : Bool :=
  if r.req then
    if partitioned w then
      match r.host with
      | some a => decide (((l.filter (fun x => x.req)).filter
          (fun x => match x.host with | some b => partOf w b == partOf w a | none => false)).length
          < partShare w 56)
      | none => decide ((l.filter (fun x => x.req)).length < 56)
    else decide ((l.filter (fun x => x.req)).length < 56)
  else decide ((l.filter (fun x => !x.req)).length < 8)

/-- The firmware ring enabled, its entry count, and whether it is full (15 R593). -/
def fwRingOn (w : Work) : Bool := w.fld aFaultFwCtl 31 31 == 1
def fwEntries (w : Work) : Nat := 2 ^ w.fld aFaultFwCtl 4 0
def fwFull (w : Work) : Bool :=
  (2 ^ 32 + w.reg aFaultFwTail - w.reg aFaultFwHead) % 2 ^ 32 == fwEntries w

/-- Put a record in the holding table, or drop it (15 R593, R595). -/
def holdRec (w : Work) (r : FaultRec) : Work :=
  if r.sev = 1 ∧ holdRoom w w.flt.hold r = true then { w with flt := { w.flt with hold := w.flt.hold ++ [{ r with owed := (hostRing w r).isSome }] } }
  else dropHostCopy r.frame (dropRec r.frame w r) r

/-- Raise a record in the current frame (15 R591, R593): merged, placed in the FIFO, or taken as R593 gives when
the FIFO of 256 records is full. -/
def raise (e : Env) (w : Work) (r : FaultRec) : Work :=
  let r := { r with frame := e.clk.frame }
  match mergeRec w.flt.fifo r with
  | some l => { w with flt := { w.flt with fifo := l } }
  | none =>
    if w.flt.fifo.length < 256 then { w with flt := { w.flt with fifo := w.flt.fifo ++ [r] } }
    else holdRec w r

/-- No entry is left for an actionable record of a tile (15 R595): the tile then completes with FAULT_BACKPRESSURE. -/
def noRoom (w : Work) (r : FaultRec) : Bool :=
  r.sev == 1 &&
  (if w.flt.fifo.length < 256 then
     fwRingOn w && fwFull w && !holdRoom w (w.flt.hold ++ w.flt.fifo.filter (fun x => x.sev == 1)) r
   else !holdRoom w w.flt.hold r)

/-! ### Energy (16 R605) -/

def acctCtx (c : Nat) : Nat := 0x1000 + c
def acctBg : Nat := 0x2000
/-- The part of a context's account that a descriptor's completion record reports (16 R620). -/
def acctDesc (c ring n : Nat) : Nat := 2 ^ 20 + c + 4096 * (2 ^ 32 * ring + n)
/-- The context of a descriptor (08 Table 8-4). -/
def dCtx (x : Nat) : Nat := bitsOf x 43 32

/-- The context of an account. -/
def acctCtxOf (a : Nat) : Option Nat :=
  if 0x1000 ≤ a ∧ a < 0x2000 then some (a - 0x1000) else if 2 ^ 20 ≤ a then some ((a - 2 ^ 20) % 4096) else none
def acctDev : Nat := 0x2001

/-- Charge `n` events of class `ev` at the weight in force to an account; the device account takes what is left. -/
def charge (w : Work) (acct ev n : Nat) : Work :=
  if acct = acctDev then w
  else { w with kiln := { w.kiln with
      charged := mmod w.kiln.charged acct 0 (fun x => x + n * bitsOf (w.liv (aKilnWeight ev)) 23 0) } }

/-! ### Hosts and devices -/

/-- A holder field (05 Table 5-2): device in [7:6], agent in [5:0]. -/
def holderOf (dev agent : Nat) : Nat := dev * 64 + agent

def Work.host (w : Work) (dev agent : Nat) : HostSt := mgetD w.home.hosts (holderOf dev agent) {}

def Work.setHost (w : Work) (dev agent : Nat) (h : HostSt) : Work :=
  { w with home := { w.home with hosts := mset w.home.hosts (holderOf dev agent) h } }

def isAbsent (w : Work) (d : Nat) : Bool := w.home.absent.any (fun x => x.1 == d)

def isLost (w : Work) (d : Nat) : Bool := w.home.lost.contains d

/-- Every request that this device has accepted and not completed (03 R92): open, retried, forwarded, held, or waiting for
a directory way. -/
def allReqs (w : Work) : List Req :=
  w.home.txns.map (·.req) ++ w.home.txns.filterMap (·.next) ++ w.home.waiting ++ w.home.forwarded.map (·.2) ++
  w.home.held ++ w.home.ready ++ w.home.queued.map (·.2)

/-- Requests of a host of this device that its port has accepted and not completed. -/
def hostReqs (e : Env) (w : Work) (a : Nat) : List Req :=
  (allReqs w).filter (fun r => r.dev == e.board && r.agent == a && r.ans != .mute)

/-- DevLoad of a response to host `a` (11 Table 11-4). -/
def devLoad (e : Env) (w : Work) (a : Nat) : Nat :=
  let n := (hostReqs e w a).length
  let q := max 1 (w.livF (aQosHostQueue a) 9 0)
  if w.qos.held.contains a then 3 else if 4 * n ≥ 3 * q then 2 else if 4 * n ≥ q then 1 else 0

/-- The histogram bucket of a latency in ns (11 R455). -/
def latBucket (ns : Nat) : Nat := if ns < 128 then 0 else min 15 (Nat.log2 ns - 6)

/-- Count a host read of class `c` (11 R454, R455): from its acceptance to its response. -/
def noteLatency (e : Env) (w : Work) (a c born : Nat) : Work :=
  let ns := (e.clk.now - born) / 1000
  let w := { w with qos := { w.qos with ivHwm := mmod w.qos.ivHwm (4 * a + c) 0 (max · ns)
                                        ivHist := mmod w.qos.ivHist (64 * a + 16 * c + latBucket ns) 0 (· + 1) } }
  let w := w.setHreg a (hLatHwm c) (max (w.hreg a (hLatHwm c)) (min ns (2 ^ 32 - 1)))
  w.setHreg a (hLatHist c (latBucket ns)) (satAdd 32 (w.hreg a (hLatHist c (latBucket ns))) 1)

/-- A data response to a host. -/
def emitData (e : Env) (w : Work) (a tag : Nat) (c : HostCmp) (d : Payload) : Work :=
  w.emit (.hostData a tag c d (devLoad e w a))

/-- A completion to a host, or an error completion. -/
def emitCmp (e : Env) (w : Work) (a tag : Nat) (err : Bool) : Work := w.emit (.hostCmp a tag err (devLoad e w a))

/-- A block is under reset (18 R679): kind 1 Tun, 2 port, 3 tract, 4 channel, 5 Daoth link. -/
def blockHeld (w : Work) (kind inst : Nat) : Bool := w.blocks.any (fun b => b.kind == kind && b.inst == inst && b.since.isSome)

/-- A debug scope (17 Table 17-10) that an open session grants. -/
def debugScope (e : Env) (b : Nat) : Bool := e.sec.debugs.any (fun x => bitAt x.2.scopes b && decide (e.clk.now < x.2.expires))

/-- The earliest boundary at or after instant `t`, by the schedule in force (log 2). -/
def boundaryAt (e : Env) (t : Nat) : Nat :=
  if t ≤ e.clk.next then e.clk.next
  else e.clk.next + (t - e.clk.next + e.period - 1) / e.period * e.period

end Sys2Proof.Machine
end

