-- ==== Sys2Proof/Machine/Cadastre.lean ====
section
/-! DEFINITION. The pool address map (03): DPA to DRAM location, Cadastre entries, Sheet and split entries, the
resolution of a parcel offset, and the access check of Table 3-5. -/

namespace Sys2Proof.Machine

/-! ### From DPA to a DRAM location (03 R64-R67) -/

def tractMask (w : Work) (i : Nat) : Nat := bitsOf (w.reg2 (aMemmapTractXor i)) 47 0

/-- Bit i of the tract of a DPA (R64). -/
def tractBit (w : Work) (dpa i : Nat) : Nat := (bitsOf dpa (21 + i) (21 + i) + parity (dpa &&& tractMask w i) 48) % 2

/-- The tract of a DPA (R64). -/
def tractOf (w : Work) (dpa : Nat) : Nat := tractBit w dpa 0 + 2 * tractBit w dpa 1 + 4 * tractBit w dpa 2

/-- The tract address of a DPA (R65). -/
def tractAddr (dpa : Nat) : Nat := 2 ^ 21 * bitsOf dpa 47 24 + bitsOf dpa 20 0

/-- The DPA at tract address `ta` of tract `t` (04 R104, the inverse of R64 and R65). -/
def dpaOf (w : Work) (t ta : Nat) : Nat :=
  let hi := 2 ^ 24 * (ta / 2 ^ 21)
  let mid (i : Nat) : Nat := 2 ^ (21 + i) * ((bitsOf t i i + parity (hi &&& tractMask w i) 48) % 2)
  hi + mid 0 + mid 1 + mid 2 + ta % 2 ^ 21

/-- Bytes of the reference module of tract `t`, zero while none is recorded (14 R536, Table 14-3). -/
def moduleBytes (w : Work) (t : Nat) : Nat :=
  if w.fld (aTractGeometry t) 31 30 = 0 then 0 else 2 ^ (35 + w.fld (aTractGeometry t) 27 26)

/-- A DPA is populated (R65). -/
def populated (w : Work) (dpa : Nat) : Bool :=
  decide (dpa < 2 ^ 48) && decide (tractAddr dpa < 10 * moduleBytes w (tractOf w dpa))

/-- The channel of a line (R66), and its channel line index CA >> 6. -/
def channelOf (w : Work) (line : Nat) : Nat :=
  10 * tractOf w (64 * line) + tractAddr (64 * line) / 64 % 10
def channelLine (line : Nat) : Nat := tractAddr (64 * line) / 64 / 10

/-- The line at channel line index `x` of channel `c`. -/
def lineOnChannel (w : Work) (c x : Nat) : Nat := dpaOf w (c / 10) (64 * (10 * x + c % 10)) / 64

/-- The home Tun die of a line (01 R11): tract / 4. -/
def dieOf (w : Work) (line : Nat) : Nat := tractOf w (64 * line) / 4

/-- DRAM coordinates of a line (03 Table 3-1, 14 Table 14-2): channel, subchannel, bank group, bank, row, rank, cid. -/
structure Coord where
  chan : Nat
  sub : Nat
  bg : Nat
  bank : Nat
  row : Nat
  rank : Nat
  cid : Nat
  deriving DecidableEq, Repr

def coordOf (w : Work) (line : Nat) : Coord :=
  let t := tractOf w (64 * line)
  let ca := 64 * channelLine line
  let x (b m : Nat) : Nat := (bitsOf ca b b + parity (ca &&& bitsOf (w.reg2 m) 47 0) 48) % 2
  let top := w.fld (aTractGeometry t) 5 0 + w.fld (aTractGeometry t) 21 17
  let stack := w.fld (aTractGeometry t) 24 24
  { chan := channelOf w line
    sub := x 6 (aTractXorSub t)
    bg := x 7 (aTractXorBg t 0) + 2 * x 8 (aTractXorBg t 1) + 4 * x 9 (aTractXorBg t 2)
    bank := x 10 (aTractXorBank t 0) + 2 * x 11 (aTractXorBank t 1)
    row := bitsOf ca (top - 1) (w.fld (aTractGeometry t) 5 0)
    cid := if stack = 1 then bitsOf ca top top else 0
    rank := if w.fld (aTractGeometry t) 25 25 = 1 then bitsOf ca (top + stack) (top + stack) else 0 }

/-- The logical rank: package rank and 3DS die counted as ranks (14 R546). -/
def Coord.logical (c : Coord) (stack : Nat) : Nat := if stack = 1 then 2 * c.rank + c.cid else c.rank

/-! ### The Cadastre (03 Table 3-3) -/

/-- The live entry of parcel `p` (R69). -/
def cadEntry (w : Work) (p : Nat) : BitVec 512 := (mget w.pool.cad p).getD 0

def ef (x : BitVec 512) (hi lo : Nat) : Nat := bitsOf x.toNat hi lo

def eState (x : BitVec 512) : Nat := ef x 33 32
def eClass (x : BitVec 512) : Nat := ef x 35 34
def eKind (x : BitVec 512) : Nat := ef x 38 36
def eEnc (x : BitVec 512) : Bool := ef x 39 39 == 1
def eDevSet (x : BitVec 512) : Nat := ef x 43 40
def eSpread (x : BitVec 512) : Bool := ef x 44 44 == 1
def eStale (x : BitVec 512) : Bool := ef x 45 45 == 1
def eHostCache (x : BitVec 512) : Bool := ef x 46 46 == 1
def eTracts (x : BitVec 512) : Nat := ef x 55 48
def eSize (x : BitVec 512) : Nat := ef x 89 64
def eHolders (x : BitVec 512) : Nat := ef x 191 128
def eWriters (x : BitVec 512) : Nat := ef x 255 192
def eRevoke (x : BitVec 512) : Nat := ef x 303 256
def eSheet (x : BitVec 512) : Nat := ef x 367 320
def eGen (x : BitVec 512) : Nat := ef x 31 16

/-- Parcel states (Table 3-3). -/
def stFree : Nat := 0
def stAssigned : Nat := 1
def stRevoking : Nat := 2
def stScrubbing : Nat := 3

def setEf (x : BitVec 512) (hi lo v : Nat) : BitVec 512 := BitVec.ofNat 512 (putBits x.toNat hi lo v)

/-- Members of a dev_set in ascending board number. -/
def members (ds : Nat) : List Nat := bitList ds 4

/-! ### Parcel 0 (03 R70) -/

def p0Base (e : Env) : Nat := 2 ^ 21 * e.backupWord 0
def p0Mirror (e : Env) : Nat := 2 ^ 21 * e.backupWord 1
def p0Bytes (e : Env) : Nat := 2 ^ 21 * e.backupWord 2

/-- A DPA range lies wholly within the primary copy of parcel 0. -/
def inP0 (e : Env) (dpa n : Nat) : Bool := decide (p0Base e ≤ dpa) && decide (dpa + n ≤ p0Base e + p0Bytes e)

def unreadable (w : Work) (line : Nat) : Bool := w.pool.poison.contains line || w.pool.bad.contains line

/-- `n` bytes of parcel 0 at a DPA of its primary copy, from the copy that reads; none when both copies of a line
are poisoned (15 Table 15-5). -/
def p0Read (e : Env) (w : Work) (dpa n : Nat) : Option Nat :=
  let alt := dpa - p0Base e + p0Mirror e
  if !unreadable w (dpa / 64) then some (memNat w.pool.mem dpa n)
  else if inP0 e dpa n && !unreadable w (alt / 64) then some (memNat w.pool.mem alt n)
  else none

/-- Write `n` bytes of parcel 0 to both copies (04 R113). -/
def p0Write (e : Env) (w : Work) (dpa n v : Nat) : Work :=
  let m := memPut w.pool.mem dpa n v
  { w with pool := { w.pool with
      mem := if inP0 e dpa n then memPut m (dpa - p0Base e + p0Mirror e) n v else m } }

/-- Bit `i` of a bitmap in parcel 0; clear where the line cannot be read. -/
def p0Bit (e : Env) (w : Work) (base i : Nat) : Bool :=
  match p0Read e w (base + i / 8) 1 with
  | some v => bitAt v (i % 8)
  | none => false

def p0SetBit (e : Env) (w : Work) (base i : Nat) (b : Bool) : Work :=
  match p0Read e w (base + i / 8) 1 with
  | some v => p0Write e w (base + i / 8) 1 (setBitAt v (i % 8) b)
  | none => w

/-- The dirty-plot bitmap of a parcel (04 R132) and its recovery map (06 R249). -/
def dirtyBase (x : BitVec 512) : Nat := eSheet x + 4096 * ((4095 + 16 * eSize x) / 4096)
def recoveryBase (x : BitVec 512) : Nat := 4096 * ((4095 + dirtyBase x + (eSize x + 7) / 8) / 4096)

/-! ### Sheet and split entries (03 Table 3-7, Table 3-8) -/

/-- A Sheet entry as a number. -/
def sheetEntry (e : Env) (w : Work) (x : BitVec 512) (idx : Nat) : Option Nat := p0Read e w (eSheet x + 16 * idx) 16

def sValid (s : Nat) : Bool := bitAt s 0
def sSplit (s : Nat) : Bool := bitAt s 1
def sPriDev (s : Nat) : Nat := bitsOf s 3 2
def sSecDev (s : Nat) : Nat := bitsOf s 5 4
def sSecValid (s : Nat) : Bool := bitAt s 6
def sPriPlot (s : Nat) : Nat := bitsOf s 34 8
def sSecPlot (s : Nat) : Nat := bitsOf s 61 35
def sSplitPtr (s : Nat) : Nat := 2 ^ 12 * bitsOf s 99 64
def qPriPage (s : Nat) : Nat := bitsOf s 43 8
def qSecPage (s : Nat) : Nat := bitsOf s 99 64

/-- A TWIN entry with sec_valid = 0 names a secondary unless its sec_dev equals pri_dev and its place is zero
(04 R103). -/
def namesSec (s secPlace : Nat) : Bool := sSecValid s || !(sSecDev s == sPriDev s && secPlace == 0)

/-! ### Resolution (03 R80) -/

/-- The result of resolution. A place in a STRIPE group carries the group's base plot and the data-line position. -/
inductive Loc where
  | outOfParcel
  | sheetInvalid
  | copies (pri : Place) (sec : Option Place) (estab : Option Place) (promoted : Bool) (idx : Nat)
  | stripe (dev base u off : Nat)
  deriving DecidableEq, Repr

/-- Member and Sheet index of an offset: (offset within the member, index) (R80). -/
def sheetIndex (x : BitVec 512) (o : Nat) : Nat × Nat :=
  if eSpread x then
    let n := (members (eDevSet x)).length
    let g := o / 2 ^ 12
    let lo := 2 ^ 12 * (g / n) + o % 2 ^ 12
    (lo, g % n * (eSize x / n) + lo / 2 ^ 21)
  else (o, o / 2 ^ 21)

/-- Copies of an entry, with the exchange of the promoted view (04 R130) for a TWIN entry whose primary device is
lost. `sp` and `pp` are the byte addresses that it gives. -/
def copiesOf (w : Work) (x : BitVec 512) (s pp sp secPlace idx : Nat) : Loc :=
  let pri : Place := ⟨sPriDev s, pp⟩
  let sec : Place := ⟨sSecDev s, sp⟩
  if eClass x = 3 ∧ w.home.promoted.contains (sPriDev s) = true ∧ namesSec s secPlace = true then
    .copies sec none none true idx
  else .copies pri (if (eClass x = 2 ∨ eClass x = 3) ∧ sSecValid s = true then some sec else none)
    (if eClass x = 3 ∧ sSecValid s = false ∧ namesSec s secPlace = true then some sec else none) false idx

/-- locate(e, o) (R80), without the parcel's poisoned lines, which make the entry invalid (15 Table 15-5). -/
def locate (e : Env) (w : Work) (x : BitVec 512) (o : Nat) : Loc :=
  if eSize x ≤ o / 2 ^ 21 then .outOfParcel
  else
    let (lo, idx) := sheetIndex x o
    match sheetEntry e w x idx with
    | none => .sheetInvalid
    | some s =>
      if !sValid s then .sheetInvalid
      else if eClass x = 1 then .stripe (sPriDev s) (sPriPlot s) (lo / 2 ^ 21 % 9) (lo % 2 ^ 21)
      else if sSplit s then
        match p0Read e w (sSplitPtr s + 16 * (lo / 2 ^ 12 % 512)) 16 with
        | none => .sheetInvalid
        | some q =>
          if !sValid q then .sheetInvalid
          else copiesOf w x q (2 ^ 12 * qPriPage q + lo % 2 ^ 12) (2 ^ 12 * qSecPage q + lo % 2 ^ 12) (qSecPage q) idx
      else copiesOf w x s (2 ^ 21 * sPriPlot s + lo % 2 ^ 21) (2 ^ 21 * sSecPlot s + lo % 2 ^ 21) (sSecPlot s) idx

/-! ### STRIPE placement (04 R104) -/

/-- A stripe: its tract, its group's tract-local plot number, and its number s. -/
structure Stripe where
  t : Nat
  n0 : Nat
  s : Nat
  deriving DecidableEq, Repr

/-- The line at slot j (0-9) of a stripe. -/
def stripeLine (w : Work) (q : Stripe) (j : Nat) : Nat :=
  dpaOf w q.t (64 * (32768 * q.n0 + 10 * q.s + j)) / 64

/-- The parity slot p = s mod 10. -/
def Stripe.parity (q : Stripe) : Nat := q.s % 10

/-- The stripe and slot of usable plot u at offset `off` of the group at plot `g`. -/
def stripeOf (w : Work) (g u off : Nat) : Stripe × Nat :=
  let d := 32768 * u + off / 64
  let s := d / 9
  let k := d % 9
  let p := s % 10
  (⟨tractOf w (2 ^ 21 * g), g / 8, s⟩, if k < p then k else k + 1)

/-- The DPA of the data line of a STRIPE place, with the byte of `off`. -/
def stripeDpa (w : Work) (g u off : Nat) : Nat :=
  let (q, j) := stripeOf w g u off
  64 * stripeLine w q j + off % 64

/-- The stripe that a raw line lies in, and its slot, by its tract-local line index (R104 backwards); the group base
is the multiple of 10 plots that holds it (03 R79). -/
def stripeAt (w : Work) (line : Nat) : Stripe × Nat :=
  let l := tractAddr (64 * line) / 64
  let n0 := l / 327680 * 10
  let r := l - 32768 * n0
  (⟨tractOf w (64 * line), n0, r / 10⟩, r % 10)

/-- The primary place of a resolution, if any. -/
def Loc.primary (w : Work) (l : Loc) : Option Place :=
  match l with
  | .copies p _ _ _ _ => some p
  | .stripe d g u off => some ⟨d, stripeDpa w g u off⟩
  | _ => none

/-! ### Who owns a line (R77, R722) -/

/-- Where a line of this device stands: its parcel, the parcel offset, and whether it is the line's primary copy. -/
structure Owner where
  parcel : Nat
  off : Nat
  primary : Bool
  deriving DecidableEq, Repr

/-- The plot-map entry of a plot (R77). -/
def plotMapAddr (e : Env) (t n : Nat) : Nat := 0x400000 + p0Base e + 4 * (1310720 * t + n)

def plotOwner (e : Env) (w : Work) (line : Nat) : Option Nat :=
  match p0Read e w (plotMapAddr e (tractOf w (64 * line)) (tractAddr (64 * line) / 2 ^ 21)) 4 with
  | some v => if bitAt v 31 then some (bitsOf v 15 0) else none
  | none => none

/-- The parcel offset at byte `b` of the plot with Sheet index `idx` (R80 backwards). -/
def offsetAt (x : BitVec 512) (idx b : Nat) : Nat :=
  if eSpread x then
    let n := (members (eDevSet x)).length
    let per := eSize x / max 1 n
    let lo := 2 ^ 21 * (idx % max 1 per) + b
    2 ^ 12 * (lo / 2 ^ 12 * n + idx / max 1 per) + lo % 2 ^ 12
  else 2 ^ 21 * idx + b

/-- Whether an entry names the plot or page `here` of this device as a copy, and as its primary. Its own numbers of plots or pages
stand for addresses. -/
def entryNames (e : Env) (w : Work) (x : BitVec 512) (s pri sec here : Nat) : Option Bool :=
  match copiesOf w x s pri sec sec 0 with
  | .copies p c b _ _ =>
    if p = ⟨e.board, here⟩ then some true
    else if c = some ⟨e.board, here⟩ ∨ b = some ⟨e.board, here⟩ then some false
    else none
  | _ => none

/-- The copy of parcel `p` that a line is by Sheet index `i`, split entries included. -/
def ownerAt (e : Env) (w : Work) (p line i : Nat) : Option Owner :=
  let x := cadEntry w p
  match sheetEntry e w x i with
  | none => none
  | some s =>
    if !sValid s then none
    else if sSplit s then
      (List.range 512).findSome? (fun g => match p0Read e w (sSplitPtr s + 16 * g) 16 with
        | some q => if !sValid q then none else
          (entryNames e w x q (qPriPage q) (qSecPage q) (line / 64)).map (fun b => ⟨p, offsetAt x i (4096 * g + 64 * (line % 64)), b⟩)
        | none => none)
    else (entryNames e w x s (sPriPlot s) (sSecPlot s) (line / 2 ^ 15)).map (fun b => ⟨p, offsetAt x i (64 * (line % 2 ^ 15)), b⟩)

/-- The owner of a line; for STRIPE the parcel alone matters. -/
def ownerOf (e : Env) (w : Work) (line : Nat) : Option Owner :=
  match plotOwner e w line with
  | none => none
  | some p =>
    if eClass (cadEntry w p) = 1 then some ⟨p, 0, true⟩
    else (List.range (eSize (cadEntry w p))).findSome? (ownerAt e w p line)

/-! ### Access check (03 Table 3-5, R83, R723) -/

/-- Outcomes of the access check. -/
inductive Chk where
  | served (l : Loc)
  | revoked
  | permission
  | sheet
  deriving DecidableEq, Repr

/-- Who asks: a host agent of this device with its generation; a forwarded request of a device with its acceptance
frame; a Mash access bound to a host; agents 0x7E and 0x7F. -/
inductive Asker where
  | host (agent gen : Nat)
  | fwd (dev gen frame : Nat)
  | own
  deriving DecidableEq, Repr

/-- Whether a resolution names a populated line, on this device (other devices check their own). -/
def locOk (e : Env) (w : Work) (l : Loc) : Bool :=
  match l.primary w with
  | none => false
  | some p => p.dev != e.board || populated w p.dpa

/-- The address of a parcel's entry in parcel 0 (R70). -/
def cadAddr (e : Env) (parcel : Nat) : Nat := p0Base e + 64 * parcel

/-- The access check of Table 3-5, in its order. A Cadastre line that cannot be read refuses as SHEET_INVALID (15 Table 15-5). -/
def accessCheck (e : Env) (w : Work) (q : Asker) (parcel o : Nat) (write : Bool) : Chk :=
  let x := cadEntry w parcel
  let place : Chk :=
    let l := locate e w x o
    if (p0Read e w (cadAddr e parcel) 64).isSome && locOk e w l then .served l else .sheet
  match q with
  | .own => place
  | .host a g =>
    if eState x ≠ stAssigned ∨ eGen x ≠ g then .revoked
    else if !bitAt (eHolders x) a then .permission
    else if write && !bitAt (eWriters x) a then .permission
    else place
  | .fwd d g f =>
    if (eState x ≠ stAssigned ∧ ¬((eState x = stRevoking ∨ eState x = stScrubbing) ∧ f < eRevoke x)) ∨ eGen x ≠ g then
      .revoked
    else if !bitAt (eDevSet x) d then .permission
    else place

/-- The record that a refusal raises (Table 3-5, R84): coalesced per parcel, agent and frame; SHEET_INVALID is
actionable. -/
def checkRecord (c : Chk) (parcel dev agent : Nat) (host : Option Nat) : Option FaultRec :=
  match c with
  | .served _ => none
  | .revoked => some { ty := 0x3001, parcel := parcel, dev := dev, agent := agent, coal := true, req := true, host := host }
  | .permission => some { ty := 0x3002, parcel := parcel, dev := dev, agent := agent, coal := true, req := true, host := host }
  | .sheet => some { ty := 0x3003, sev := 1, parcel := parcel, dev := dev, agent := agent, req := true, host := host }

/-- Raise the record of a refusal. -/
def raiseCheck (e : Env) (w : Work) (c : Chk) (parcel dev agent : Nat) (host : Option Nat) : Work :=
  match checkRecord c parcel dev agent host with
  | some r => raise e w r
  | none => w

/-- The line of parcel 0 that the resolution of an offset cannot read: Cadastre, Sheet or split table (15 Table 15-5). -/
def tableLost (e : Env) (w : Work) (parcel o : Nat) : Option Nat :=
  let x := cadEntry w parcel
  let (lo, idx) := sheetIndex x o
  let a := eSheet x + 16 * idx
  if (p0Read e w (cadAddr e parcel) 64).isNone then some (cadAddr e parcel)
  else if eSize x ≤ o / 2 ^ 21 then none
  else match p0Read e w a 16 with
    | none => some a
    | some s =>
      let b := sSplitPtr s + 16 * (lo / 2 ^ 12 % 512)
      if sValid s && sSplit s && eClass x != 1 && (p0Read e w b 16).isNone then some b else none

/-- CADASTRE_POISON of the line at `a` (15 Table 15-5). -/
def poisonRec (e : Env) (parcel a : Nat) : FaultRec := { ty := 0x300C, sev := 1, parcel := parcel, dev := e.board, agent := 0x7F, addr := a }

/-- The records of a refusal at a parcel offset: those of Table 3-5, and that of a table line that cannot be read. -/
def raiseRefusal (e : Env) (w : Work) (c : Chk) (parcel o dev agent : Nat) (host : Option Nat) : Work :=
  let w := raiseCheck e w c parcel dev agent host
  match c, tableLost e w parcel o with
  | .sheet, some a => raise e w (poisonRec e parcel a)
  | _, _ => w

end Sys2Proof.Machine
end

