-- ==== Sys2Proof/Machine/Vorir.lean ====
section
/-! DEFINITION. The dies, and the Vorir fabric that joins them (01 Table 1-1 to Table 1-5, R10-R24): links, routes, classes,
receive slots. A message is carried hop by hop within the command that sends it. Also which Daoth port faces which device
(13 Table 13-1). -/

namespace Sys2Proof.Machine

/-! ### Daoth ports and their states (13 Table 13-1, Table 13-2) -/

/-- The peer of port `n`, and the index under which device `d` counts device `x` (R496). -/
def peerDev (e : Env) (n : Nat) : Nat := if n % 4 < e.board then n % 4 else n % 4 + 1
def peerIndex (d x : Nat) : Nat := if x < d then x else x - 1

/-- The two ports to device `d`. -/
def portsTo (e : Env) (d : Nat) : List Nat := [peerIndex e.board d, 4 + peerIndex e.board d]
def sibling (n : Nat) : Nat := if n < 4 then n + 4 else n - 4

/-- Link states (Table 13-2). -/
def lkDown : Nat := 0
def lkTraining : Nat := 1
def lkInit : Nat := 2
def lkActive : Nat := 3
def lkTest : Nat := 4
def lkHeld : Nat := 5

def linkState (w : Work) (n : Nat) : Nat := w.fld (aDaothPortStatus n) 18 16
def linkOn (w : Work) (n : Nat) : Bool := w.fld (aDaothPortCtl n) 31 31 == 1

/-- The port that carries a message between two agents to device `d` (R507): A when bit 0 of their XOR is 0, else B; the other
while that one is not ACTIVE and the other is. -/
def msgPort (e : Env) (w : Work) (d src dst : Nat) : Nat :=
  let n := peerIndex e.board d + (if (src ^^^ dst) % 2 = 0 then 0 else 4)
  if linkState w n ≠ lkActive ∧ linkState w (sibling n) = lkActive then sibling n else n

/-- An agent ID that Table 1-7 assigns. -/
def agentKnown (a : Nat) : Bool := decide (a < 0x44) || (decide (0x50 ≤ a) && decide (a < 0x70)) || a == 0x7E || a == 0x7F

/-- The record of a message with a reserved ID, opcode or class that came on port `n` (R34, 13 R505): the link and the ID. -/
def dropRecord (e : Env) (w : Work) (n dev a : Nat) : Work :=
  raise e w { ty := 0x700C, dev := dev, agent := a, unit := n + 5 * 2 ^ 24 }

/-- A message of a peer: it is dropped when one of its agent IDs is reserved (R34). -/
def peerTraffic (h : Hdr) (ids : List Nat) (s : State) (f : Env → Work → Work) : Host.Outcome State Fault Refusal :=
  traffic s (fun e w =>
    if h.dev = e.board then w
    else match (h.src :: h.dst :: ids).find? (fun a => !agentKnown a) with
      | some a => dropRecord e w (msgPort e w h.dev h.src h.dst) h.dev a
      | none => f e w)

/-! ### Dies (01 R10, R11, R13) -/

/-- A die with a place on Vorir (Table 1-1): Tun dies 0 and 1, memory dies M0 to M3, host dies H0 and H1. -/
inductive Die where
  | tun (d : Nat)
  | mem (m : Nat)
  | host (h : Nat)
  deriving DecidableEq, Repr

/-- The Tun die that homes a line of this device (R11), and that is the proxy die of a peer's (R13): by the local tract masks. -/
def tunOf (w : Work) (line : Nat) : Die := .tun (dieOf w line)

/-- The memory die of a line's channel (R11, Table 1-2). -/
def memOf (w : Work) (line : Nat) : Die := .mem (tractOf w (64 * line) / 2)

/-- The host die of a CXL port and of a Daoth port (Table 1-1). -/
def dieOfPort (p : Nat) : Die := .host (p / 16)
def dieOfDaoth (n : Nat) : Die := .host (n / 4)

/-- The die of an agent of this device that asks for a line (Table 1-7). -/
def agentDie (w : Work) (a line : Nat) : Die :=
  if a < 0x40 then dieOfPort (a / 2)
  else if 0x50 ≤ a ∧ a < 0x70 then .tun ((a - 0x50) / 16)
  else if a = 0x7E then memOf w line
  else .tun 0

/-- The die at which a message of the pair `(dev, agent)` enters this device, or leaves it towards the pair. -/
def pairDie (e : Env) (w : Work) (dev agent line : Nat) : Die :=
  if dev = e.board then agentDie w agent line else dieOfDaoth (msgPort e w dev agent 0x7F)

/-- The Tun die of a ring's scheduler (08 R298). -/
def ringDie (w : Work) (r : Nat) : Nat := w.fld (aRingCtl r) 24 24

/-! ### Links (R15, R24, Table 1-4) -/

/-- The link between two dies, if they have one: 0 to 3 the memory links of M0 to M3, 4 the Tun link, 5 + 2n + d the host link of
Hn and Tun die d (log 156). -/
def vorirLink (a b : Die) : Option Nat :=
  match a, b with
  | .mem m, .tun d | .tun d, .mem m => if m < 4 ∧ d = m / 2 then some m else none
  | .tun x, .tun y => if x + y = 1 then some 4 else none
  | .host n, .tun d | .tun d, .host n => if n < 2 ∧ d < 2 then some (5 + 2 * n + d) else none
  | _, _ => none

/-- One direction of a link: twice its number, and one more towards the memory or host die, or from Tun die 1 to Tun die 0. -/
def vorirDir (a b : Die) : Option Nat :=
  (vorirLink a b).map (fun l => 2 * l + (match a, b with
    | .tun _, .mem _ | .tun _, .host _ => 1
    | .tun x, .tun _ => x
    | _, _ => 0))

/-- The bandwidth of a link per direction in GB/s (Table 1-4), half of it at half width (R24). -/
def vorirRate (w : Work) (l : Nat) : Nat :=
  let full := if l < 4 then 2100 else if l = 4 then 6000 else 2000
  if w.vorir.half.contains l then full / 2 else full

/-! ### Classes (R17, Table 1-5) -/

/-- What a message on Vorir is. -/
inductive VKind where
  /-- REQ: a read, write or atomic of a host or of Mash, a forwarded request, a mirror write. -/
  | request
  /-- REQ: a descriptor or ring fetch, a completion record. -/
  | fetch
  /-- REQ: a doorbell write on its way to its ring scheduler. -/
  | doorbell
  /-- REQ: a read of a Sheet or stage-1 table. -/
  | table
  /-- REQ: a home agent's access to a memory die. -/
  | memory
  /-- RSP: data, a completion, an answer to a snoop, RETRY, STALE_ROLE, a wrapper's answer. -/
  | answer
  /-- SNP: a snoop of a host or of a peer, a near-cache recall. -/
  | snoop
  /-- RTY: a request reissued after RETRY. -/
  | reissue
  deriving DecidableEq, Repr

def VKind.cls (k : VKind) : Cls :=
  match k with
  | .request | .fetch | .doorbell | .table | .memory => .req
  | .answer => .rsp
  | .snoop => .snp
  | .reissue => .rty

/-- A request, in RTY once it has been reissued (R18: on every hop to its home). -/
def reqKind (rty : Bool) : VKind := if rty then .reissue else .request

/-! ### Receive slots and credits (R19, R20) -/

def vcIx (c : Cls) : Nat := match c with | .req => 0 | .rsp => 1 | .snp => 2 | .rty => 3

/-- Slots of a receiver, and those reserved for each class. -/
def vorirPool : Nat := 1024
def vorirReserved : Nat := 32

/-- Slots that a class occupies in the receiver of a direction. -/
def vUsed (v : Vorir) (dl c : Nat) : Nat := mgetD v.occ (4 * dl + c) 0

/-- The receiver of a direction has room for `n` slots of a class (R19): reserved slots serve their own class alone. -/
def vRoom (v : Vorir) (dl : Nat) (c : Cls) (n : Nat) : Bool :=
  decide ((List.range 4).foldl (fun t i => t + ((vUsed v dl i + if i = vcIx c then n else 0) - vorirReserved)) 0
    ≤ vorirPool - 4 * vorirReserved)

/-- The message takes its slots in a receiver: the sender's credits are spent. -/
def vTake (v : Vorir) (dl : Nat) (m : VMsg) : Vorir := { v with occ := mmod v.occ (4 * dl + vcIx m.cls) 0 (· + m.slots) }

/-- The message leaves its slots: the credits go back. -/
def vFree (v : Vorir) (dl : Nat) (m : VMsg) : Vorir :=
  let n := vUsed v dl (vcIx m.cls) - m.slots
  { v with occ := if n = 0 then mdel v.occ (4 * dl + vcIx m.cls) else mset v.occ (4 * dl + vcIx m.cls) n }

/-- The classes whose credits serving a message at its destination may need (R20). -/
def servingNeeds (c : Cls) : List Cls :=
  match c with
  | .req | .rty => [.snp, .rsp]
  | .snp => [.rsp]
  | .rsp => []

/-- A message can be served at the end of a direction: what its service may send back finds a slot (R20). -/
def servable (v : Vorir) (dl : Nat) (c : Cls) : Bool := (servingNeeds c).all (fun k => vRoom v (dl ^^^ 1) k 1)

/-! ### Routes (R16) -/

/-- The dies that a message visits after `a` on its way to `b`: for a message of a line, over the Tun die that homes the line or is
its proxy die; for one that names no line, over Tun die 0 where the two dies have no link. -/
def vorirRoute (a b : Die) (hand : Option Die) : List Die :=
  if a = b then []
  else match hand with
    | some t => if a = t ∨ b = t then [b] else [t, b]
    | none => if (vorirLink a b).isSome then [b] else [.tun 0, b]

/-- Carry a message from die `a` over the dies of its route, in one class (R18). On each hop its flit is the link's latest and takes
the next number (R22); it takes slots of the receiver and leaves those of the hop before; at its destination it leaves the last
ones once it can be served. A message that finds no room stays where it is. The second component counts its hops. -/
def vorirGo (v : Vorir) (m : VMsg) (a : Die) (ds : List Die) (at_ : Option Nat) : Vorir × Nat :=
  match ds with
  | [] => (match at_ with
    | some dl => if servable v dl m.cls then vFree v dl m else v
    | none => v, 0)
  | b :: r =>
    match vorirDir a b with
    | none => (v, 0)
    | some dl =>
      if vRoom v dl m.cls m.slots then
        let v := { vTake v dl m with seq := mmod v.seq dl 0 (· + 1), last := mset v.last dl m }
        let v := match at_ with
          | some x => vFree v x m
          | none => v
        let (v, n) := vorirGo v m b r (some dl)
        (v, n + 1)
      else (v, 0)

/-- Slots of a message: one, and one more for a line of data (log 157). -/
def vorirSlots (data : Bool) : Nat := if data then 2 else 1

/-- Carry a message of agent `src` for agent `dst` along a route; each slot is charged on each hop (16 Table 16-1). -/
def carryOn (w : Work) (acct : Nat) (k : VKind) (src dst : Nat) (data : Bool) (a : Die) (ds : List Die) : Work :=
  let m : VMsg := { cls := k.cls, src := src, dst := dst, slots := vorirSlots data }
  let (v, n) := vorirGo w.vorir m a ds none
  { charge w acct 6 (n * m.slots) with vorir := v }

/-- Carry a message that names a line. -/
def carry (w : Work) (acct : Nat) (k : VKind) (src dst line : Nat) (data : Bool) (a b : Die) : Work :=
  carryOn w acct k src dst data a (vorirRoute a b (some (tunOf w line)))

/-- Carry a message that names no line. -/
def carryPlain (w : Work) (acct : Nat) (k : VKind) (src dst : Nat) (a b : Die) : Work :=
  carryOn w acct k src dst false a (vorirRoute a b none)

/-- A home asks for an access to a line in the name of an account. -/
def askFor (w : Work) (acct line : Nat) : Work :=
  { w with chans := { w.chans with asked := if acct = acctDev then mdel w.chans.asked line else mset w.chans.asked line acct } }

/-- A home's read of `n` lines that lie on one memory die: each request in REQ, its data back in RSP. -/
def memRead (w : Work) (acct line n : Nat) : Work :=
  let w := charge (askFor w acct line) acct 1 n
  (List.range n).foldl (fun w _ =>
    carry (carry w acct .memory 0x7F 0x7F line false (tunOf w line) (memOf w line))
      acct .answer 0x7F 0x7F line true (memOf w line) (tunOf w line)) w

/-- A home's write of `n` lines on one memory die, with their completions. -/
def memWrite (w : Work) (acct line n : Nat) : Work :=
  let w := charge (askFor w acct line) acct 2 n
  (List.range n).foldl (fun w _ =>
    carry (carry w acct .memory 0x7F 0x7F line true (tunOf w line) (memOf w line))
      acct .answer 0x7F 0x7F line false (memOf w line) (tunOf w line)) w

/-! ### Requests and answers of a pair -/

/-- A request goes from where its pair stands to the home die of its line (R16, R28). -/
def carryReq (e : Env) (w : Work) (r : Req) (data : Bool) : Work :=
  carry w r.acct (reqKind r.rty) r.agent 0x7F r.line data (pairDie e w r.dev r.agent r.line) (tunOf w r.line)

/-- The home's answer goes back to the pair, in RSP. -/
def carryAnswer (e : Env) (w : Work) (r : Req) (data : Bool) : Work :=
  carry w r.acct .answer 0x7F r.agent r.line data (tunOf w r.line) (pairDie e w r.dev r.agent r.line)

/-- A request leaves for its home on device `dev` over the line's proxy die, in the class in which it came (R16, R18), and then by a
Daoth flit. -/
def carryOut (e : Env) (w : Work) (r : Req) (dev : Nat) (data : Bool) : Work :=
  carry (charge w r.acct 7 1) r.acct (reqKind r.rty) r.agent 0x7F r.line data (pairDie e w r.dev r.agent r.line)
    (pairDie e w dev r.agent r.line)

/-- Its answer comes back the same way, in RSP. -/
def carryBack (e : Env) (w : Work) (r : Req) (dev : Nat) (data : Bool) : Work :=
  carry w r.acct .answer 0x7F r.agent r.line data (pairDie e w dev r.agent r.line) (pairDie e w r.dev r.agent r.line)

/-- A Tun's access to a line of a peer that this device's near cache serves goes to the proxy die and back (R13). -/
def carryProxy (w : Work) (r : Req) (line : Nat) (write : Bool) : Work :=
  let w := carry w r.acct .request r.agent 0x7F line write (agentDie w r.agent line) (tunOf w line)
  carry w r.acct .answer 0x7F r.agent line (!write) (tunOf w line) (agentDie w r.agent line)

/-- Where a snoop leaves this device's fabric: the host die of its host, or that of the port to its device. -/
def snoopDie (e : Env) (w : Work) (line : Nat) (t : Target) : Die × Nat :=
  match t with
  | .host d a _ => (pairDie e w d a line, a)
  | .peer d _ => (pairDie e w d 0x7F line, 0x7F)

def Target.dev (t : Target) : Nat := match t with | .host d _ _ => d | .peer d _ => d

/-- A snoop of the home of a line, in SNP; to another device by a Daoth flit. -/
def carrySnoop (e : Env) (w : Work) (acct line : Nat) (t : Target) : Work :=
  let (b, a) := snoopDie e w line t
  let w := if t.dev = e.board then w else charge w acct 7 1
  carry w acct .snoop 0x7F a line false (tunOf w line) b

/-- Its answer, in RSP. -/
def carrySnoopAnswer (e : Env) (w : Work) (acct line : Nat) (t : Target) (data : Bool) : Work :=
  let (b, a) := snoopDie e w line t
  carry w acct .answer a 0x7F line data b (tunOf w line)

/-- A snoop of device `dev` for a line that it homes, to an agent here, and the answer on its way back (R16). -/
def carryRelay (e : Env) (w : Work) (dev agent line : Nat) : Work :=
  carry w acctDev .snoop 0x7F agent line false (pairDie e w dev agent line) (if agent < 0x40 then agentDie w agent line else tunOf w line)

def carryRelayed (e : Env) (w : Work) (dev agent line : Nat) (data : Bool) : Work :=
  carry w acctDev .answer agent 0x7F line data (if agent < 0x40 then agentDie w agent line else tunOf w line) (pairDie e w dev agent line)

/-- A message of the home of a line of this device to another device: a mirror write, a copy, the read of a copy there; and the
answer that comes for it. -/
def carryToPeer (e : Env) (w : Work) (acct : Nat) (k : VKind) (dev line : Nat) (data : Bool) : Work :=
  carry (charge w acct 7 1) acct k 0x7F 0x7F line data (tunOf w line) (pairDie e w dev 0x7F line)

def carryFromPeer (e : Env) (w : Work) (acct : Nat) (k : VKind) (dev line : Nat) (data : Bool) : Work :=
  carry w acct k 0x7F 0x7F line data (pairDie e w dev 0x7F line) (tunOf w line)

/-- A sync descriptor goes from its ring scheduler to the engine that homes its object on device `dev`, in REQ or, reissued, in RTY;
the engine's answer or a release comes back in RSP (10 R405). -/
def carrySync (e : Env) (w : Work) (acct ring dev agent line : Nat) (rty : Bool) : Work :=
  if dev = e.board then carry w acct (reqKind rty) agent 0x7F line false (.tun (ringDie w ring)) (tunOf w line)
  else carry (charge w acct 7 1) acct (reqKind rty) agent 0x7F line false (.tun (ringDie w ring)) (pairDie e w dev agent line)

def carryTold (w : Work) (acct ring agent line : Nat) : Work :=
  carry w acct .answer 0x7F agent line false (tunOf w line) (.tun (ringDie w ring))

/-- A message of Datum that names no line leaves for device `dev`, by way of Tun die 0. -/
def carryDatum (e : Env) (w : Work) (k : VKind) (dev agent : Nat) : Work :=
  carryPlain w acctDev k 0x7F agent (.tun 0) (pairDie e w dev agent 0)

/-! ### Sheet caches (R25, R26) -/

/-- The resolution points H0, H1, Tun die 0 and Tun die 1, by number. -/
def pointOf (d : Die) : Nat := match d with | .host h => h | .tun t => 2 + t | .mem _ => 2

/-- The set of a Sheet entry (log 158). -/
def sheetSet (parcel idx : Nat) : Nat := (parcel + idx) % 2048

def sheetKey (pt parcel idx way : Nat) : Nat := 16 * (2048 * pt + sheetSet parcel idx) + way

/-- The ways that a parcel's entries may take: all, or in PARTITIONED mode those of its holders' partition (11 Table 11-6). -/
def sheetWays (w : Work) (parcel : Nat) : List Nat :=
  match partitioned w, (bitList (eHolders (cadEntry w parcel)) 64).head? with
  | true, some a => bitList (w.livF (aQosPartXlatWays (partOf w a)) 15 0) 16
  | _, _ => List.range 16

/-- The way to fill: a free one, else the least recently used of the set; none where the partition has no way. -/
def sheetVictim (w : Work) (pt parcel idx : Nat) : Option Nat :=
  let age (i : Nat) : Nat := match mget w.pool.sheets (sheetKey pt parcel idx i) with | some x => x.used + 1 | none => 0
  (sheetWays w parcel).foldl (fun b i => match b with
    | none => some i
    | some j => if age i < age j then some i else some j) none

def sheetStore (w : Work) (key : Nat) (x : SheetWay) : Work :=
  { w with pool := { w.pool with sheets := mset w.pool.sheets key { x with used := w.pool.sheetStamp }
                                 sheetStamp := w.pool.sheetStamp + 1 } }

/-- A resolution at a point looks in its Sheet cache; a miss is filled by a REQ read of the Sheet table. -/
def sheetTouch (e : Env) (w : Work) (d : Die) (acct parcel o : Nat) : Work :=
  let x := cadEntry w parcel
  let idx := (sheetIndex x o).2
  let pt := pointOf d
  match (List.range 16).find? (fun i => match mget w.pool.sheets (sheetKey pt parcel idx i) with
      | some y => y.parcel == parcel && y.idx == idx
      | none => false) with
  | some i => (match mget w.pool.sheets (sheetKey pt parcel idx i) with
    | some y => sheetStore w (sheetKey pt parcel idx i) y
    | none => w)
  | none =>
    match sheetEntry e w x idx with
    | none => w
    | some s =>
      let line := (eSheet x + 16 * idx) / 64
      let w := carry w acct .table 0x7F 0x7F line false d (tunOf w line)
      let w := carry (memRead w acct line 1) acct .answer 0x7F 0x7F line true (tunOf w line) d
      match sheetVictim w pt parcel idx with
      | some i => sheetStore w (sheetKey pt parcel idx i) ⟨parcel, idx, s, 0⟩
      | none => w

/-- The look-up of a request at its resolution point, once it has passed the Cadastre check. -/
def sheetLook (e : Env) (w : Work) (r : Req) (c : Chk) : Work :=
  match c with
  | .served _ | .sheet =>
    if r.off / 2 ^ 21 < eSize (cadEntry w r.parcel) then sheetTouch e w (pairDie e w r.dev r.agent r.line) r.acct r.parcel r.off else w
  | _ => w

/-- Entries that the tables no longer hold leave every cache at the boundary of the change (R26). -/
def sheetSettle (e : Env) (w : Work) : Work :=
  { w with pool := { w.pool with sheets := w.pool.sheets.filter (fun x =>
      sheetEntry e w (cadEntry w x.2.parcel) x.2.idx == some x.2.entry) } }

end Sys2Proof.Machine
end

