-- ==== Sys2Proof/Machine/Service.lean ====
section
/-! DEFINITION. Lines in DRAM and in the near cache: keys and poison (15, 17), channels that do not serve, the
protection classes (04), and the line code's outcomes as the home sees them. -/

namespace Sys2Proof.Machine

/-- On whose behalf a line is touched: for records (parcel, agent) and for energy. -/
structure Acc where
  parcel : Nat
  dev : Nat
  agent : Nat
  host : Option Nat
  acct : Nat
  deriving DecidableEq, Repr

def accOwn (parcel : Nat) (e : Env) : Acc := ⟨parcel, e.board, 0x7F, none, acctDev⟩
def accBg (parcel : Nat) (e : Env) : Acc := ⟨parcel, e.board, 0x7E, none, acctBg⟩

/-! ### Keys and stored lines (17 R637-R642, 15 R574) -/

/-- KEYSEL (17 R627): the voted value. -/
def keySel (e : Env) : Nat := match e.keysel.vote with | some v => v.toNat | none => 0

/-- The link root slot whose secret seals Datum's flash records (17 R645): KEYSEL[5:4]. -/
def sealSlot (e : Env) : Nat := bitsOf (keySel e) 5 4

/-- A sealed record can be used: its seal is by the live slot (17 R629). -/
def unsealed (e : Env) (kind : Nat) : Bool := mgetD e.sec.seals kind 0 == sealSlot e

/-- Seal a record anew. -/
def sealRec (e : Env) (kind : Nat) (x : Sec) : Sec := { x with seals := mset x.seals kind (sealSlot e) }

/-- The sealed records as they can be read: board members, host trust anchors, the debug authority. -/
def boardMembers (e : Env) : AMap Nat := if unsealed e 0 then e.sec.members else []
def hostAnchors (e : Env) : AMap (List Nat) := if unsealed e 1 then e.sec.anchors else []
def debugAuthorityKey (e : Env) : Option Nat := if unsealed e 2 then e.sec.authority else none

/-- The key of a parcel: none without encryption; parcel 0 is always encrypted under generation 0 (17 R640). -/
def keyOf (e : Env) (w : Work) (p : Nat) : Option KeyId :=
  if p = 0 then some ⟨0, 0, bitsOf (keySel e) 3 2⟩
  else if eEnc (cadEntry w p) then some ⟨p, eGen (cadEntry w p), bitsOf (keySel e) 3 2⟩
  else none

def keyNums (k : Option KeyId) : Nat × Nat × Nat :=
  match k with
  | some k => (k.parcel, k.gen, k.slot)
  | none => (0, 0, 4)

/-- What the stored value `d` of a line decrypts to under `key` (R640, R641): its plaintext under the key it was written with; zero for the
zero image; a free value under another key (log 9). -/
def decryptAs (w : Work) (key : Option KeyId) (line : Nat) (d : Line) : Line :=
  let k := mget w.pool.keyed line
  if k = key then d
  else if k = none ∧ d = 0 then 0
  else Config.otherKeyRead (keyNums k) (keyNums key) line d

def decrypt (w : Work) (key : Option KeyId) (line : Nat) : Line := decryptAs w key line (memLine w.pool.mem line)

/-- A line read from DRAM: none when its stored image is uncorrectable, the poison flag for the poison pattern. -/
def rawRead (w : Work) (key : Option KeyId) (line : Nat) : Option Payload :=
  if w.pool.bad.contains line then none
  else if w.pool.poison.contains line then some ⟨0, true⟩
  else some ⟨decrypt w key line, false⟩

/-- A line written to DRAM as a full image: data under its key, or the poison pattern, which stores no ciphertext. -/
def rawWrite (w : Work) (key : Option KeyId) (line : Nat) (d : Payload) : Work :=
  { w with pool := { w.pool with
      mem := memPutLine w.pool.mem line (if d.poison then 0 else d.data)
      poison := if d.poison then sadd w.pool.poison line else sdel w.pool.poison line
      bad := sdel w.pool.bad line
      keyed := if d.poison then mdel w.pool.keyed line
               else match key with
                 | some k => mset w.pool.keyed line k
                 | none => mdel w.pool.keyed line } }

/-- The zero image of Sparge and of the initialisation pass (17 R649, 18 R672): no key. -/
def zeroWrite (w : Work) (line : Nat) : Work := rawWrite w none line ⟨0, false⟩

/-! ### Channels (04 R120, R126; 15 R601) -/

def chanState (w : Work) (c : Nat) : Nat := w.fld (aChannelSvc c) 10 8
def chOnline : Nat := 0
def chOut : Nat := 1
def chOff : Nat := 2
def chTraining : Nat := 3
def chReady : Nat := 4
def chRebuilding : Nat := 5

/-- The mask bit of a line's bank (R601): 64 * logical rank + 32 * sub + 4 * bg + bank. -/
def maskBit (w : Work) (line : Nat) : Nat :=
  let c := coordOf w line
  64 * c.logical (w.fld (aTractGeometry (c.chan / 10)) 24 24) + 32 * c.sub + 4 * c.bg + c.bank

def masked (w : Work) (line : Nat) : Bool :=
  bitAt (w.liv (aChannelBankMask (channelOf w line) (maskBit w line / 32))) (maskBit w line % 32)

/-- The state that a channel's lines are served by: while an entry to OUT drains, the one it has left (R117). -/
def svcState (w : Work) (c : Nat) : Nat :=
  match (mgetD w.chans.ch c {}).out with
  | some x => if chanState w c = chOut then x.was else chanState w c
  | none => chanState w c

/-- The line is served by its channel (R120, R126, R601). -/
def serving (w : Work) (line : Nat) : Bool :=
  let c := channelOf w line
  !masked w line && (svcState w c == chOnline ||
    (svcState w c == chRebuilding && decide (channelLine line < 64 * w.reg2 (aChannelRebuildMark c))))

/-- A write to the line reaches its module (R126: also above the watermark of a rebuilding channel). -/
def writable (w : Work) (line : Nat) : Bool :=
  serving w line || (!masked w line && svcState w (channelOf w line) == chRebuilding)

/-! ### Error counts of a channel (14 R565, R566; 15 R575) -/

/-- The coordinates of a DRAM record (15 Table 15-6, detail2), with the device in [35:32]. -/
def coordDetail (w : Work) (line device : Nat) : Nat :=
  let c := coordOf w line
  c.row + 2 ^ 17 * bitsOf (64 * channelLine line) 18 12 + 2 ^ 24 * c.bank + 2 ^ 26 * c.bg + 2 ^ 29 * c.sub
    + 2 ^ 30 * c.rank + 2 ^ 31 * c.cid + 2 ^ 32 * device

/-- The unit field of a class-1 record. -/
def dramUnit (chan rank sub device : Nat) : Nat :=
  chan + 2 ^ 7 * rank + 2 ^ 9 * sub + 2 ^ 10 * device + 2 * 2 ^ 24

/-- That of a line's record: its channel, logical rank and subchannel, and a device. -/
def lineUnit (w : Work) (line device : Nat) : Nat :=
  let c := coordOf w line
  dramUnit c.chan (c.logical (w.fld (aTractGeometry (c.chan / 10)) 24 24)) c.sub device

/-- Act on a crossing (R566): OUT with its cause at the next boundary, or one record a window. -/
def crossed (e : Env) (w : Work) (c cause : Nat) : Work :=
  if w.fld (aChannelErrCfg c) 31 31 = 1 then
    (if (chanState w c = chOnline ∨ chanState w c = chReady ∨ chanState w c = chRebuilding)
        ∧ w.due.contains (.chanOut c cause) = false then w.queue (.chanOut c cause) else w)
  else if w.chans.noted.contains c then w
  else
    let w := { w with chans := { w.chans with noted := c :: w.chans.noted } }
    raise e w { ty := 0x1005, sev := 1, unit := dramUnit c 0 0 0 }

/-- A limit of CHANNEL.ERR_CFG: 0 acts as 1. -/
def errLimit (w : Work) (c hi lo : Nat) : Nat := max 1 (w.fld (aChannelErrCfg c) hi lo)

/-- An uncorrectable read (R565). -/
def noteUe (e : Env) (w : Work) (line : Nat) : Work :=
  let c := channelOf w line
  let w := w.inc (aChannelUeCount c) 1
  let w := { w with chans := { w.chans with ueLines := mmod w.chans.ueLines c [] (fun l => sadd l line) } }
  if (mgetD w.chans.ueLines c []).length ≥ errLimit w c 23 16 then crossed e w c 2 else w

/-- A correctable read at device `i` (15 R575): counted, recorded per channel, rank, subchannel, device and frame. -/
def noteCe (e : Env) (w : Work) (line i : Nat) : Work :=
  let c := coordOf w line
  let w := w.inc (aChannelCeCount c.chan) 1
  let w := { w with chans := { w.chans with ceWin := mmod w.chans.ceWin c.chan 0 (· + 1) } }
  let w := raise e w {
    ty := 0x1001, addr := 64 * line, coal := true, detail2 := coordDetail w line i,
    unit := lineUnit w line i }
  if mgetD w.chans.ceWin c.chan 0 ≥ errLimit w c.chan 15 0 then crossed e w c.chan 2 else w

/-- The informational DRAM_UE record of a line (R561). -/
def raiseUe (e : Env) (w : Work) (line : Nat) : Work :=
  raise e w { ty := 0x1002, addr := 64 * line, unit := lineUnit w line 0, detail2 := coordDetail w line 0 }

/-- The coalesced LINE_LOST record of a refused PLAIN access (04 R120). -/
def lineLost (e : Env) (w : Work) (a : Acc) (line : Nat) : Work :=
  raise e w { ty := 0x2004, parcel := a.parcel, dev := a.dev, agent := a.agent, addr := 64 * line, coal := true,
              host := a.host }

/-- A line that is written under a key is encrypted (16 Table 16-1). -/
def aesLine (w : Work) (a : Acc) (key : Option KeyId) (n : Nat) : Work := if key.isSome then charge w a.acct 9 n else w

/-! ### Reading (04 Table 4-5, R110, R115, R121; 14 R561) -/

/-- What a home gets when it reads: the line, or that the copy must come from another device (R115). -/
inductive RdRes where
  | got (p : Payload)
  | remote (p : Place)
  deriving DecidableEq, Repr

/-- A single copy: PLAIN, or a MIRROR or TWIN entry without a secondary (04 R725). -/
def readSingle (e : Env) (w : Work) (a : Acc) (key : Option KeyId) (line : Nat) : Payload × Work :=
  if !serving w line then (⟨0, true⟩, lineLost e w a line)
  else
    let w := memRead w a.acct line 1
    match rawRead w key line with
    | some p => (p, w)
    | none => (⟨0, true⟩, raiseUe e (rawWrite (noteUe e w line) key line ⟨0, true⟩) line)

/-- A secondary copy on this device that can be read now. -/
def localCopy (e : Env) (w : Work) (key : Option KeyId) (p : Place) : Option Payload :=
  if p.dev = e.board ∧ serving w (p.dpa / 64) = true then rawRead w key (p.dpa / 64) else none

/-- The line is one of a primary page that the page-move unit moves, while it holds the page's writes (03 R97, R99). -/
def movingLine (e : Env) (w : Work) (line : Nat) : Bool :=
  match w.pool.move with
  | none => false
  | some m => m.copy == 0 && decide (m.frame + 1 ≤ e.clk.frame) && (match sheetEntry e w (cadEntry w m.parcel) m.plot with
    | some s => sValid s && sSplit s && (match p0Read e w (sSplitPtr s + 16 * m.page) 16 with
      | some q => sPriDev q == e.board && qPriPage q == line / 64
      | none => false)
    | none => false)

/-- The primary of a line whose page moves stays aside while its other copy can serve reads (03 R99). -/
def standsAside (e : Env) (w : Work) (key : Option KeyId) (line : Nat) (s : Place) : Bool :=
  movingLine e w line && (if s.dev = e.board then (localCopy e w key s).isSome else !isAbsent w s.dev && !isLost w s.dev)

/-- MIRROR and TWIN: the primary, else the secondary (R115). -/
def readCopies (e : Env) (w : Work) (a : Acc) (key : Option KeyId) (line : Nat) (sec : Option Place) : RdRes × Work :=
  match sec with
  | none => let (p, w) := readSingle e w a key line; (.got p, w)
  | some s =>
    let up := serving w line && !standsAside e w key line s
    let w := if up then memRead w a.acct line 1 else w
    match (if up then rawRead w key line else none) with
    | some p => (.got p, w)
    | none =>
      let w := if up then noteUe e w line else w
      if s.dev ≠ e.board then
        (if isAbsent w s.dev || isLost w s.dev then
           (if up then (.got ⟨0, true⟩, raiseUe e (rawWrite w key line ⟨0, true⟩) line) else (.got ⟨0, true⟩, w))
         else (.remote s, w))
      else
        let w := memRead w a.acct (s.dpa / 64) 1
        match localCopy e w key s with
        | some p =>
          if up then
            let w := rawWrite (memWrite w a.acct line 1) key line p
            (.got p, raise e w { ty := 0x2003, parcel := a.parcel, addr := 64 * line })
          else (.got p, w)
        | none =>
          let sl := s.dpa / 64
          let w := if serving w sl then rawWrite (noteUe e w sl) key sl ⟨0, true⟩ else w
          let w := if up then rawWrite w key line ⟨0, true⟩ else w
          (.got ⟨0, true⟩, raiseUe e w line)

/-- A slot of a stripe whose stored image cannot be used: uncorrectable, or a parity line that holds the poison pattern. -/
def stripeBad (w : Work) (q : Stripe) (j : Nat) : Bool :=
  w.pool.bad.contains (stripeLine w q j) || (j == q.parity && w.pool.poison.contains (stripeLine w q j))

def stripeMissing (w : Work) (q : Stripe) : List Nat :=
  (List.range 10).filter (fun j => !serving w (stripeLine w q j))

/-- The first slot other than `j` that reconstruction of `j` cannot read, if any. -/
def stripeBlock (w : Work) (q : Stripe) (j : Nat) : Option Nat :=
  (List.range 10).find? (fun i => i != j && (!serving w (stripeLine w q i) || stripeBad w q i))

/-- The stripe record (04 R110, R121, R726): informational, or actionable with the line that stands in the way. -/
def stripeRecord (e : Env) (w : Work) (sev parcel dpa detail : Nat) : Work :=
  raise e w { ty := 0x2001, sev := sev, parcel := parcel, addr := dpa, detail2 := detail }

/-! ### Parity (04 R105; log 10) -/

/-- What a slot of a stripe contributes to the parity: its stored line, nothing where it holds the poison pattern. -/
def slotLine (w : Work) (q : Stripe) (j : Nat) : Line :=
  if w.pool.poison.contains (stripeLine w q j) then 0 else memLine w.pool.mem (stripeLine w q j)

def xorSlots (w : Work) (q : Stripe) (js : List Nat) : Line := js.foldl (fun v j => v ^^^ slotLine w q j) 0

def dataSlots (q : Stripe) : List Nat := (List.range 10).filter (· != q.parity)

/-- The parity of the data lines as they are stored, with their poison flags by slot. -/
def parityOf (w : Work) (q : Stripe) : Line × Nat :=
  (xorSlots w q (dataSlots q),
   (dataSlots q).foldl (fun f j => setBitAt f j (w.pool.poison.contains (stripeLine w q j))) 0)

/-- The flags that the stripe's parity line carries. -/
def flagsOf (w : Work) (q : Stripe) : Nat := mgetD w.pool.flags (stripeLine w q q.parity) 0

/-- Write the parity line. -/
def setParity (w : Work) (q : Stripe) (v : Line × Nat) : Work :=
  let pl := stripeLine w q q.parity
  let w := rawWrite w none pl ⟨v.1, false⟩
  { w with pool := { w.pool with flags := if v.2 = 0 then mdel w.pool.flags pl else mset w.pool.flags pl v.2 } }

/-- The parity with what lines `js` add to it replaced by what they hold in `new` (Table 4-2, read-modify-write). -/
def parityMoved (old new : Work) (q : Stripe) (js : List Nat) : Line × Nat :=
  (slotLine old q q.parity ^^^ xorSlots old q js ^^^ xorSlots new q js,
   js.foldl (fun f j => setBitAt f j (new.pool.poison.contains (stripeLine new q j))) (flagsOf old q))

/-- What the other nine lines give for slot `j`: the line as stored, and its poison flag. -/
def otherNine (w : Work) (q : Stripe) (j : Nat) : Line × Bool :=
  (xorSlots w q ((List.range 10).filter (· != j)), bitAt (flagsOf w q) j)

/-- A data line reconstructed from the other nine of its stripe; it needs no key until it is read (R105). -/
def reconstructed (w : Work) (key : Option KeyId) (q : Stripe) (j : Nat) : Payload :=
  let (v, f) := otherNine w q j
  if f then ⟨0, true⟩ else ⟨decryptAs w key (stripeLine w q j) v, false⟩

/-- Write the reconstructed line to its place, as it was stored. -/
def restoreSlot (w : Work) (q : Stripe) (j : Nat) : Work :=
  let line := stripeLine w q j
  if j = q.parity then setParity w q (parityOf w q)
  else
    let (v, f) := otherNine w q j
    { w with pool := { w.pool with
        mem := memPutLine w.pool.mem line (if f then 0 else v)
        poison := if f then sadd w.pool.poison line else sdel w.pool.poison line
        bad := sdel w.pool.bad line } }

/-- The home asks for the lines of a stripe. -/
def askStripe (w : Work) (a : Acc) (q : Stripe) : Work := (List.range 10).foldl (fun w j => askFor w a.acct (stripeLine w q j)) w

/-- A STRIPE data line (R110, R121). -/
def readStripe (e : Env) (w : Work) (a : Acc) (key : Option KeyId) (line : Nat) : Payload × Work :=
  let (q, j) := stripeAt w line
  if serving w line && !w.pool.bad.contains line then
    ((rawRead w key line).getD ⟨0, true⟩, memRead w a.acct line 1)
  else
    let up := serving w line
    let w := if up then noteUe e w line else w
    match stripeBlock w q j with
    | none =>
      let w := memRead (askStripe w a q) a.acct line 9
      let p := reconstructed w key q j
      if up then (p, stripeRecord e (restoreSlot (memWrite w a.acct line 1) q j) 0 a.parcel (64 * line) 0) else (p, w)
    | some i =>
      let other := 64 * stripeLine w q i
      if up || serving w (stripeLine w q i) then (⟨0, true⟩, stripeRecord e w 1 a.parcel (64 * line) other)
      else (⟨0, true⟩, w)

/-! ### Writing (04 Table 4-5, R107-R109, R113, R121, R726) -/

/-- A single copy: dropped with an error while the channel is not serving; written to a rebuilding module besides
(R126). -/
def writeSingle (e : Env) (w : Work) (a : Acc) (key : Option KeyId) (line : Nat) (d : Payload) : Bool × Work :=
  if serving w line then (true, rawWrite (memWrite (aesLine w a key 1) a.acct line 1) key line d)
  else
    let w := if writable w line then rawWrite w key line d else w
    (false, lineLost e w a line)

/-- One local copy of a MIRROR or TWIN line: written where its channel takes it. -/
def writeCopy (w : Work) (a : Acc) (key : Option KeyId) (line : Nat) (d : Payload) : Bool × Work :=
  if serving w line then (true, rawWrite (memWrite (aesLine w a key 1) a.acct line 1) key line d)
  else if writable w line then (false, rawWrite w key line d)
  else (false, w)

/-- MIRROR on this device: both copies, or the one that serves (R113, R120). -/
def writeMirror (e : Env) (w : Work) (a : Acc) (key : Option KeyId) (line : Nat) (s : Place) (d : Payload) : Bool × Work :=
  let (x, w) := writeCopy w a key line d
  let (y, w) := if s.dev = e.board then writeCopy w a key (s.dpa / 64) d else (false, w)
  (x || y, w)

/-- Put data lines of a stripe into their places, and note the key of each. -/
def putSlots (w : Work) (key : Option KeyId) (q : Stripe) (ds : List (Nat × Payload)) : Work :=
  ds.foldl (fun w x => rawWrite w key (stripeLine w q x.1) x.2) w

/-- The DRAM traffic of a write of `k` lines and their parity, after `n` reads. -/
def stripeCost (w : Work) (a : Acc) (q : Stripe) (n k : Nat) : Work :=
  let w := askStripe w a q
  memWrite (memRead w a.acct (stripeLine w q 0) n) a.acct (stripeLine w q 0) (k + 1)

/-- Every channel of the stripe serves (Table 4-2, R726): by the method of R108 where its reads succeed, else by the other; where
neither can be completed, the parity line takes the poison pattern. -/
def writeWhole (e : Env) (w : Work) (a : Acc) (key : Option KeyId) (q : Stripe) (ds : List (Nat × Payload)) : Work :=
  let slots := ds.map (·.1)
  let k := ds.length
  let w := aesLine w a key k
  let clean := (dataSlots q).filter (fun j => !slots.contains j)
  let rmwOk := !stripeBad w q q.parity && slots.all (fun j => !stripeBad w q j)
  let rcwOk := clean.all (fun j => !stripeBad w q j)
  if rmwOk ∧ (k ≤ 4 ∨ rcwOk = false) then
    let new := putSlots (stripeCost w a q (k + 1) k) key q ds
    setParity new q (parityMoved w new q slots)
  else if rcwOk then
    let new := putSlots (stripeCost w a q (9 - k) k) key q ds
    setParity new q (parityOf new q)
  else
    let w := putSlots (stripeCost w a q 0 k) key q ds
    stripeRecord e (rawWrite w none (stripeLine w q q.parity) ⟨0, true⟩) 1 a.parcel (64 * stripeLine w q 0) 0

/-- One data channel of the stripe is not serving (Table 4-5, R121): the parity is computed from every data value. A line on the
missing channel keeps the value that the new parity gives it; a rebuilding module takes it besides (R126). -/
def writeDegraded (e : Env) (w : Work) (a : Acc) (key : Option KeyId) (q : Stripe) (m : Nat) (ds : List (Nat × Payload)) :
    Bool × Work :=
  let slots := ds.map (·.1)
  let needed := if slots.contains m then (dataSlots q).filter (fun j => !slots.contains j)
    else (List.range 10).filter (· != m)
  match needed.find? (stripeBad w q) with
  | some i => (false, stripeRecord e w 1 a.parcel (64 * stripeLine w q i) 0)
  | none =>
    let c := memWrite (memRead w a.acct (stripeLine w q 0) needed.length) a.acct (stripeLine w q 0)
      ((slots.filter (· != m)).length + 1)
    let all := putSlots c key q ds
    let v := if slots.contains m then parityOf all q else parityMoved w all q slots
    let line := stripeLine w q m
    let new := putSlots c key q (ds.filter (fun x => x.1 != m || writable w line))
    let new := if slots.contains m then { new with pool := { new.pool with keyed := all.pool.keyed } } else new
    (true, setParity new q v)

/-- Write lines of one stripe, all given as (slot, data), and its parity. Answers false when the write is dropped
(R121). Data lines are written before the parity (R109). -/
def writeStripe (e : Env) (w : Work) (a : Acc) (key : Option KeyId) (q : Stripe) (ds : List (Nat × Payload)) : Bool × Work :=
  match stripeMissing w q with
  | [] => (true, writeWhole e w a key q ds)
  | [m] =>
    if m ≠ q.parity then writeDegraded e w a key q m ds
    else
      -- data lines written, no parity update (Table 4-5); reconstruct-write where the parity's module is rebuilding
      let new := putSlots (memWrite w a.acct (stripeLine w q 0) ds.length) key q ds
      (true, if writable w (stripeLine w q m) && (dataSlots q).all (fun j => !stripeBad new q j) then setParity new q (parityOf new q)
        else new)
  | _ => (false, w)

/-! ### The near cache (01 R10-R13, 05 R202, 04 R107-R112) -/

def ncKey (dev line : Nat) : Nat := 2 ^ 42 * dev + line

def ncGet (w : Work) (dev line : Nat) : Option NcLine := mget w.pool.nc (ncKey dev line)

/-- A near-cache line homed on this device. -/
def ncOf (d : Payload) (dirty : Bool) (parcel : Nat) : NcLine :=
  { data := d.data, poison := d.poison, dirty := dirty, parcel := parcel }

def ncPut (w : Work) (dev line : Nat) (n : NcLine) : Work :=
  { w with pool := { w.pool with nc := mset w.pool.nc (ncKey dev line) n } }

def ncDrop (w : Work) (dev line : Nat) : Work :=
  { w with pool := { w.pool with nc := mdel w.pool.nc (ncKey dev line) } }

/-- The secondary of a located line that is in use as a copy, of MIRROR and TWIN parcels. -/
def secOf (l : Loc) : Option Place := match l with | .copies _ s _ _ _ => s | _ => none

/-- Other dirty lines of a stripe held in the near cache (R107), with the line itself: (slot, data). -/
def dirtyOf (e : Env) (w : Work) (q : Stripe) : List (Nat × Payload) :=
  (dataSlots q).filterMap (fun j => match ncGet w e.board (stripeLine w q j) with
    | some n => if n.dirty then some (j, ⟨n.data, n.poison⟩) else none
    | none => none)

/-- Mark a near-cache line clean. -/
def ncClean (w : Work) (dev line : Nat) : Work :=
  match ncGet w dev line with
  | some n => ncPut w dev line { n with dirty := false }
  | none => w

/-- Write back a dirty line of this device to DRAM: PLAIN alone, STRIPE with the dirty lines of its stripe (R107). A line whose
write is dropped stays dirty. -/
def writeBackLine (e : Env) (w : Work) (line : Nat) : Work :=
  match ncGet w e.board line with
  | none => w
  | some n =>
    if !n.dirty then w
    else
      let a := accOwn n.parcel e
      let key := keyOf e w n.parcel
      if eClass (cadEntry w n.parcel) = 1 then
        let (q, _) := stripeAt w line
        let ds := dirtyOf e w q
        let (ok, w) := writeStripe e w a key q ds
        if ok then ds.foldl (fun w x => ncClean w e.board (stripeLine w q x.1)) w else w
      else
        let (ok, w) := writeSingle e w a key line ⟨n.data, n.poison⟩
        if ok then ncClean w e.board line else w

/-! ### Forwarding (03 R82, 13 Table 13-6, Table 13-7) -/

def metaCode (m : Meta) : Nat := match m with | .i => 0 | .s => 1 | .a => 2

def rmwArgs (o : Rmw) : List Nat :=
  match o with
  | .fetchAdd n x => [0, n, x]
  | .swap n x => [1, n, x]
  | .cas n c x => [2, n, c, x]
  | .addFmt f x => [3, f, x]

/-- The message that carries a request to its home on device `d`, in the class in which it travels (01 R18). -/
def fwdMsg (r : Req) (d : Nat) : PeerMsg :=
  let m : PeerMsg := {
    op := 0, dev := d, src := r.agent, tag := r.tag, rty := r.rty,
    ext := some (r.parcel, r.gen, r.off, r.frame), args := [r.dev, r.agent, r.hops + 1] }
  match r.op with
  | .rd .i => { m with op := 0x01 }
  | .rd .s => { m with op := 0x02 }
  | .rd .a => { m with op := 0x03 }
  | .wr v p k true => { m with op := 0x04, data := some p, mask := if k = BitVec.allOnes 64 then none else some k,
                               args := m.args ++ [metaCode v] }
  | .wr v p k false => { m with op := 0x05, data := some p, mask := some k, args := m.args ++ [metaCode v] }
  | .evict => { m with op := 0x06 }
  | .rmw o => { m with op := 0x07, args := m.args ++ rmwArgs o }
  | .mashRd => { m with op := 0x08 }
  | .mashWr p k _ => { m with op := 0x09, data := some p, mask := some k }
  | .mashRmw o => { m with op := 0x0A, args := m.args ++ rmwArgs o }
  | .pRdCur => { m with op := 0x10, line := r.line }
  | .pRdS => { m with op := 0x11, line := r.line }
  | .pRdX => { m with op := 0x12, line := r.line }
  | .pUpg => { m with op := 0x13, line := r.line }
  | .pWr p k _ => { m with op := 0x14, line := r.line, data := some p, mask := some k }
  | .pWb p => { m with op := 0x15, line := r.line, data := some p }
  | .pEvict => { m with op := 0x16, line := r.line }
  | .datumWr p => { m with op := 0x04, data := some p }
  | .recall | .touch => m

/-- A request carries a line of data. -/
def HomeOp.hasData (op : HomeOp) : Bool :=
  match op with
  | .wr _ _ _ _ | .mashWr _ _ _ | .datumWr _ | .pWr _ _ _ | .pWb _ | .rmw _ | .mashRmw _ => true
  | _ => false

/-- A request of this proxy for the line is outstanding (06 R230). -/
def proxyBusy (w : Work) (dev line : Nat) : Bool := w.home.forwarded.any (fun x => x.1 == dev && x.2.line == line)

/-- A proxy drops a peer-homed line (06 R221): an S copy silently, M and O with PWb, E with PEvict; not while a request of its own
for the line is outstanding (06 R230). -/
def proxyDrop (e : Env) (w : Work) (dev line : Nat) : Work :=
  match ncGet w dev line with
  | none => w
  | some n =>
    if proxyBusy w dev line then w
    else
      let w := ncDrop w dev line
      let r : Req := { op := .pEvict, dev := e.board, agent := 0x7F, tag := line % 2 ^ 16, frame := e.clk.frame,
                       parcel := n.parcel, gen := n.gen, off := n.off, line := line }
      let send (op : HomeOp) : Work :=
        let r := { r with op := op }
        let w := { w with home := { w.home with forwarded := w.home.forwarded ++ [(dev, r)] } }
        (carryOut e w r dev op.hasData).emit (.peer (fwdMsg r dev))
      match n.st with
      | some .m | some .o => send (.pWb ⟨n.data, n.poison⟩)
      | some .e => send .pEvict
      | _ => w

/-- The near cache of a Tun die: 64 MiB in 65,536 sets of 16 ways (01 R1, R10, 11 Table 11-6), 16,384 to each of its tracts (15 R579); the
set of a line in its tract (log 159). -/
def ncSet (line : Nat) : Nat := line % 16384

/-- The partition that owns a tract (11 Table 11-7). -/
def partOfTract (w : Work) (t : Nat) : Option Nat :=
  (List.range 8).find? (fun p => bitAt (w.liv (aQosPartTracts p)) t)

/-- The partition of a line's tract, in PARTITIONED mode. -/
def partOfLine (w : Work) (line : Nat) : Option Nat := if partitioned w then partOfTract w (tractOf w (64 * line)) else none

/-- Ways of its set that a line may take: those of its partition (11 R461). -/
def ncWays (w : Work) (line : Nat) : Nat :=
  match partOfLine w line with
  | some p => max 1 (bitList (w.livF (aQosPartNcWays p) 15 0) 16).length
  | none => 16

/-- The lines that stand in the set of a line, as (device, line), in the near cache of its Tun die (those homed on a peer by the local masks,
01 R13). A set is of one tract, and so of one partition. -/
def ncRivals (w : Work) (line : Nat) : List (Nat × Nat) :=
  (w.pool.nc.map (fun x => (x.1 / 2 ^ 42, x.1 % 2 ^ 42))).filter (fun x =>
    ncSet x.2 == ncSet line && tractOf w (64 * x.2) == tractOf w (64 * line))

/-- The near cache gives a line up: its data written back, or told to its home. -/
def ncEvict (e : Env) (w : Work) (dev line : Nat) : Work :=
  if dev = e.board then ncDrop (writeBackLine e w line) dev line else proxyDrop e w dev line

/-- Install a line; where its ways are full one of their lines leaves first, which the spec does not choose: a free value (log 159). -/
def ncFill (e : Env) (w : Work) (dev line : Nat) (n : NcLine) : Work :=
  if (ncGet w dev line).isSome then ncPut w dev line n
  else
    let ls := ncRivals w line
    if ls.length < ncWays w line then ncPut w dev line n
    else
      let ls := ls.filter (fun x => !proxyBusy w x.1 x.2)
      let (v, w) := w.free
      match ls[v % ls.length]? with
      | some x => ncPut (ncEvict e w x.1 x.2) dev line n
      | none => ncPut w dev line n

/-! ### The home's reads and writes -/

/-- Read a line of this device at its home: the near cache, else DRAM by class, which fills the near cache. The poisoned answer of
a line that is not stored poisoned does not stay there (04 R110). -/
def homeRead (e : Env) (w : Work) (a : Acc) (line : Nat) (sec : Option Place) : RdRes × Work :=
  let w := charge w a.acct 4 1
  match ncGet w e.board line with
  | some n => (.got ⟨n.data, n.poison⟩, w)
  | none =>
    let key := keyOf e w a.parcel
    let (r, w) := if eClass (cadEntry w a.parcel) = 1 then
        (let (p, w) := readStripe e w a key line; (RdRes.got p, w))
      else readCopies e w a key line sec
    let w := if key.isSome then charge w a.acct 9 1 else w
    match r with
    | .got p => (.got p, if !p.poison || (serving w line && w.pool.poison.contains line) then
        ncFill e w e.board line (ncOf p false a.parcel) else w)
    | .remote p => (.remote p, w)

/-- Write a whole line of a PLAIN or STRIPE parcel at its home: dirty in the near cache while its channel serves, and for STRIPE
every channel of its stripe; as Table 4-5 gives otherwise. Answers false for a dropped write (R121). -/
def homeWriteBack (e : Env) (w : Work) (a : Acc) (line : Nat) (d : Payload) : Bool × Work :=
  let w := charge w a.acct 4 1
  let key := keyOf e w a.parcel
  if eClass (cadEntry w a.parcel) = 1 then
    let (q, j) := stripeAt w line
    if (stripeMissing w q).isEmpty then (true, ncFill e w e.board line (ncOf d true a.parcel))
    else
      let ds := (j, d) :: (dirtyOf e w q).filter (fun x => x.1 != j)
      let (ok, w) := writeStripe e w a key q ds
      if ok then (true, ds.foldl (fun w x => ncClean w e.board (stripeLine w q x.1)) (ncDrop w e.board line)) else (false, w)
  else if serving w line then (true, ncFill e w e.board line (ncOf d true a.parcel))
  else writeSingle e (ncDrop w e.board line) a key line d

/-- Write a whole line through to every copy on this device (R112, R113), leaving a clean near-cache copy. -/
def homeWriteThrough (e : Env) (w : Work) (a : Acc) (line : Nat) (sec : Option Place) (d : Payload) : Bool × Work :=
  let key := keyOf e w a.parcel
  let (ok, w) := match sec with
    | none => writeSingle e w a key line d
    | some s => writeMirror e w a key line s d
  (ok, if ok then ncFill e w e.board line (ncOf d false a.parcel) else ncDrop w e.board line)

/-- Write at the home by class. -/
def homeWrite (e : Env) (w : Work) (a : Acc) (line : Nat) (sec : Option Place) (d : Payload) : Bool × Work :=
  if eClass (cadEntry w a.parcel) = 2 ∨ eClass (cadEntry w a.parcel) = 3 then homeWriteThrough e w a line sec d
  else homeWriteBack e w a line d

end Sys2Proof.Machine
end

