-- ==== Sys2Proof/Machine/Directory.lean ====
section
/-! DEFINITION. The Gazetteer (05): directory entries, the directory store and the directory cache in front of it. -/

namespace Sys2Proof.Machine

/-! ### Entries (05 Table 5-2) -/

/-- In use: state other than Uncached, or a peer field set (R161). -/
def DirEntry.inUse (d : DirEntry) : Bool :=
  d.st != .uncached || d.peerSet != 0 || d.peerOwned || d.peerOwner != 0

def dirStCode (s : DirSt) : Nat := match s with | .uncached => 0 | .shared => 1 | .exclusive => 2

/-- Holder pointer `i` of an exact entry. -/
def DirEntry.ptr (d : DirEntry) (i : Nat) : Nat := d.holders.getD i 0

/-- The 64 bits of an entry for a line at k (Table 5-2). -/
def DirEntry.bits (d : DirEntry) (line k : Nat) : Nat :=
  2 ^ 44 * (line / 2 ^ k) + 2 ^ 42 * dirStCode d.st + (if d.coarse then 2 ^ 41 + d.regions.toNat * 2 ^ 7
    else 2 ^ 39 * (d.holders.length - 1) + 2 ^ 31 * d.ptr 3 + 2 ^ 23 * d.ptr 2 + 2 ^ 15 * d.ptr 1 + d.ptr 0 * 2 ^ 7)
  + d.peerSet.toNat * 2 ^ 3 + (if d.peerOwned then 4 else 0) + d.peerOwner

/-- The region bit of a holder field: 4d + (a >> 4) (R163). -/
def regionOf (h : Nat) : Nat := 4 * (h / 64) + h % 64 / 16

def setRegion (r : BitVec 16) (h : Nat) : BitVec 16 := r ||| (1 <<< regionOf h)

/-- Whether an entry names a holder field. -/
def DirEntry.names (d : DirEntry) (h : Nat) : Bool :=
  if d.st = .uncached then false
  else if d.coarse then d.regions.getLsbD (regionOf h)
  else d.holders.contains h

/-- Add a sharer (R162, R163): exact with at most four holders, coarse from the fifth. -/
def DirEntry.addSharer (d : DirEntry) (h : Nat) : DirEntry :=
  match d.st with
  | .uncached => { d with st := .shared, coarse := false, holders := [h], regions := 0 }
  | .exclusive => { d with st := .shared, coarse := false, holders := if d.holders.contains h then d.holders else d.holders ++ [h] }
  | .shared =>
    if d.coarse then { d with regions := setRegion d.regions h }
    else if d.holders.contains h then d
    else if d.holders.length < 4 then { d with holders := d.holders ++ [h] }
    else { d with coarse := true, holders := [], regions := (d.holders ++ [h]).foldl setRegion 0 }

/-- No host holder left; the peer fields stay. -/
def DirEntry.noHosts (d : DirEntry) : DirEntry :=
  { d with st := .uncached, coarse := false, holders := [], regions := 0 }

def DirEntry.exclusiveAt (d : DirEntry) (h : Nat) : DirEntry :=
  { d with st := .exclusive, coarse := false, holders := [h], regions := 0 }

/-- Remove a host: exact lists lose it, coarse entries stay (R164). -/
def DirEntry.remove (d : DirEntry) (h : Nat) : DirEntry :=
  if d.st = .uncached ∨ d.coarse then d
  else
    let l := d.holders.filter (· ≠ h)
    if l.isEmpty then d.noHosts else { d with holders := l }

/-- The exclusive owner, if any. -/
def DirEntry.owner (d : DirEntry) : Option Nat := if d.st = .exclusive then d.holders.head? else none

/-- Hosts that an entry may name on device `dev`, among its candidates: exact holders of that device, or every
candidate agent that a region bit covers (R166). -/
def DirEntry.hostsOf (d : DirEntry) (dev : Nat) (cands : List Nat) : List Nat :=
  if d.st = .uncached then []
  else if d.coarse then cands.filter (fun a => d.regions.getLsbD (regionOf (holderOf dev a)))
  else (d.holders.filter (fun h => h / 64 = dev)).map (· % 64)

/-- Peer near-cache holders. -/
def DirEntry.peers (d : DirEntry) : List Nat := bitList d.peerSet.toNat 4

def DirEntry.peerOwnerOf (d : DirEntry) : Option Nat := if d.peerOwned then some d.peerOwner else none

def setPeer (v : BitVec 4) (d : Nat) (b : Bool) : BitVec 4 := BitVec.ofNat 4 (setBitAt v.toNat d b)

/-- A device leaves the peer set, and ownership with it. -/
def DirEntry.dropPeer (x : DirEntry) (d : Nat) : DirEntry :=
  let x := { x with peerSet := setPeer x.peerSet d false }
  if x.peerOwned ∧ x.peerOwner = d then { x with peerOwned := false, peerOwner := 0 } else x

def DirEntry.addPeer (x : DirEntry) (d : Nat) (own : Bool) : DirEntry :=
  { x with peerSet := setPeer x.peerSet d true
           peerOwned := if own then true else x.peerOwned
           peerOwner := if own then d else x.peerOwner }

/-! ### Sets (R169, R170, R172) -/

/-- XOR of the successive k-bit pieces of a 42-bit number. -/
def foldBits (k v n : Nat) : Nat :=
  match n with
  | 0 => 0
  | m + 1 => (v % 2 ^ k) ^^^ foldBits k (v / 2 ^ k) m

def gazOn (w : Work) (die : Nat) : Bool := w.fld (aGazCtl die) 31 31 == 1
def gazK (w : Work) (die : Nat) : Nat := w.fld (aGazCtl die) 20 16

/-- The store set of a line (R170). -/
def storeSet (w : Work) (line : Nat) : Nat :=
  let k := gazK w (dieOf w line)
  (line % 2 ^ k) ^^^ foldBits k (line / 2 ^ k) 2

def storeKey (w : Work) (line way : Nat) : Nat := 8 * (2 ^ 26 * dieOf w line + storeSet w line) + way
def cacheKey (w : Work) (line way : Nat) : Nat := 32 * (2 ^ 17 * dieOf w line + storeSet w line % 2 ^ 17) + way

/-- Ways of the store and of the cache that a line may take: in PARTITIONED mode those of its partition. -/
def storeWays (w : Work) (line : Nat) : List Nat :=
  match (if partitioned w then partOfTract w (tractOf w (64 * line)) else none) with
  | some p => bitList (w.livF (aQosPartDirWays p) 7 0) 8
  | none => List.range 8

def cacheWays (w : Work) (line : Nat) : List Nat :=
  let die := dieOf w line
  let set := storeSet w line % 2 ^ 17
  let all := match (if partitioned w then partOfTract w (tractOf w (64 * line)) else none) with
    | some p => bitList (w.livF (aQosPartDirWays p) 31 16) 16
    | none => List.range 16
  let outs := (w.dir.outWays.filter (fun x => x.1 == die && x.2.1 == set)).map (fun x => x.2.2)
  if outs.isEmpty then all else (all.filter (fun i => !outs.contains i)) ++ (if outs.contains 16 then [] else [16])

/-- The way that holds a line, in the cache or in the store. -/
def cacheWayOf (w : Work) (line : Nat) : Option Nat :=
  (List.range 17).find? (fun i => match mget w.dir.cache (cacheKey w line i) with | some x => x.line == line | none => false)

def storeWayOf (w : Work) (line : Nat) : Option Nat :=
  (List.range 8).find? (fun i => match mget w.dir.store (storeKey w line i) with | some x => x.line == line | none => false)

/-- The entry of a line: the cache's, else the store's, else a free one. -/
def dirGet (w : Work) (line : Nat) : DirEntry :=
  match cacheWayOf w line with
  | some i => (match mget w.dir.cache (cacheKey w line i) with | some x => x.entry | none => {})
  | none =>
    match storeWayOf w line with
    | some i => (match mget w.dir.store (storeKey w line i) with | some x => x.entry | none => {})
    | none => {}

def putCache (w : Work) (key : Nat) (x : DirWay) : Work :=
  { w with dir := { w.dir with cache := mset w.dir.cache key x, stamp := w.dir.stamp + 1 } }

/-! ### The store in DRAM (R167-R171) -/

/-- The store parcel of a die. -/
def storeParcel (w : Work) (die : Nat) : Nat := w.fld (aGazCtl die) 15 0

/-- Bytes at an offset of a die's store parcel: both copies that this device can read, as agent 0x7F. -/
def storeCopies (l : Loc) : List Nat :=
  match l with
  | .copies p (some s) _ _ _ => [p.dpa / 64, s.dpa / 64]
  | .copies p none _ _ _ => [p.dpa / 64]
  | _ => []

/-- The line at an offset of the store parcel, from the first copy that reads; none when no copy does. -/
def storeRead (w : Work) (key : Option KeyId) (ls : List Nat) : Option Line :=
  ls.findSome? (fun l => if serving w l then match rawRead w key l with
    | some p => if p.poison then none else some p.data
    | none => none
    else none)

/-- Write `n` bytes at an offset of the store parcel into every copy (04 R113), after the access check of agent 0x7F; the rest of a
line that no copy gives is zero. -/
def storeWrite (e : Env) (w : Work) (acct die off n v : Nat) : Work :=
  let p := storeParcel w die
  match accessCheck e w .own p off true with
  | .served l =>
    let key := keyOf e w p
    let ls := storeCopies l
    let old := (storeRead w key ls).getD 0
    let b := 8 * (off % 64)
    let d : Payload := ⟨BitVec.ofNat 512 (putBits old.toNat (b + 8 * n - 1) b v), false⟩
    ls.foldl (fun w x => (writeCopy w { accOwn p e with acct := acct } key x d).2) w
  | c => raiseRefusal e w c p off e.board 0x7F none

/-- The home reads a line's store set, as agent 0x7F. -/
def storeLook (e : Env) (w : Work) (acct line : Nat) : Work :=
  let die := dieOf w line
  let off := 64 * storeSet w line
  match accessCheck e w .own (storeParcel w die) off false with
  | .served l => memRead w acct ((storeCopies l).headD 0) 1
  | c => raiseRefusal e w c (storeParcel w die) off e.board 0x7F none

/-- Write a way of a line's store set, in the map of the store and in the bytes of its line. -/
def storePut (e : Env) (w : Work) (acct line way : Nat) (x : Option DirWay) : Work :=
  let k := storeKey w line way
  let w := { w with dir := { w.dir with store := match x with | some x => mset w.dir.store k x | none => mdel w.dir.store k } }
  if gazOn w (dieOf w line) then
    storeWrite e w acct (dieOf w line) (64 * storeSet w line + 8 * way) 8
      (match x with | some x => x.entry.bits x.line (gazK w (dieOf w line)) | none => 0)
  else w

/-- The store header (R167, R183): k and the die, the broadcast flag, the lost sets (log 49). -/
def headerOff (w : Work) (die : Nat) : Nat := 64 * 2 ^ gazK w die

def headerWrite (e : Env) (w : Work) (die : Nat) : Work :=
  let lost := (w.dir.lost.filter (fun x => x.1 == die)).map (·.2)
  let w := storeWrite e w acctDev die (headerOff w die) 4 (gazK w die + 32 * die)
  let w := storeWrite e w acctDev die (headerOff w die + 4) 4 (lost.length + if w.dir.broadcast.contains die then 2 ^ 31 else 0)
  (List.range lost.length).foldl (fun w i => storeWrite e w acctDev die (headerOff w die + 64 + 4 * i) 4 (lost.getD i 0)) w

/-- The first word of the header of parcel `p` at `k`: zero where it is new or cannot be read. -/
def headerRead (e : Env) (w : Work) (p k : Nat) : Nat :=
  match accessCheck e w .own p (64 * 2 ^ k) false with
  | .served l => bitsOf ((storeRead w (keyOf e w p) (storeCopies l)).getD 0).toNat 31 0
  | _ => 0

/-- Write an entry to its way of the store; an entry out of use frees the way. -/
def storeEntry (e : Env) (w : Work) (acct line : Nat) (d : DirEntry) : Work :=
  match storeWayOf w line with
  | some i =>
    if d.inUse then
      (match mget w.dir.store (storeKey w line i) with
       | some x => storePut e w acct line i (some { x with entry := d })
       | none => w)
    else storePut e w acct line i none
  | none =>
    if !d.inUse then w
    else match (storeWays w line).find? (fun i => !mhas w.dir.store (storeKey w line i)) with
      | some i =>
        let w := storePut e w acct line i (some ⟨line, d, w.dir.stamp, false⟩)
        { w with dir := { w.dir with stamp := w.dir.stamp + 1 } }
      | none => w

/-- Take a cache way for a line: a free one, else the one written longest ago (log 160), whose held removal is written to the
store first (R174). -/
def cacheAlloc (e : Env) (w : Work) (line : Nat) : Option (Nat × Work) :=
  let ways := cacheWays w line
  match ways.find? (fun i => !mhas w.dir.cache (cacheKey w line i)) with
  | some i => some (i, w)
  | none =>
    let best := ways.foldl (fun (b : Option (Nat × DirWay)) i =>
      match mget w.dir.cache (cacheKey w line i), b with
      | some x, none => some (i, x)
      | some x, some (j, y) => if x.stamp < y.stamp then some (i, x) else some (j, y)
      | none, b => b) none
    match best with
    | some (i, x) => some (i, if x.dirty then storeEntry e w acctDev x.line x.entry else w)
    | none => none

/-- Change the entry of a line. A change that adds a holder or grants a state goes through to the store (R173); one
that only removes stays in the cache until its way is evicted (R174). -/
def dirPut (e : Env) (w : Work) (acct line : Nat) (d : DirEntry) (grants : Bool) : Work :=
  let w := charge w acct 5 1
  let w := if grants then storeEntry e w acct line d else w
  match cacheWayOf w line with
  | some i =>
    if !d.inUse && (storeWayOf w line).isNone then
      { w with dir := { w.dir with cache := mdel w.dir.cache (cacheKey w line i) } }
    else putCache w (cacheKey w line i) ⟨line, d, w.dir.stamp, !grants⟩
  | none =>
    if !d.inUse && (storeWayOf w line).isNone then w
    else match cacheAlloc e w line with
      | some (i, w) => putCache w (cacheKey w line i) ⟨line, d, w.dir.stamp, !grants⟩
      | none => storeEntry e w acct line d

/-- The ways of the line's store set that are in use by the truth (R177), as (way, line, entry, stamp). -/
def setEntries (w : Work) (line : Nat) : List DirWay :=
  (storeWays w line).filterMap (fun i => match mget w.dir.store (storeKey w line i) with
    | some x => if (dirGet w x.line).inUse then some { x with entry := dirGet w x.line } else none
    | none => none)

def oldest (l : List DirWay) : Option DirWay :=
  l.foldl (fun (b : Option DirWay) x => match b with
    | none => some x
    | some y => if x.stamp < y.stamp then some x else some y) none

/-- The way to evict before a new entry for `line` (R177): none while a way is free or holds the line. The least
recently allocated Shared entry, else the least recently allocated Exclusive one, else one with peers only (log 11). -/
def victim (w : Work) (line : Nat) : Option DirWay :=
  if (storeWayOf w line).isSome then none
  else
    let es := setEntries w line
    if es.length < (storeWays w line).length then none
    else match oldest (es.filter (fun x => x.entry.st == .shared)) with
      | some x => some x
      | none => match oldest (es.filter (fun x => x.entry.st == .exclusive)) with
        | some x => some x
        | none => oldest es

/-- Free the store ways of a set whose entries are out of use by the truth, so that a grant finds one. -/
def freeStale (e : Env) (w : Work) (line : Nat) : Work :=
  (storeWays w line).foldl (fun w i => match mget w.dir.store (storeKey w line i) with
    | some x => if (dirGet w x.line).inUse then w else
        let w := match cacheWayOf w x.line with
          | some j => { w with dir := { w.dir with cache := mdel w.dir.cache (cacheKey w x.line j) } }
          | none => w
        storePut e w acctDev line i none
    | none => w) w

/-! ### Lost sets (R179-R182) -/

/-- The copies of set `s` of a die's store: lines of the store parcel at offset 64 * s. -/
def storeLines (e : Env) (w : Work) (die s : Nat) : List Nat :=
  match locate e w (cadEntry w (w.fld (aGazCtl die) 15 0)) (64 * s) with
  | .copies p (some s) _ _ _ => [p.dpa / 64, s.dpa / 64]
  | .copies p none _ _ _ => [p.dpa / 64]
  | _ => []

/-- GAZ.STATUS shows the lost sets and the broadcast flag. -/
def showLost (w : Work) (die : Nat) : Work :=
  (w.setFld (aGazStatus die) 24 16 (w.dir.lost.filter (fun x => x.1 == die)).length).setFld (aGazStatus die) 25 25
    (if w.dir.broadcast.contains die then 1 else 0)

/-- Add a set whose copies are all uncorrectable to the lost-set list; the 257th sets the broadcast flag. Its ways are gone, and
its record is written while the broadcast flag is set too. -/
def noteLostSet (e : Env) (w : Work) (die s : Nat) : Work :=
  if w.dir.lost.contains (die, s) then w
  else
    let w := if w.dir.broadcast.contains die then w
      else if (w.dir.lost.filter (fun x => x.1 == die)).length ≥ 256 then
        { w with dir := { w.dir with broadcast := die :: w.dir.broadcast } }
      else { w with dir := { w.dir with lost := (die, s) :: w.dir.lost } }
    let w := { w with dir := { w.dir with store := w.dir.store.filter (fun x => x.1 / 8 != 2 ^ 26 * die + s) } }
    raise e (showLost (headerWrite e w die) die) { ty := 0x3006, sev := 1, addr := s, unit := 2 * 2 ^ 24 + die }

/-- Look at the line's store set before a directory access: a miss of the cache reads it (R171), and a set that cannot be read is
lost (R179). -/
def checkSet (e : Env) (w : Work) (acct line : Nat) : Work :=
  let w := if gazOn w (dieOf w line) && (cacheWayOf w line).isNone then storeLook e w acct line else w
  if w.pool.poison.isEmpty && w.pool.bad.isEmpty then w
  else
    let ls := storeLines e w (dieOf w line) (storeSet w line)
    if !ls.isEmpty && ls.all (unreadable w) then noteLostSet e w (dieOf w line) (storeSet w line) else w

/-- The line is treated as of a lost set (R180, R181). -/
def setLost (w : Work) (line : Nat) : Bool :=
  w.dir.broadcast.contains (dieOf w line) || w.dir.lost.contains (dieOf w line, storeSet w line)

end Sys2Proof.Machine
end

