-- ==== Sys2Proof/Machine/Home.lean ====
section
/-! DEFINITION. The home agents (05, 06): transactions, snoops, the answers of Table 5-5, Table 6-4 and Table 6-5,
retries and reservations, TWIN write ordering, and the treatment of lost holders. -/

namespace Sys2Proof.Machine

/-! ### Requesters and replies -/

def Req.acc (r : Req) : Acc :=
  ⟨r.parcel, r.dev, r.agent, if r.agent < 0x40 then some r.agent else none, r.acct⟩

/-- The holder field of a host that asks (05 R155); none for other requesters. -/
def Req.hostField (r : Req) : Option Nat :=
  match r.op with
  | .rd _ | .wr _ _ _ _ | .evict | .rmw _ => if r.agent < 0x40 then some (holderOf r.dev r.agent) else none
  | _ => none

def sameReq (r q : Req) : Bool := r.dev == q.dev && r.agent == q.agent && r.tag == q.tag && r.tile == q.tile

/-- A message to the device of a requester on a peer. -/
def peerReply (w : Work) (r : Req) (op : Nat) (d : Option Payload) (args : List Nat) : Work :=
  w.emit (.peer { op := op, dev := r.dev, dst := r.agent, tag := r.tag, line := r.line, data := d, args := args })

/-- No response is sent. -/
def Ans.silent (a : Ans) : Bool := a == .down || a == .mute

/-- Data for a read (Table 5-5, Table 6-4): to a host with its completion, to a tile's staging area, to a peer; poisoned
data where the request is to be answered with an error. -/
def replyData (e : Env) (w : Work) (r : Req) (c : HostCmp) (d : Payload) : Work :=
  if r.ans.silent then w
  else
    let (c, d) : HostCmp × Payload := if r.ans = .error then (.cmp, ⟨0, true⟩) else (c, d)
    match r.tile with
    | some t => { w with home := { w.home with staged := (t, d) :: w.home.staged } }
    | none =>
      if r.dev = e.board then
        (if r.agent < 0x40 then noteLatency e (emitData e w r.agent r.tag c d) r.agent r.lat r.born else w)
      else peerReply w r 0x20 (some d) [match c with | .cmp => 0 | .cmpS => 1 | .cmpE => 2]

/-- Completion of a write, with an error or not. -/
def replyCmp (e : Env) (w : Work) (r : Req) (ok : Bool) : Work :=
  if r.ans.silent then w
  else
    let ok := ok && r.ans == .normal
    match r.tile with
    | some t => if ok then { w with home := { w.home with acked := t :: w.home.acked } }
        else { w with home := { w.home with staged := (t, ⟨0, true⟩) :: w.home.staged } }
    | none =>
      if r.dev = e.board then (if r.agent < 0x40 then emitCmp e w r.agent r.tag (!ok) else w)
      else peerReply w r (if ok then 0x21 else 0x22) none []

/-- The old value of a read-modify-write. -/
def replyRmw (e : Env) (w : Work) (r : Req) (old : Nat) (poison : Bool) : Work :=
  if r.ans.silent then w
  else if r.ans = .error then replyCmp e w r false
  else match r.tile with
  | some t => { w with home := { w.home with staged := (t, ⟨BitVec.ofNat 512 old, poison⟩) :: w.home.staged } }
  | none =>
    if r.dev = e.board then w.emit (.hostAtomic r.agent r.tag old poison)
    else peerReply w r 0x20 (some ⟨BitVec.ofNat 512 old, poison⟩) []

/-- RETRY to the requester (R189). -/
def replyRetry (e : Env) (w : Work) (r : Req) : Work :=
  if r.dev = e.board then w.emit (.retry r.dev r.agent r.tag r.line) else peerReply w r 0x23 none []

/-- A refused request: poisoned data for a read, an error completion otherwise (Table 3-5, R724). -/
def refuseReq (e : Env) (w : Work) (r : Req) : Work :=
  match r.after.getD r.op with
  | .rd _ | .mashRd | .pRdCur | .pRdS | .pRdX | .pUpg => replyData e w r .cmp ⟨0, true⟩
  | _ => replyCmp e w r false

/-- The same answers when they come from the home of the line: they cross the fabric first (01 R16). -/
def homeData (e : Env) (w : Work) (r : Req) (c : HostCmp) (d : Payload) : Work :=
  if r.ans.silent then w else replyData e (carryAnswer e w r true) r c d

def homeCmp (e : Env) (w : Work) (r : Req) (ok : Bool) : Work :=
  if r.ans.silent then w else replyCmp e (carryAnswer e w r false) r ok

def homeRmw (e : Env) (w : Work) (r : Req) (old : Nat) (poison : Bool) : Work :=
  if r.ans.silent then w else replyRmw e (carryAnswer e w r true) r old poison

def homeRefuse (e : Env) (w : Work) (r : Req) : Work :=
  if r.ans.silent then w else refuseReq e (carryAnswer e w r false) r

/-! ### Read-modify-write (05 R196, R197) -/

/-- Bytes an operation covers. -/
def rmwSize (op : Rmw) : Nat :=
  match op with
  | .fetchAdd n _ => n
  | .swap n _ => n
  | .cas n _ _ => n
  | .addFmt f _ => elBytes f

/-- The new value of an operation on an old value. -/
def rmwApply (op : Rmw) (old : Nat) : Nat :=
  match op with
  | .fetchAdd n x => (old + x) % 2 ^ (8 * n)
  | .swap n x => x % 2 ^ (8 * n)
  | .cas n c x => if old = c % 2 ^ (8 * n) then x % 2 ^ (8 * n) else old
  | .addFmt f x => addInFmt f old x

/-- The operand's old value and the line after the operation, at byte `b` of the line. -/
def rmwLine (op : Rmw) (line : Line) (b : Nat) : Nat × Line :=
  let n := 8 * rmwSize op
  let old := bitsOf line.toNat (8 * b + n - 1) (8 * b)
  (old, BitVec.ofNat 512 (putBits line.toNat (8 * b + n - 1) (8 * b) (rmwApply op old)))

/-! ### Lost holders (05 R209, 06 Table 6-6) -/

/-- Runs of one frame that meet are one run, which gives its first DPA and its count (R212, R242). -/
def mergeRun (l : List FaultRec) (r : FaultRec) : Option (List FaultRec) :=
  match l with
  | [] => none
  | x :: t =>
    if x.run ∧ sameEvent x r = true ∧ (x.addr + 64 * x.count = r.addr ∨ r.addr + 64 * r.count = x.addr) then
      let y := { x with addr := min x.addr r.addr, count := satAdd 32 x.count r.count }
      some ((mergeRun t y).getD (y :: t))
    else match mergeRun t r with
      | some t' => some (x :: t')
      | none => none

/-- One record for each run of lines at consecutive DPAs in one parcel in one frame (R212, R242). -/
def raiseRun (e : Env) (w : Work) (ty parcel line dev agent : Nat) : Work :=
  let r : FaultRec := { ty := ty, sev := 1, parcel := parcel, addr := 64 * line, dev := dev, agent := agent, run := true
                        frame := e.clk.frame }
  match mergeRun w.flt.fifo r with
  | some l => { w with flt := { w.flt with fifo := l } }
  | none => raise e w r

/-- A request of the home agent itself for a line at a parcel offset. -/
def ownReq (e : Env) (w : Work) (op : HomeOp) (parcel off line : Nat) : Req :=
  { op := op, dev := e.board, agent := 0x7F, tag := line % 2 ^ 16, frame := e.clk.frame, parcel := parcel,
    gen := eGen (cadEntry w parcel), off := off, line := line }

/-- The copies of a request's line, resolved under the live Cadastre. -/
def reqLoc (e : Env) (w : Work) (r : Req) : Loc := locate e w (cadEntry w r.parcel) r.off

/-- Table 4-10 and R141: whether an establishment of the parcel, RUNNING, PAUSED or DONE, sends this offset to the mirror as well. -/
def estabCovers (w : Work) (parcel off : Nat) : Bool :=
  (List.range 3).any (fun k => w.fld (aProtectSlotStatus k) 31 16 == parcel && w.fld (aProtectSlotStatus k) 5 4 == 2
    && w.fld (aProtectSlotStatus k) 2 0 != 0 && w.fld (aProtectSlotStatus k) 2 0 != 4
    && decide (off / 65536 < w.reg2 (aProtectSlotMark k)))

/-- The second copy that a write must reach on another device (R114, R141). -/
def farCopy (e : Env) (w : Work) (r : Req) : Option Place :=
  match reqLoc e w r with
  | .copies _ (some s) _ _ _ => if s.dev ≠ e.board then some s else none
  | .copies _ none (some s) _ _ => if s.dev ≠ e.board ∧ estabCovers w r.parcel r.off = true then some s else none
  | _ => none

/-- A device that messages reach. -/
def reachable (w : Work) (d : Nat) : Bool := !isAbsent w d && !isLost w d

/-- Set the dirty-plot bit of an offset's Sheet index (R132, R133). -/
def setDirtyPlot (e : Env) (w : Work) (parcel off : Nat) : Work :=
  p0SetBit e w (dirtyBase (cadEntry w parcel)) (sheetIndex (cadEntry w parcel) off).2 true

/-- Whether the parcel's line resolves in the promoted view (R130). -/
def isPromoted (e : Env) (w : Work) (r : Req) : Bool :=
  match reqLoc e w r with | .copies _ _ _ p _ => p | _ => false

/-- A MirrorWr to the mirror device (R114); it says whether the home's copy can be written (R133). -/
def sendMirror (e : Env) (w : Work) (r : Req) (s : Place) (d : Payload) : Work :=
  (carryToPeer e w r.acct .request s.dev r.line true).emit (.peer {
    op := 0x30, dev := s.dev, tag := r.tag, line := s.dpa / 64, data := some d,
    ext := some (r.parcel, r.gen, r.off, r.frame),
    args := [if serving w r.line then 0 else 1, e.board] })

/-- The poison pattern into every copy of a line of this device. A copy on another device takes it by a mirror write that nothing
waits for (log 161). -/
def poisonLine (e : Env) (w : Work) (parcel line : Nat) : Work :=
  let a := accOwn parcel e
  let key := keyOf e w parcel
  let w := ncDrop w e.board line
  if eClass (cadEntry w parcel) = 1 then
    let (q, j) := stripeAt w line
    (writeStripe e w a key q [(j, ⟨0, true⟩)]).2
  else
    match (if eClass (cadEntry w parcel) = 0 then none else ownerOf e w line) with
    | none => (writeCopy w a key line ⟨0, true⟩).2
    | some o =>
      let r := ownReq e w .touch parcel o.off line
      let w := if isPromoted e w r then setDirtyPlot e w parcel o.off else w
      let w := (writeCopy w a key line ⟨0, true⟩).2
      match secOf (reqLoc e w r), farCopy e w r with
      | _, some s => if reachable w s.dev then sendMirror e w r s ⟨0, true⟩ else setDirtyPlot e w parcel o.off
      | some s, none => (writeCopy w a key (s.dpa / 64) ⟨0, true⟩).2
      | none, none => w

/-- The line of a lost owner: poisoned in memory unless the parcel accepts stale data. -/
def loseLine (e : Env) (w : Work) (parcel line : Nat) : Work :=
  if eStale (cadEntry w parcel) then w else poisonLine e w parcel line

/-- A device whose loss a boundary has made effective (R241). -/
def lostNow (w : Work) (d : Nat) : Bool := isLost w d && !w.home.declared.any (fun x => x.1 == d)

def isLostHost (w : Work) (h : Nat) : Bool := (w.host (h / 64) (h % 64)).coh == .lost

/-- Apply R209 and the first and third rows of Table 6-6 to the entry of a line that is touched or swept. -/
def treatLost (e : Env) (w : Work) (parcel line : Nat) : Work :=
  let d := dirGet w line
  if !d.inUse then w
  else
    let lostHs := if d.coarse then [] else d.holders.filter (isLostHost w)
    let w := match d.owner with
      | some o =>
        if isLostHost w o then
          let w := raiseRun e (loseLine e w parcel line) 0x3008 parcel line (o / 64) (o % 64)
          dirPut e w acctDev line d.noHosts false
        else w
      | none => if lostHs.isEmpty then w else dirPut e w acctDev line (lostHs.foldl DirEntry.remove d) false
    let d := dirGet w line
    let gone := (d.peers.filter (fun p => lostNow w p))
    let w := if gone.isEmpty then w else
      match d.peerOwnerOf with
      | some q =>
        if lostNow w q then
          let d' := (gone.filter (· ≠ q)).foldl DirEntry.dropPeer d
          if (d'.peers.filter (fun p => !lostNow w p)).isEmpty then
            let w := raiseRun e (loseLine e w parcel line) 0x300A parcel line q 0
            dirPut e w acctDev line (d'.dropPeer q) false
          else dirPut e w acctDev line d' false
        else dirPut e w acctDev line (gone.foldl DirEntry.dropPeer d) false
      | none => dirPut e w acctDev line (gone.foldl DirEntry.dropPeer d) false
    w

/-- The survivor to ask for an owner's copy that was lost (Table 6-6, second row). -/
def takeFrom (w : Work) (d : DirEntry) : Option Nat :=
  match d.peerOwnerOf with
  | some q => if lostNow w q then (d.peers.filter (fun p => p != q && !lostNow w p)).head? else none
  | none => none

/-! ### Which snoops a request needs (Table 5-5, Table 6-4, Table 6-5) -/

/-- Peer snoop kinds: invalidate, share, current, take. -/
def kInv : Nat := 0
def kShr : Nat := 1
def kCur : Nat := 2
def kTake : Nat := 3

def parcelHolders (w : Work) (p : Nat) : List Nat := bitList (eHolders (cadEntry w p)) 64

/-- BISnpInv to every host an entry may name but `skip`: of this device one by one; of a peer's, the named hosts, or
for a coarse entry the region (agent 0x40, R166). -/
def invHosts (e : Env) (w : Work) (p : Nat) (d : DirEntry) (skip : Option Nat) : List Target :=
  let own := (d.hostsOf e.board (parcelHolders w p)).filter (fun a => some (holderOf e.board a) ≠ skip)
  let far := (members (eDevSet (cadEntry w p))).filter (· ≠ e.board)
  own.map (fun a => .host e.board a .inv) ++
  (if d.st = .uncached then []
   else if d.coarse then
     (far.filter (fun x => (List.range 4).any (fun g => d.regions.getLsbD (4 * x + g)))).map (fun x => .host x 0x40 .inv)
   else (d.holders.filter (fun h => h / 64 ≠ e.board ∧ some h ≠ skip)).map (fun h => .host (h / 64) (h % 64) .inv))

/-- Whether grants are recorded for hosts on this line (R151). -/
def tracked (w : Work) (p : Nat) : Bool := eHostCache (cadEntry w p)

/-- The same for a line of a lost set without an entry (R180): no host of a parcel that hosts do not cache (R152). -/
def invAll (e : Env) (w : Work) (p : Nat) (skip : Option Nat) : List Target :=
  let far := (members (eDevSet (cadEntry w p))).filter (· ≠ e.board)
  let hosts := if tracked w p then
      ((parcelHolders w p).filter (fun a => some (holderOf e.board a) ≠ skip)).map (fun a => Target.host e.board a .inv) ++
      far.map (fun x => Target.host x 0x40 .inv)
    else []
  far.map (fun x => .peer x kInv) ++ hosts

def invPeers (d : DirEntry) (skip : Option Nat) : List Target :=
  (d.peers.filter (fun p => some p ≠ skip)).map (fun p => .peer p kInv)

/-- The snoop of another Exclusive owner. -/
def ownerSnp (d : DirEntry) (h : Option Nat) (k : Snp) : List Target :=
  match d.owner with
  | some o => if some o = h then [] else [.host (o / 64) (o % 64) k]
  | none => []

def peerOwnerSnp (d : DirEntry) (skip : Option Nat) (k : Nat) : List Target :=
  match d.peerOwnerOf with
  | some q => if some q = skip then [] else [.peer q k]
  | none => []

/-- The snoops of a request, by the state of its line's entry. -/
def snoopsOf (e : Env) (w : Work) (r : Req) (d : DirEntry) (owned : Bool) : List Target :=
  let h := r.hostField
  let all (skip : Option Nat) (pskip : Option Nat) := invPeers d pskip ++ invHosts e w r.parcel d skip
  match r.op with
  | .rd .i => ownerSnp d h .cur ++ peerOwnerSnp d none kCur
  | .rd .s => ownerSnp d h .data ++ peerOwnerSnp d none kShr
  | .rd .a => all h none
  | .wr _ _ _ _ => if owned then invPeers d none else all h none
  | .evict => []
  | .rmw _ => all none none
  | .mashRd => ownerSnp d none .cur ++ peerOwnerSnp d none kCur
  | .mashWr _ _ _ | .mashRmw _ | .datumWr _ | .recall => all none none
  | .pRdCur => ownerSnp d none .cur ++ peerOwnerSnp d (some r.dev) kCur
  | .pRdS => ownerSnp d none .data ++ peerOwnerSnp d (some r.dev) kShr
  | .pRdX | .pUpg => all none (some r.dev)
  | .pWr _ _ _ => all none (some r.dev)
  | .pWb _ | .pEvict | .touch => []

/-! ### Sending snoops (R207, R239, R730) -/

/-- What becomes of a snoop that is due: sent, held, or taken at once as answered without data. -/
inductive Sent where
  | sent | held | answered
  deriving DecidableEq, Repr

def snpCode (k : Snp) : Nat := match k with | .cur => 0 | .data => 1 | .inv => 2

/-- The port, logical device and head of a host agent (12 Table 12-1). -/
def portOf (a : Nat) : Nat := a / 2
def portMode (w : Work) (p : Nat) : Nat := mgetD w.ports.modes p 0
def headOf (w : Work) (a : Nat) : Nat := if portMode w (portOf a) = 2 then a % 2 else 0

/-- The state of a head (12 Table 12-3): 3 is UP. -/
def headState (w : Work) (p h : Nat) : Nat := if h = 0 then w.fld (aPortStatus p) 18 16 else w.fld (aPortStatus p) 21 19
def headUp (w : Work) (a : Nat) : Bool := headState w (portOf a) (headOf w a) == 3

/-- Every host of a device is LOST: a snoop of its regions has no one to reach (R730). -/
def allLost (w : Work) (d : Nat) : Bool := (List.range 64).all (fun a => (w.host d a).coh == .lost)

def snoopFate (e : Env) (w : Work) (t : Target) : Sent :=
  match t with
  | .host d a _ =>
    if d = e.board then
      match (w.host d a).coh with
      | .active => if headUp w a then .sent else .held
      | .suspect => .held
      | .lost => .answered
    else if (if a < 0x40 then (w.host d a).coh == .lost else allLost w d) then .answered
    else if !reachable w d then .held
    else if a < 0x40 ∧ (w.host d a).coh = .suspect then .held
    else .sent
  | .peer d _ => if lostNow w d then .answered else if !reachable w d then .held else .sent

/-- Emit a snoop: BISnp to a host of this device, PSnpHost or a peer snoop over Daoth. -/
def emitSnoop (e : Env) (w : Work) (d : DirEntry) (line : Nat) (t : Target) : Work :=
  match t with
  | .host dev a k =>
    if dev = e.board then w.emit (.hostSnp a line k)
    else
      let args := if a < 0x40 then [d.parcel, 1, snpCode k, 0, a]
        else [d.parcel, 1, snpCode k, if d.coarse then bitsOf d.regions.toNat (4 * dev + 3) (4 * dev) else 0xF]
      w.emit (.peer { op := 0x1C, dev := dev, line := line, args := args })
  | .peer dev k =>
    let op := if k = kInv then 0x18 else if k = kShr then 0x19 else if k = kCur then 0x1A else 0x1B
    w.emit (.peer { op := op, dev := dev, line := line })

/-- Send a list of snoops, each over the fabric in SNP: those sent and those held. -/
def sendSnoops (e : Env) (w : Work) (acct : Nat) (d : DirEntry) (line : Nat) (ts : List Target) :
    List Target × List Target × Work :=
  ts.foldl (fun (acc : List Target × List Target × Work) t =>
    match snoopFate e acc.2.2 t with
    | .sent => (acc.1 ++ [t], acc.2.1, emitSnoop e (carrySnoop e acc.2.2 acct line t) d line t)
    | .held => (acc.1, acc.2.1 ++ [t], acc.2.2)
    | .answered => acc) ([], [], w)

/-! ### Transactions -/

/-- A promoted line that was not yet copied when the source was lost: it reads as poisoned (04 R138, R143). -/
def cutOff (e : Env) (w : Work) (r : Req) : Bool :=
  isPromoted e w r && w.pool.cut.any (fun x => x.parcel == r.parcel && decide (x.mark ≤ r.off / 65536) &&
    (match x.plots with
     | some ps => ps.contains (sheetIndex (cadEntry w r.parcel) r.off).2
     | none => true))

def findTxn (w : Work) (line : Nat) : Option Txn := w.home.txns.find? (fun t => t.req.line == line)

def delTxn (w : Work) (line : Nat) : Work :=
  { w with home := { w.home with txns := w.home.txns.filter (fun t => t.req.line != line) } }

def putTxn (w : Work) (t : Txn) : Work :=
  { w with home := { w.home with txns := w.home.txns.filter (fun x => x.req.line != t.req.line) ++ [t] } }

/-- The reservation of a line (R190): the retried request of the earliest acceptance frame, ties by the lower pair. -/
def earlier (a b : Req) : Bool :=
  decide (a.frame < b.frame) || (a.frame == b.frame && (decide (a.dev < b.dev) || (a.dev == b.dev && decide (a.agent < b.agent))))

def reservation (w : Work) (line : Nat) : Option Req :=
  (w.home.waiting.filter (fun r => r.line == line)).foldl (fun b r => match b with
    | none => some r
    | some x => if earlier r x then some r else some x) none

/-- Answer a request with RETRY; it waits for its reissue. -/
def retryReq (e : Env) (w : Work) (r : Req) : Work :=
  let w := if w.home.waiting.any (sameReq r) then w else
    { w with home := { w.home with waiting := w.home.waiting ++ [{ r with lat := 3 }] } }
  replyRetry e (carryAnswer e w r false) r

/-- A request that waited for its reissue is served or refused. -/
def dropWaiting (w : Work) (r : Req) : Work :=
  { w with home := { w.home with waiting := w.home.waiting.filter (fun x => !(sameReq r x && x.line == r.line)) } }

/-- Whether the reservation of the line lets a request be served (R190). -/
def reserved (w : Work) (r : Req) : Bool :=
  match reservation w r.line with
  | some q => !sameReq q r
  | none => false

/-- Every data line of a stripe is the zero image, where its channel gives it. -/
def stripeZero (w : Work) (q : Stripe) : Bool :=
  (dataSlots q).all (fun j => !serving w (stripeLine w q j) || (!stripeBad w q j && !w.pool.poison.contains (stripeLine w q j)
    && memLine w.pool.mem (stripeLine w q j) == 0))

/-- Sparge's write of one copy: where its channel takes it. A stripe whose last line becomes zero gets zero parity (17 R649,
04 Table 4-5). -/
def zeroLine (e : Env) (w : Work) (parcel acct line : Nat) : Work :=
  if eClass (cadEntry w parcel) = 1 then
    let (q, j) := stripeAt w line
    let w := match writeStripe e w { accBg parcel e with acct := acct } none q [(j, ⟨0, false⟩)] with
      | (true, w) => w
      | (false, w) => if writable w line then zeroWrite w line else w
    if stripeZero w q && writable w (stripeLine w q q.parity) then setParity w q (0, 0) else w
  else if writable w line then zeroWrite (memWrite w acct line 1) line
  else w

/-- Write a line at its home into every copy that it holds; `far` says that another device holds a copy with the value (R120). The
Sparge engine's write is the zero image in every copy; any other is its class's (R642, 17 R649). -/
def storeLine (e : Env) (w : Work) (r : Req) (d : Payload) (far : Bool) : Bool × Work :=
  let sec := secOf (reqLoc e w r)
  if r.agent = 0x7E then
    let w := zeroLine e (ncDrop w e.board r.line) r.parcel r.acct r.line
    (true, match sec with
      | some s => if s.dev = e.board then zeroLine e w r.parcel r.acct (s.dpa / 64) else w
      | none => w)
  else if (farCopy e w r).isSome then
    let (ok, w) := writeCopy w r.acc (keyOf e w r.parcel) r.line d
    if ok || far then (true, ncFill e w e.board r.line (ncOf d false r.parcel)) else (false, ncDrop w e.board r.line)
  else
    let w := if isPromoted e w r then setDirtyPlot e w r.parcel r.off else w
    homeWrite e w r.acc r.line (match sec with | some s => if s.dev = e.board then some s else none | none => none) d

/-- The entry after a request is served (Table 5-5, Table 6-4), and whether it grants. -/
def entryAfter (w : Work) (r : Req) (d : DirEntry) (owned alone : Bool) : DirEntry × Bool :=
  let h := (r.hostField).getD 0
  let none' : DirEntry := { d.noHosts with peerSet := 0, peerOwned := false, peerOwner := 0 }
  let cls := eClass (cadEntry w r.parcel)
  match r.op with
  | .rd .i | .mashRd | .pRdCur | .touch => (d, false)
  | .rd .s => if tracked w r.parcel then (d.addSharer h, true) else (d, false)
  | .rd .a => if tracked w r.parcel then (none'.exclusiveAt h, true) else (none', false)
  | .wr m _ _ _ =>
    if owned && tracked w r.parcel then
      match m with
      | .i => (none', false)
      | .s => (none'.addSharer h, true)
      | .a => (none'.exclusiveAt h, true)
    else (none', false)
  | .evict => (d.remove h, false)
  | .rmw _ | .mashWr _ _ _ | .mashRmw _ | .datumWr _ | .pWr _ _ _ | .recall => (none', false)
  | .pRdS => (d.addPeer r.dev (alone && (cls == 0 || cls == 1)), true)
  | .pRdX | .pUpg => (none'.addPeer r.dev true, true)
  | .pWb _ | .pEvict => (d.dropPeer r.dev, false)

/-- Where a write goes after its snoops: to the mirror first for TWIN (R114, R236), else into its copies. The first
component is none while the mirror's acknowledgement is awaited. -/
def beginWrite (e : Env) (w : Work) (t : Txn) (d : Payload) : Option Bool × Work :=
  match (if t.req.agent = 0x7E then none else farCopy e w t.req) with
  | some s =>
    if reachable w s.dev then
      (none, putTxn (sendMirror e w t.req s d) { t with mirror := some (s.dev, d), waits := [], held := [] })
    else
      let (ok, w) := storeLine e (setDirtyPlot e w t.req.parcel t.req.off) t.req d false
      (some ok, w)
  | none => let (ok, w) := storeLine e w t.req d false; (some ok, w)

/-- The value that a write stores: a full line, or bytes merged into the line (15 R587). -/
def mergedWrite (old : Payload) (d : Payload) (mask : BitVec 64) (full : Bool) : Payload :=
  if full then d else ⟨mergeLine old.data d.data mask, old.poison || d.poison⟩

/-! ### Descriptors that a sync event completes (08, 10) -/

def descKey (ring n : Nat) : Nat := 2 ^ 32 * ring + n

def getDesc (w : Work) (ring n : Nat) : Option Desc := mget w.mash.descs (descKey ring n)

def putDesc (w : Work) (d : Desc) : Work :=
  { w with mash := { w.mash with descs := mset w.mash.descs (descKey d.ring d.n) d } }

/-- A descriptor comes to its completion: status, result, bytes done; its record is written by
COMPLETION_RECORD_WRITE. -/
def finishDesc (w : Work) (ring n status result bytes : Nat) : Work :=
  match getDesc w ring n with
  | some d => putDesc w { d with phase := .done, status := status, result := result, bytes := bytes }
  | none => w

/-- A request of a host that is LOST by now is granted nothing (R214). -/
def ungranted (w : Work) (r : Req) : Req :=
  if (r.hostField.map (isLostHost w)) = some true then
    { r with op := match r.op with
      | .rd _ => .rd .i
      | .wr _ d k f => .wr .i d k f
      | o => o }
  else r

/-- What a closed transaction still owes: messages, and completions of descriptors. -/
def payOwed (w : Work) (t : Txn) : Work :=
  t.finish.foldl (fun w x => finishDesc w x.1 x.2.1 x.2.2.1 x.2.2.2 0) { w with out := t.owed.reverse ++ w.out }

/-- Close a transaction: update the entry and answer, for a write of outcome `ok` whose line's old value is `old`. -/
def closeTxn (e : Env) (w : Work) (t : Txn) (ok : Bool) (old : Payload) : Work :=
  let r := t.req
  let d := dirGet w r.line
  let (d', g) := entryAfter w (ungranted w r) { d with parcel := r.parcel } t.owned t.alone
  let d' := if d'.inUse then d' else d'.noHosts
  let w := payOwed (delTxn w r.line) t
  let w := if g || d' ≠ d then dirPut e (if g then freeStale e w r.line else w) r.acct r.line d' g else w
  let c : HostCmp := if !tracked w r.parcel then .cmp else match r.op with
    | .rd .s => .cmpS
    | .rd .a => .cmpE
    | _ => .cmp
  match r.op with
  | .rd _ | .mashRd | .pRdCur => homeData e w r c old
  | .pRdS => peerReply (carryAnswer e w r true) r 0x17 (some old) [if d'.peerOwned && d'.peerOwner == r.dev then 1 else 0]
  | .pRdX => peerReply (carryAnswer e w r true) r 0x17 (some old) [2]
  | .pUpg => if d.peers.contains r.dev then peerReply (carryAnswer e w r false) r 0x17 none [2]
      else peerReply (carryAnswer e w r true) r 0x17 (some old) [2]
  | .wr _ _ _ _ | .evict | .mashWr _ _ _ | .datumWr _ | .pWr _ _ _ | .pWb _ | .pEvict => homeCmp e w r ok
  | .rmw op | .mashRmw op =>
    if ok then homeRmw e w r (rmwLine op old.data (r.off % 64)).1 old.poison else homeCmp e w r false
  | .touch => w
  | .recall => match t.next with
    | some q => { w with home := { w.home with ready := w.home.ready ++ [q] } }
    | none => w

/-- Serve a transaction whose snoops are all answered: read, write or both, then close it; a read may have to wait for
a copy on another device, a write for its mirror. `old` is given when the copy has arrived. -/
def serveTxn (e : Env) (w : Work) (t : Txn) (got : Option Payload) : Work :=
  let r := t.req
  let sec := secOf (reqLoc e w r)
  let needRead : Bool := match r.op with
    | .rd _ | .mashRd | .pRdCur | .pRdS | .pRdX | .pUpg | .rmw _ | .mashRmw _ => true
    | .wr _ _ _ full | .mashWr _ _ full | .pWr _ _ full => !full
    | _ => false
  let t := if r.lat < 2 then { t with req := { r with lat := if (ncGet w e.board r.line).isSome then 0 else 1 } } else t
  let (res, w) : RdRes × Work :=
    match got with
    | some p => (.got p, w)
    | none => match t.taken with
      | some p => (.got p, w)
      | none => if needRead then homeRead e w r.acc r.line sec else (.got ⟨0, false⟩, w)
  match res with
  | .remote p =>
    putTxn ((carryToPeer e w r.acct .request p.dev r.line false).emit (.peer {
      op := 0x10, dev := p.dev, tag := r.tag, line := p.dpa / 64, ext := some (r.parcel, r.gen, r.off, r.frame)
      args := [e.board, 0x7F, 1] }))
      { t with copy := some p, waits := [], held := [], phase := 2 }
  | .got old =>
    let write (w : Work) (d : Payload) : Work :=
      match beginWrite e w { t with taken := some old } d with
      | (some ok, w) => closeTxn e w t ok old
      | (none, w) => w
    match r.op with
    | .wr _ d m full | .mashWr d m full | .pWr d m full => write w (mergedWrite old d m full)
    | .datumWr d => write w d
    | .rmw op | .mashRmw op =>
      if old.poison then closeTxn e w t true old
      else write w ⟨(rmwLine op old.data (r.off % 64)).2, false⟩
    | _ => closeTxn e w t true old

/-- The main snoops of a transaction (Table 5-5, Table 6-4, Table 6-5), or those of a line of a lost set without an entry (R180).
A host that asks to write such a line is snooped too, but its own answer, which follows its write (R191), is not waited for. -/
def mainSnoops (e : Env) (w : Work) (t : Txn) (d : DirEntry) : Txn × Work :=
  let lostSet := setLost w t.req.line && !d.inUse
  let skip := match t.req.op with
    | .wr _ _ _ _ | .evict => t.req.hostField
    | _ => none
  let ts := if lostSet then invAll e w t.req.parcel skip else snoopsOf e w t.req d t.owned
  let (s, h, w) := sendSnoops e w t.req.acct { d with parcel := t.req.parcel } t.req.line ts
  let w := match skip with
    | some x => if lostSet && tracked w t.req.parcel && x / 64 == e.board && snoopFate e w (.host e.board (x % 64) .inv) == .sent then
        (carrySnoop e w t.req.acct t.req.line (.host e.board (x % 64) .inv)).emit (.hostSnp (x % 64) t.req.line .inv)
      else w
    | none => w
  ({ t with waits := s, held := h, phase := 1, since := e.clk.now, alone := d.st == .uncached && (d.peers.filter (· ≠ t.req.dev)).isEmpty }, w)

/-- Survivor `p` becomes the owner in place of the lost one, subject to its answer to PSnpTake (Table 6-6). -/
def inherit (e : Env) (w : Work) (acct line : Nat) (d : DirEntry) (p : Nat) : Work :=
  let d := match d.peerOwnerOf with
    | some q => d.dropPeer q
    | none => d
  dirPut e w acct line (d.addPeer p true) true

/-- Go on with a transaction: while snoops are awaited it stays open; when all are answered, an owner's copy that was
lost is taken from a survivor (Table 6-6), peer holders are recalled before hosts (R178), and then the request is served. -/
def advanceTxn (e : Env) (w : Work) (t : Txn) : Work :=
  if !t.waits.isEmpty || !t.held.isEmpty || !t.taking.isEmpty then putTxn w t
  else if t.phase ≠ 0 then serveTxn e w t none
  else
    let w := treatLost e w t.req.parcel t.req.line
    let d := dirGet w t.req.line
    let (t, w, first) : Txn × Work × List Target := match takeFrom w d with
      | some p => ({ t with heir := d.peerOwnerOf }, inherit e w t.req.acct t.req.line d p, [.peer p kTake])
      | none => (t, w, if t.req.op = .recall then invPeers d none else [])
    let (s, h, w) := sendSnoops e w t.req.acct d t.req.line first
    if !s.isEmpty || !h.isEmpty then putTxn w { t with waits := s, held := h, since := e.clk.now }
    else
      let (t, w) := mainSnoops e w t d
      if t.waits.isEmpty && t.held.isEmpty then serveTxn e w t none else putTxn w t

/-- Open the transaction of a request (R189). -/
def openReq (e : Env) (w : Work) (r : Req) (next : Option Req) : Work :=
  let w := treatLost e (checkSet e w r.acct r.line) r.parcel r.line
  let d := dirGet w r.line
  advanceTxn e w { req := r, waits := [], owned := decide (d.owner = r.hostField ∧ r.hostField ≠ none), next := next }

/-- A request that may grant and so needs a directory entry. -/
def grants (w : Work) (r : Req) : Bool :=
  match r.op with
  | .rd .s | .rd .a => tracked w r.parcel
  | .pRdS | .pRdX | .pUpg => true
  | _ => false

/-- The recall of a victim way (R178), with the request that needs it. -/
def recallReq (e : Env) (v : DirWay) (r : Req) : Req :=
  { r with op := .recall, dev := e.board, agent := 0x7F, tag := 0, line := v.line, parcel := v.entry.parcel, tile := none,
           ans := .normal, after := none }

/-- Whether an open transaction takes this request in (R228, R728): a write-back of a host that it has snooped, by name or by region,
and that has not answered; PWb and PEvict. -/
def takes (t : Txn) (r : Req) : Bool :=
  match r.op with
  | .wr _ _ _ _ | .evict => t.waits.any (fun x => match x with
    | .host d a _ => d == r.dev && (a == r.agent || decide (0x40 ≤ a))
    | _ => false)
  | .pWb _ | .pEvict => true
  | _ => false

/-- A write-back is in its copies: its entry follows, and it completes. -/
def tookWrite (e : Env) (w : Work) (r : Req) (d : Payload) (far : Bool) : Work :=
  let x := dirGet w r.line
  let (ok, w) := storeLine e w r d far
  let (x', _) := entryAfter w r x (decide (x.owner = r.hostField)) false
  homeCmp e (dirPut e w r.acct r.line x' true) r ok

/-- A write-back within an open transaction: to the mirror first for TWIN (R114). -/
def takeWrite (e : Env) (w : Work) (t : Txn) (r : Req) (d : Payload) : Work :=
  match farCopy e w r with
  | some s =>
    if reachable w s.dev then putTxn (sendMirror e w r s d) { t with taking := t.taking ++ [(s.dev, r, d)] }
    else tookWrite e (setDirtyPlot e w r.parcel r.off) r d false
  | none => tookWrite e w r d false

/-- PWb and PEvict (Table 6-4): only the owner's acts. -/
def peerGives (e : Env) (w : Work) (r : Req) : Work :=
  let d := dirGet w r.line
  if d.peerOwned ∧ d.peerOwner = r.dev then
    let (ok, w) : Bool × Work := match r.op with
      | .pWb p => storeLine e w r p false
      | _ => (true, w)
    homeCmp e (dirPut e w r.acct r.line (d.dropPeer r.dev) false) r ok
  else homeCmp e w r true

/-- Take a request into the open transaction of its line. -/
def takeIn (e : Env) (w : Work) (t : Txn) (r : Req) : Work :=
  match r.op with
  | .wr _ p m full =>
    let (res, w) := if full then (RdRes.got p, w) else homeRead e w r.acc r.line (secOf (reqLoc e w r))
    let old := match res with | .got x => x | .remote _ => ⟨0, true⟩
    takeWrite e w t r (mergedWrite old p m full)
  | .evict => homeCmp e (dirPut e w r.acct r.line ((dirGet w r.line).remove (holderOf r.dev r.agent)) false) r true
  | _ => peerGives e w r

/-- Accept a request at its home: take in the write-backs of R228 and R728, answer RETRY while the line is open or
reserved by another (R189, R190), evict a way where the entry needs one (R177), else open it. -/
def acceptReq (e : Env) (w : Work) (r : Req) : Work :=
  match findTxn w r.line with
  | some t => if takes t r then takeIn e w t r else retryReq e w r
  | none =>
    match r.op with
    | .pWb _ | .pEvict => peerGives e w r
    | _ =>
      if reserved w r then retryReq e w r
      else match (if grants w r then victim w r.line else none) with
        | some v =>
          if (findTxn w v.line).isSome then retryReq e w r
          else openReq e (dropWaiting w r) (recallReq e v r) (some r)
        | none => openReq e (dropWaiting w r) r none

/-- Serve the requests whose way has been freed (R177). -/
def settle (e : Env) (w : Work) (fuel : Nat) : Work :=
  match fuel with
  | 0 => w
  | n + 1 =>
    match w.home.ready with
    | [] => w
    | r :: rest => settle e (acceptReq e { w with home := { w.home with ready := rest } } r) n

/-- A request at its home. -/
def homeReq (e : Env) (w : Work) (r : Req) : Work := settle e (acceptReq e w r) 16

/-! ### Answers to snoops -/

/-- A host that is no longer a holder of the parcel (R193): of this device by the holders, of another by dev_set; no host is once the
parcel is not ASSIGNED. -/
def unheldHost (e : Env) (w : Work) (p dev a : Nat) : Bool :=
  eState (cadEntry w p) != stAssigned ||
  (if dev = e.board then !bitAt (eHolders (cadEntry w p)) a else !bitAt (eDevSet (cadEntry w p)) dev)

/-- The lost-line treatment of a snooped owner that is no longer a holder of the parcel (R194): whether it applies, and its effect. -/
def unheld (e : Env) (w : Work) (p acct line dev a : Nat) : Bool × Work :=
  let d := dirGet w line
  if d.owner = some (holderOf dev a) ∧ unheldHost e w p dev a = true then
    (true, dirPut e (raiseRun e (loseLine e w p line) 0x3008 p line dev a) acct line d.noHosts false)
  else (false, w)

/-- Whether a snoop of a transaction was for this host. -/
def isHost (dev a : Nat) (t : Target) : Bool :=
  match t with | .host d x _ => d == dev && x == a | .peer _ _ => false

/-- The entry after a host's answer: BIRspI removes it, BIRspS leaves it a sharer, BIRspE as it was (Table 5-5). -/
def afterRsp (d : DirEntry) (h : Nat) (k : Snp) (r : SnpResp) : DirEntry :=
  match k, r with
  | .inv, _ => d.remove h
  | _, .i => d.remove h
  | _, .s => if d.owner = some h then { d with st := .shared } else d
  | _, .e => d

/-- The effect of a host's answer on the transaction that awaits it (R191, R727). -/
def hostAnswer (e : Env) (w : Work) (t : Txn) (dev a : Nat) (r : SnpResp) : Work :=
  match t.waits.find? (isHost dev a) with
  | some (.host _ _ k) =>
    let h := holderOf dev a
    let line := t.req.line
    let rest := t.waits.filter (fun x => !isHost dev a x)
    let w := carrySnoopAnswer e w t.req.acct line (.host dev a k) false
    let d := dirGet w line
    if k = .data ∧ r = .e then
      let (s, hd, w) := sendSnoops e w t.req.acct d line [.host dev a .inv]
      settle e (advanceTxn e w { t with waits := rest ++ s, held := t.held ++ hd, since := e.clk.now }) 16
    else
      let (lost, w) := unheld e w t.req.parcel t.req.acct line dev a
      let d' := if a < 0x40 then afterRsp d h k r else d
      let w := if lost || d' == d then w else dirPut e w t.req.acct line d' false
      settle e (advanceTxn e w { t with waits := rest }) 16
  | _ => w

/-- The effect of a peer's answer (Table 6-4, Table 6-5, Table 6-6): its state, its data and whether it is dirty. -/
def peerAnswer (e : Env) (w : Work) (t : Txn) (dev : Nat) (st : PeerSt) (dirty : Bool) (p : Option Payload) : Work :=
  match t.waits.find? (fun x => match x with | .peer d _ => d == dev | _ => false) with
  | some (.peer _ k) =>
    let line := t.req.line
    let rest := t.waits.filter (fun x => match x with | .peer d _ => d != dev | _ => true)
    let w := carrySnoopAnswer e w t.req.acct line (.peer dev k) p.isSome
    let d := dirGet w line
    let w := match p with
      | some x => if dirty && k == kInv then (homeWriteBack e w t.req.acc line x).2 else w
      | none => w
    let taken := match p with
      | some x => if k = kInv ∧ dirty = false then t.taken
          else if k = kTake then t.taken else some x
      | none => t.taken
    let d' := match st with
      | .i => d.dropPeer dev
      | .s => if d.peerOwned ∧ d.peerOwner = dev then { d with peerOwned := false, peerOwner := 0 } else d
      | _ => d
    let w := if d' = d then w else dirPut e w t.req.acct line d' false
    let t := { t with waits := rest, taken := taken }
    if k = kTake ∧ st = .i then
      match d'.peers.find? (reachable w) with
      | some p =>
        let w := inherit e w t.req.acct line d' p
        let (s, h, w) := sendSnoops e w t.req.acct d' line [.peer p kTake]
        putTxn w { t with waits := rest ++ s, held := t.held ++ h, since := e.clk.now }
      | none => settle e (advanceTxn e (raiseRun e (loseLine e w t.req.parcel line) 0x300A t.req.parcel line (t.heir.getD dev) 0) t) 16
    else settle e (advanceTxn e w t) 16
  | _ => w

/-- A held snoop of a peer whose loss is effective: its transaction looks at its entry again (Table 6-6). -/
def lostPeer (w : Work) (t : Target) : Bool := match t with | .peer d _ => lostNow w d | .host _ _ _ => false

/-- A held snoop is due again or taken as answered: act on every transaction that holds one for a target that `sel`
picks (R207, R208, R209, R239). -/
def releaseHeld (e : Env) (w : Work) (sel : Target → Bool) : Work :=
  (w.home.txns.filter (fun t => t.held.any sel)).foldl (fun w t =>
    let d := dirGet w t.req.line
    let w := treatLost e w t.req.parcel t.req.line
    let (s, h, w) := sendSnoops e w t.req.acct d t.req.line (t.held.filter sel)
    settle e (advanceTxn e w { t with waits := t.waits ++ s, held := t.held.filter (fun x => !sel x) ++ h, since := e.clk.now
                                      phase := if t.held.any (lostPeer w) then 0 else t.phase }) 16) w

/-- Snoops sent to a target that will not answer are held (R207, R239). -/
def holdSent (w : Work) (sel : Target → Bool) : Work :=
  { w with home := { w.home with txns := w.home.txns.map (fun t =>
      { t with waits := t.waits.filter (fun x => !sel x), held := t.held ++ t.waits.filter sel }) } }

/-- The first write-back of a transaction that device `dev` mirrors. -/
def takingOf (t : Txn) (dev : Nat) : Option (Nat × Req × Payload) := t.taking.find? (fun x => x.1 == dev)

/-- The mirror's acknowledgement: the home writes its own copy and completes the write (R114); `out` says that the mirror could not
write its copy, whose plot is marked first (R133). -/
def mirrorAcked (e : Env) (w : Work) (t : Txn) (dev : Nat) (out : Bool) : Work :=
  let mark (w : Work) (r : Req) : Work := if out then setDirtyPlot e w r.parcel r.off else w
  match t.mirror with
  | some (m, d) =>
    if m ≠ dev then w else
    let (ok, w) := storeLine e (mark w t.req) t.req d (!out)
    match t.rewrite, farCopy e w t.req with
    | some d2, some s =>
      if reachable w s.dev then putTxn (sendMirror e (ncFill e w e.board t.req.line (ncOf d2 false t.req.parcel)) t.req s d2)
          { t with mirror := some (s.dev, d2), rewrite := none }
      else
        let (ok, w) := storeLine e (setDirtyPlot e w t.req.parcel t.req.off) t.req d2 false
        settle e (closeTxn e w { t with mirror := none, rewrite := none } ok d2) 16
    | some d2, none =>
      let (ok, w) := storeLine e w t.req d2 false
      settle e (closeTxn e w { t with mirror := none, rewrite := none } ok d2) 16
    | _, _ => settle e (closeTxn e w { t with mirror := none } ok (t.taken.getD d)) 16
  | none =>
    match takingOf t dev with
    | some x =>
      let t := { t with taking := t.taking.erase x }
      settle e (advanceTxn e (tookWrite e (mark (putTxn w t) x.2.1) x.2.1 x.2.2 (!out)) t) 16
    | none => w

/-- The mirror has refused a mirror write (Table 3-5): the write completes with an error (log 162). -/
def mirrorRefused (e : Env) (w : Work) (t : Txn) (dev : Nat) : Work :=
  match t.mirror with
  | some (m, d) => if m ≠ dev then w else settle e (closeTxn e w { t with mirror := none } false (t.taken.getD d)) 16
  | none =>
    match takingOf t dev with
    | some x =>
      let t := { t with taking := t.taking.erase x }
      settle e (advanceTxn e (homeCmp e (putTxn w t) x.2.1 false) t) 16
    | none => w

/-- The data of a copy on another device has arrived (R115). -/
def copyArrived (e : Env) (w : Work) (t : Txn) (p : Payload) : Work :=
  let w := match t.copy with
    | some c => carryFromPeer e w t.req.acct .answer c.dev t.req.line true
    | none => w
  let moving := movingLine e w t.req.line
  let up := serving w t.req.line && !moving
  let p := if moving && p.poison && serving w t.req.line then (rawRead w (keyOf e w t.req.parcel) t.req.line).getD p else p
  let w := if up && !p.poison then
      raise e (rawWrite w (keyOf e w t.req.parcel) t.req.line p)
        { ty := 0x2003, parcel := t.req.parcel, addr := 64 * t.req.line }
    else if up then raiseUe e (rawWrite w (keyOf e w t.req.parcel) t.req.line ⟨0, true⟩) t.req.line
    else if t.req.op = .touch ∧ writable w t.req.line = true then rawWrite w (keyOf e w t.req.parcel) t.req.line p
    else w
  settle e (serveTxn e w { t with copy := none } (some p)) 16

end Sys2Proof.Machine
end

