-- ==== Sys2Proof/Machine/Sync.lean ====
section
/-! DEFINITION. The sync engines (10): object lines, arrivals, tickets, signals, removal and release of waiters. -/

namespace Sys2Proof.Machine

/-- Status codes (08 Table 8-7). -/
def stOk : Nat := 0x00
def stPoisoned : Nat := 0x01
def stTranslation : Nat := 0x03
def stPermission : Nat := 0x04
def stRevokedParcel : Nat := 0x05
def stBackpressure : Nat := 0x06
def stArith : Nat := 0x07
def stCancelled : Nat := 0x02
def stDeferred : Nat := 0x08
def stInvalid : Nat := 0x09
def stDuplicate : Nat := 0x0B
def stOverrun : Nat := 0x0C

/-! ### The object line (10 Table 10-1) -/

def oKind (o : Nat) : Nat := bitsOf o 7 0
def oSense (o : Nat) : Nat := bitsOf o 8 8
def oStale (o : Nat) : Bool := bitAt o 9
def oParts (o : Nat) : Nat := bitsOf o 31 16
def oArrived (o : Nat) : Nat := bitsOf o 47 32
def oEarly (o : Nat) : Nat := bitsOf o 63 48
def oNext (o : Nat) : Nat := bitsOf o 63 32
def oGen (o : Nat) : Nat := bitsOf o 95 64
def oOver (o : Nat) : Nat := bitsOf o 127 96
def oHeld (o : Nat) : Nat := bitsOf o 143 128
def oRun (o : Nat) : Nat := bitsOf o 159 144

def kBarrier : Nat := 1
def kGate : Nat := 2

/-- The warm-reset count (18 Table 18-5, word 4). -/
def warmCount (e : Env) : Nat := e.backupWord 4

/-- The run fields of this device's engines: device and the low 14 bits of the count (R428). -/
def runNow (e : Env) : Nat := warmCount e % 2 ^ 14 + 2 ^ 14 * e.board

/-- An object of a SYNC parcel with the position it is reached by. -/
structure Obj where
  parcel : Nat
  off : Nat
  line : Nat
  deriving DecidableEq, Repr

/-- The line's value as a number; none when it reads poisoned, or was not copied before its source was lost. -/
def objRead (e : Env) (w : Work) (o : Obj) : Option Nat × Work :=
  if cutOff e w (ownReq e w .mashRd o.parcel o.off o.line) then (none, w)
  else match homeRead e w (accOwn o.parcel e) o.line (secOf (locate e w (cadEntry w o.parcel) o.off)) with
  | (.got p, w) => (if p.poison then none else some p.data.toNat, w)
  | (.remote _, w) => (none, w)

/-- The engine writes the line. For a TWIN parcel the value goes to the mirror first, and the line stays open until the
acknowledgement (04 R114, 06 R236; log 14); the near cache shows it meanwhile. A later value waits for the mirror write before it. -/
def objWrite (e : Env) (w : Work) (o : Obj) (v : Nat) : Work :=
  let d : Payload := ⟨BitVec.ofNat 512 v, false⟩
  let r := ownReq e w (.datumWr d) o.parcel o.off o.line
  match farCopy e w r with
  | none => (storeLine e w r d false).2
  | some s =>
    if !reachable w s.dev then (storeLine e (setDirtyPlot e w o.parcel o.off) r d false).2
    else
      let w := ncFill e w e.board o.line (ncOf d false o.parcel)
      match findTxn w o.line with
      | some t => if t.mirror.isSome then putTxn w { t with rewrite := some d } else (storeLine e (sendMirror e w r s d) r d true).2
      | none => putTxn (sendMirror e w r s d) { req := r, waits := [], mirror := some (s.dev, d), phase := 1 }

/-- The engine's own mirror write of a line that awaits its acknowledgement. -/
def mirrorOpen (w : Work) (line : Nat) : Option Txn :=
  (findTxn w line).filter (fun t => t.mirror.isSome && t.req.agent == 0x7F)

/-- The completion of a request that the engine has served: after its line's mirror write (04 R114). -/
def syncCmp (e : Env) (w : Work) (r : Req) (ok : Bool) : Work :=
  match mirrorOpen w r.line with
  | some t => putTxn w { t with req := { r with ans := if ok then r.ans else if r.ans = .normal then .error else r.ans } }
  | none => homeCmp e w r ok

/-- A message that tells of a served sync operation, and the completion of a descriptor by one: likewise. -/
def syncTell (w : Work) (line : Nat) (o : Out) : Work :=
  match mirrorOpen w line with
  | some t => putTxn w { t with owed := t.owed ++ [o] }
  | none => w.emit o

def syncFinish (w : Work) (line ring n status result : Nat) : Work :=
  match mirrorOpen w line with
  | some t => putTxn w { t with finish := t.finish ++ [(ring, n, status, result)] }
  | none => finishDesc w ring n status result 0

/-- A full-line write that arms a line: the checks of R399. -/
def armOk (v : Nat) : Bool :=
  let reserved := bitsOf v 447 330 == 0 && bitsOf v 255 160 == 0 && bitsOf v 318 316 == 0 && bitsOf v 15 10 == 0
  let ro := bitsOf v 329 256 == 0 && bitsOf v 159 96 == 0 && !oStale v
  reserved && ro &&
  (if oKind v = kBarrier then decide (1 ≤ oParts v) && oArrived v == 0 && oEarly v == 0
   else oKind v == kGate && oGen v == oNext v && oParts v == 0 && oSense v == 0)

/-! ### Who performs a sync operation (10 R403, R405) -/

structure SyncWho where
  dev : Nat
  agent : Nat
  ctx : Option Nat
  ring : Nat
  n : Nat
  tag : Nat
  deriving DecidableEq, Repr

/-- Outcomes of an operation: counted or served with a result, held, an overrun, refused with a SYNC_REFUSED record,
or no entry free (R421). -/
inductive SyncRes where
  | ok (result : Nat)
  | held
  | overrun
  | refused
  | full
  deriving DecidableEq, Repr

/-- Record a signaller in the line (Table 10-1). -/
def signed (e : Env) (o : Nat) (q : SyncWho) : Nat :=
  let o := putBits (putBits (putBits o 329 328 q.dev) 327 320 q.agent) 303 256 e.clk.frame
  match q.ctx with
  | some c => putBits (putBits o 319 319 0) 315 304 c
  | none => putBits (putBits o 319 319 1) 315 304 0

def syncRecord (e : Env) (w : Work) (ty sev : Nat) (o : Obj) (q : SyncWho) (count : Nat) : Work :=
  raise e w { ty := ty, sev := sev, parcel := o.parcel, dev := q.dev, agent := q.agent, ctx := q.ctx,
              addr := 64 * o.line, count := count, host := if q.dev = e.board ∧ q.agent < 0x40 then some q.agent else none }

/-- Entries of the engine that homes a line (R421), placeholders included. -/
def engineEntries (w : Work) (line : Nat) : List Waiter :=
  w.sync.waiters.filter (fun x => dieOf w x.line == dieOf w line && x.st != .void)

/-- Room for one more waiter: 16,384, or in PARTITIONED mode an equal part among the partitions with tracts. -/
def engineRoom (w : Work) (line agent : Nat) : Bool :=
  if partitioned w then
    decide (((engineEntries w line).filter (fun x => partOf w x.agent == partOf w agent)).length < partShare w 16384)
  else decide ((engineEntries w line).length < 16384)

/-- Tell a waiter's ring scheduler how its wait ended (R405): its descriptor on this device, a SYNC_RELEASE message to
a peer, or a release owed while that device is absent (R424). -/
def tellWaiter (e : Env) (w : Work) (x : Waiter) (status result : Nat) : Work :=
  if x.dev = e.board then finishDesc (carryTold w acctDev x.ring x.agent x.line) x.ring x.n status result 0
  else if isAbsent w x.dev then
    { w with sync := { w.sync with owed := w.sync.owed ++ [(x.dev, x.ring, x.n, status, result)] } }
  else (carryToPeer e w acctDev .answer x.dev x.line false).emit (.peer { op := 0x41, dev := x.dev, dst := x.agent, tag := x.tag, args := [x.ring, x.n, status, result] })

def dropWaiter (w : Work) (x : Waiter) : Work :=
  { w with sync := { w.sync with waiters := w.sync.waiters.filter (· != x) } }

/-- Enter a waiter behind every other one (R422). -/
def addWaiter (w : Work) (x : Waiter) : Work :=
  let seq := (w.sync.waiters ++ w.sync.recent).foldl (fun m y => max m (y.seq + 1)) 0
  { w with sync := { w.sync with waiters := w.sync.waiters ++ [{ x with seq := seq }] } }

def abandonTicket (w : Work) (line t : Nat) : Work :=
  { w with sync := { w.sync with gone := w.sync.gone ++ [(line, t)] } }

/-- A waiter of an object that one event releases: HELD ones are told; a SAVED one leaves its answer to its restore
(R430, R433), its placeholder staying. -/
def releaseWaiter (e : Env) (w : Work) (x : Waiter) (status result : Nat) : Work × Nat :=
  if x.st = .held then (tellWaiter e (dropWaiter w x) x status result, 1) else (w, 0)

/-- Keep the run fields while waiters are held (R428). -/
def withHeld (e : Env) (o held : Nat) : Nat :=
  let o := putBits o 143 128 (min held 65535)
  if held = 0 then o else putBits o 159 144 (runNow e)

/-- First use after the waiters were lost (R429): stale is set and recorded once. -/
def staleCheck (e : Env) (w : Work) (o : Obj) (v : Nat) (q : SyncWho) : Nat × Work :=
  if oHeld v ≠ 0 ∧ oRun v ≠ runNow e ∧ oStale v = false then
    let v := putBits v 9 9 1
    (v, syncRecord e (objWrite e w o v) 0x6007 1 o q 1)
  else (v, w)

/-- The entry of a wait (Table 10-9), with its expiry B(f + T) for a non-zero timeout T (R417). -/
def mkWaiter (e : Env) (o : Obj) (q : SyncWho) (gate : Bool) (value timeout : Nat) : Waiter :=
  { line := o.line, gate := gate, value := value, dev := q.dev, agent := q.agent, ctx := q.ctx.getD 0, ring := q.ring,
    n := q.n, tag := q.tag, start := e.clk.frame,
    expiry := if timeout = 0 then none else some (e.clk.frame + timeout) }

/-! ### Waiters that go without a release (R416-R419) -/

/-- (now - t) mod 2^32 lies between 1 and 2^31: ticket or generation t is passed (R413). -/
def passed (now t : Nat) : Bool :=
  let x := (2 ^ 32 + now - t) % 2 ^ 32
  decide (1 ≤ x) && decide (x ≤ 2 ^ 31)

/-- Remove a waiter that is not released (R416, R422): its ticket is abandoned, a barrier arrival stays counted; the
object's held count and abandoned count follow. `told` gives the status its descriptor completes with, none where it
is not completed (R424, R427). -/
def removeWaiter (e : Env) (w : Work) (x : Waiter) (parcel off : Nat) (told : Option Nat) : Work :=
  let o : Obj := ⟨parcel, off, x.line⟩
  let w := dropWaiter w x
  if x.st = .void then w
  else
  let (v?, w) := objRead e w o
  let w := match v? with
    | none => w
    | some v =>
      let live := x.gate && !passed (oGen v) x.value
      let v := if live then putBits v 127 96 (satAdd 32 (oOver v) 1) else v
      let w := if live then abandonTicket w x.line x.value else w
      objWrite e w o (putBits v 143 128 (oHeld v - 1))
  let w := { w with sync := { w.sync with recent := w.sync.recent ++ [{ x with st := .abandoned }] } }
  match told with
  | some s => if x.st = .held then tellWaiter e w x s (if x.gate then x.value else 0) else w
  | none => w

/-- A waiter's time has run out (R417). -/
def expired (e : Env) (x : Waiter) : Bool :=
  x.st == .held && (match x.expiry with | some f => decide (f ≤ e.clk.frame) | none => false)

/-- The expiry of one waiter (R418). -/
def expireWaiter (e : Env) (w : Work) (o : Obj) (x : Waiter) : Work :=
  raise e (removeWaiter e w x o.parcel o.off (some stCancelled))
    { ty := 0x6005, parcel := o.parcel, ctx := some x.ctx, dev := x.dev, agent := x.agent, addr := 64 * x.line,
      host := if x.dev = e.board then some x.agent else none }

/-- The expiries placed on an object come before every operation that its home opens from their boundary on (R417, R419). -/
def settleExpired (e : Env) (w : Work) (o : Obj) : Work :=
  (w.sync.waiters.filter (fun x => x.line == o.line && expired e x)).foldl (fun w x => expireWaiter e w o x) w

/-! ### Barriers (R408-R412) -/

def reached (gen v : Nat) : Bool := gen == v || passed gen v

/-- Complete a generation when arrived has reached N (R410). -/
def completeGen (e : Env) (w : Work) (o : Obj) (v : Nat) (q : SyncWho) : Nat × Work :=
  if oArrived v ≠ oParts v then (v, w)
  else
    let g := (oGen v + 1) % 2 ^ 32
    let v := putBits (putBits (putBits (putBits v 95 64 g) 8 8 (1 - oSense v)) 47 32 (oEarly v)) 63 48 0
    let v := signed e v q
    let freed := w.sync.waiters.filter (fun x => x.line == o.line && !x.gate && reached g x.value)
    let (w, k) := freed.foldl (fun (a : Work × Nat) x =>
      let (w, n) := releaseWaiter e a.1 x stOk 0
      (w, a.2 + n)) (w, 0)
    (withHeld e v (oHeld v - k), w)

/-- An arrival at a barrier (Table 10-3); with `wait` the arrival is held until its generation is reached
(and told so by `tellWaiter`, at once when it completes the generation itself). -/
def syncArrive (e : Env) (w : Work) (o : Obj) (q : SyncWho) (sense : Nat) (wait : Bool) (timeout : Nat) : SyncRes × Work :=
  let w := settleExpired e w o
  let (v?, w) := objRead e w o
  match v? with
  | none => (.refused, syncRecord e w 0x6001 0 o q 1)
  | some v =>
    let (v, w) := staleCheck e w o v q
    if oKind v ≠ kBarrier ∨ oStale v = true then (.refused, syncRecord e w 0x6001 0 o q 1)
    else
      let onTime := sense = oSense v
      if ¬onTime ∧ oEarly v ≥ oArrived v then
        (.overrun, syncRecord e (objWrite e w o (putBits v 127 96 (satAdd 32 (oOver v) 1))) 0x6003 0 o q 1)
      else if wait ∧ engineRoom w o.line q.agent = false then (.full, w)
      else
        let v1 := if onTime then putBits v 47 32 (oArrived v + 1) else putBits v 63 48 (oEarly v + 1)
        let awaited := (oGen v + (if onTime then 1 else 2)) % 2 ^ 32
        let x := mkWaiter e o q false awaited timeout
        let (v1, w) := if wait then (withHeld e v1 (oHeld v1 + 1), addWaiter w x) else (v1, w)
        let (v2, w) := completeGen e w o v1 q
        (if wait then .held else .ok 0, objWrite e w o v2)

/-! ### Gates (R413-R416, R420) -/

/-- Take a ticket (R413). -/
def syncWait (e : Env) (w : Work) (o : Obj) (q : SyncWho) (timeout : Nat) : SyncRes × Work :=
  let w := settleExpired e w o
  let (v?, w) := objRead e w o
  match v? with
  | none => (.refused, syncRecord e w 0x6001 0 o q 1)
  | some v =>
    let (v, w) := staleCheck e w o v q
    if oKind v ≠ kGate ∨ oStale v = true then (.refused, syncRecord e w 0x6001 0 o q 1)
    else
      let t := oNext v
      let v1 := putBits v 63 32 (t + 1)
      if passed (oGen v) t then (.ok t, objWrite e w o v1)
      else if !engineRoom w o.line q.agent then (.full, w)
      else
        let x := mkWaiter e o q true t timeout
        (.held, objWrite e (addWaiter w x) o (withHeld e v1 (oHeld v1 + 1)))

/-- Serve one ticket: its waiters are released, as duplicates when several hold it (R414, R420). -/
def serveTicket (e : Env) (w : Work) (o : Obj) (v : Nat) : Nat × Work :=
  let t := oGen v
  let ws := w.sync.waiters.filter (fun x => x.line == o.line && x.gate && x.value == t && x.st != .void)
  let heldWs := ws.filter (fun x => x.st == .held)
  let dup := decide (ws.length ≥ 2)
  let (w, k) := ws.foldl (fun (a : Work × Nat) x =>
    let (w, n) := releaseWaiter e a.1 x (if dup then stDuplicate else stOk) t
    let rec6004 : FaultRec := {
      ty := 0x6004, sev := 1, parcel := o.parcel, addr := 64 * o.line, dev := x.dev, agent := x.agent,
      ctx := some x.ctx, count := heldWs.length, req := true }
    let w := if dup then raise e w rec6004 else w
    (w, a.2 + n)) (w, 0)
  (withHeld e (putBits v 95 64 (t + 1)) (oHeld v - k), w)

/-- Pass the abandoned tickets at now_serving (R414). -/
def skipGone (w : Work) (line v fuel : Nat) : Nat × Work :=
  match fuel with
  | 0 => (v, w)
  | n + 1 =>
    if w.sync.gone.contains (line, oGen v) then
      skipGone { w with sync := { w.sync with gone := w.sync.gone.erase (line, oGen v) } } line
        (putBits v 95 64 (oGen v + 1)) n
    else (v, w)

def serveTickets (e : Env) (w : Work) (o : Obj) (v k : Nat) : Nat × Work :=
  match k with
  | 0 => (v, w)
  | j + 1 =>
    let (v, w) := skipGone w o.line v (w.sync.gone.length)
    let (v, w) := serveTicket e w o v
    serveTickets e w o v j

/-- SIGNAL of k tickets (R414). -/
def syncSignal (e : Env) (w : Work) (o : Obj) (q : SyncWho) (k : Nat) : SyncRes × Work :=
  let w := settleExpired e w o
  let (v?, w) := objRead e w o
  match v? with
  | none => (.refused, syncRecord e w 0x6001 0 o q 1)
  | some v =>
    let (v, w) := staleCheck e w o v q
    if oKind v ≠ kGate ∨ oStale v = true ∨ k = 0 then (.refused, syncRecord e w 0x6001 0 o q 1)
    else
      let (v, w) := serveTickets e w o v k
      (.ok 0, objWrite e w o (signed e v q))

/-- BROADCAST (R415): now_serving becomes next_ticket when that is ahead; every held waiter is released. -/
def syncBroadcast (e : Env) (w : Work) (o : Obj) (q : SyncWho) : SyncRes × Work :=
  let w := settleExpired e w o
  let (v?, w) := objRead e w o
  match v? with
  | none => (.refused, syncRecord e w 0x6001 0 o q 1)
  | some v =>
    let (v, w) := staleCheck e w o v q
    if oKind v ≠ kGate ∨ oStale v = true then (.refused, syncRecord e w 0x6001 0 o q 1)
    else if passed (oNext v) (oGen v) then
      let ws := w.sync.waiters.filter (fun x => x.line == o.line && x.gate && passed (oNext v) x.value)
      let (w, n) := ws.foldl (fun (a : Work × Nat) x =>
        let (w, j) := releaseWaiter e a.1 x stOk x.value
        (w, a.2 + j)) (w, 0)
      let w := { w with sync := { w.sync with gone := w.sync.gone.filter (fun x => x.1 != o.line) } }
      (.ok 0, objWrite e w o (signed e (withHeld e (putBits v 95 64 (oNext v)) (oHeld v - n)) q))
    else (.ok 0, objWrite e w o (signed e v q))

/-- DISARM (R404): kind 0x00, every other field as it stands; held waiters complete with CANCELLED, and saved ones at their restore. -/
def syncDisarm (e : Env) (w : Work) (o : Obj) (q : SyncWho) : Work :=
  let w := settleExpired e w o
  let (v?, w) := objRead e w o
  match v? with
  | none => w
  | some v =>
    let (v, w) := staleCheck e w o v q
    let ws := w.sync.waiters.filter (fun x => x.line == o.line)
    let w := ws.foldl (fun w x =>
      if x.st = .held then tellWaiter e (dropWaiter w x) x stCancelled (if x.gate then x.value else 0)
      else { w with sync := { w.sync with waiters := w.sync.waiters.map (fun y => if y = x then { y with st := .void } else y) } }) w
    let w := { w with sync := { w.sync with gone := w.sync.gone.filter (fun x => x.1 != o.line) } }
    objWrite e w o (putBits v 7 0 0)

/-- A waiter of a revoked parcel leaves its object (R426). -/
def revokeWaiter (e : Env) (w : Work) (o : Obj) (x : Waiter) : Work :=
  let (v?, w) := objRead e (dropWaiter w x) o
  let w := match v? with
    | some v => objWrite e w o (putBits v 143 128 (oHeld v - 1))
    | none => w
  tellWaiter e w x stRevokedParcel (if x.gate then x.value else 0)

end Sys2Proof.Machine
end

