-- ==== Sys2Proof/Machine/Window.lean ====
section
/-! DEFINITION. Accumulation windows (08 R346-R357): layout, contributions, reads, votes and the close of an epoch. -/

namespace Sys2Proof.Machine

def up4k (n : Nat) : Nat := 4096 * ((4095 + n) / 4096)

def winIn (w : Work) (k : Nat) : Nat := w.fld (aWindowCtl k) 23 20
def winAcc (w : Work) (k : Nat) : Nat := w.fld (aWindowCtl k) 27 24
def winL (w : Work) (k : Nat) : Nat := w.fld (aWindowLines k) 27 0
def winN (w : Work) (k : Nat) : Nat := w.fld (aWindowExpect k) 15 0
/-- r, the size of acc_fmt divided by the size of in_fmt (R347). -/
def winR (w : Work) (k : Nat) : Nat := elBytes (winAcc w k) / elBytes (winIn w k)
def winA (w : Work) (k : Nat) : Nat := up4k (64 * winL w k)
def winS (w : Work) (k : Nat) : Nat := up4k (64 * winL w k * winR w k)
def winC (w : Work) (k : Nat) : Nat := up4k (4 * winL w k)
def winCtlOff (w : Work) (k : Nat) : Nat := 2 * winA w k + 2 * winS w k + 2 * winC w k

/-- A pair of formats that a window accepts (R347). -/
def winPair (inF accF : Nat) : Bool := ((inF ≥ 1 && inF ≤ 5) && (accF == 0 || accF == 1)) || (inF == 0 && accF == 0)

/-- The enabled window of a parcel. -/
def winOf (w : Work) (parcel : Nat) : Option (Nat × Win) := w.mash.wins.find? (fun x => x.2.parcel == parcel)

def winBank (x : Win) (b : Nat) : Bank := if b = 0 then x.b0 else x.b1
def winSetBank (x : Win) (b : Nat) (k : Bank) : Win := if b = 0 then { x with b0 := k } else { x with b1 := k }

/-- Store a window and show its banks in WINDOW[w].STATUS. -/
def putWin (w : Work) (k : Nat) (x : Win) : Work :=
  let w := { w with mash := { w.mash with wins := mset w.mash.wins k x } }
  (w.setFld (aWindowStatus k) 17 16 x.b0.st).setFld (aWindowStatus k) 19 18 x.b1.st

/-- Read and write a line of a window parcel at a parcel offset; windows lie on this device (R346). -/
def winLine (e : Env) (w : Work) (parcel off : Nat) : Option (Nat × Option Place) :=
  let l := locate e w (cadEntry w parcel) off
  match l.primary w with
  | some p => some (p.dpa / 64, secOf l)
  | none => none

def winRd (e : Env) (w : Work) (a : Acc) (off : Nat) : Payload × Work :=
  match winLine e w a.parcel off with
  | none => (⟨0, true⟩, w)
  | some (l, s) =>
    match homeRead e w a l s with
    | (.got p, w) => (p, w)
    | (.remote _, w) => (⟨0, true⟩, w)

def winWr (e : Env) (w : Work) (a : Acc) (off : Nat) (d : Payload) : Work :=
  match winLine e w a.parcel off with
  | none => w
  | some (l, s) => (homeWrite e w a l s d).2

/-- The count entry of line n of a bank: (tag, count), and its place. -/
def countOff (w : Work) (k b n : Nat) : Nat := 2 * winA w k + 2 * winS w k + b * winC w k + 4 * n

def countGet (e : Env) (w : Work) (a : Acc) (k b n : Nat) : Nat × Work :=
  let o := countOff w k b n
  let (p, w) := winRd e w a (o / 64 * 64)
  (bitsOf p.data.toNat (8 * (o % 64) + 31) (8 * (o % 64)), w)

def countPut (e : Env) (w : Work) (a : Acc) (k b n v : Nat) : Work :=
  let o := countOff w k b n
  let (p, w) := winRd e w a (o / 64 * 64)
  winWr e w a (o / 64 * 64) ⟨BitVec.ofNat 512 (putBits p.data.toNat (8 * (o % 64) + 31) (8 * (o % 64)) v), p.poison⟩

/-- Element j of a line, of `bytes` bytes. -/
def elemAt (d : Line) (bytes j : Nat) : Nat := bitsOf d.toNat (8 * bytes * (j + 1) - 1) (8 * bytes * j)

/-- A line of elements, the first in the low bytes. -/
def packElems (bytes : Nat) (l : List Nat) : Line :=
  BitVec.ofNat 512 (l.foldr (fun x acc => acc * 2 ^ (8 * bytes) + x % 2 ^ (8 * bytes)) 0)

def decodeCode (code b : Nat) : Val := match elFmt code with | some f => decodeEl f b | none => .nan
def encodeCode (code : Nat) (v : Val) (r : Rnd) (sat : Bool) : Nat :=
  match elFmt code with | some f => encodeEl f v r sat | none => 0
def roundCode (code : Nat) (v : Val) : Val := match elFmt code with | some f => rnd f v | none => .nan

/-- Accumulator line i (0 to r - 1) of addend line n after adding the addend's elements (R349). -/
def accumulate (inF accF : Nat) (old add : Line) (i : Nat) : Line :=
  let ib := elBytes inF
  let ab := elBytes accF
  let per := 64 / ab
  packElems ab ((List.range per).map (fun j =>
    encodeCode accF (roundCode accF (vadd (decodeCode accF (elemAt old ab j))
      (decodeCode inF (elemAt add ib (per * i + j))))) .nearest false))

/-- How a window answers an access: done, refused with the record type that its rule names. -/
inductive WinRes where
  | done
  | refused (ty : Nat)
  deriving DecidableEq, Repr

/-- The lines of a bank at N, of the die that homes them. -/
def bumpAtN (k : Bank) (die : Nat) : Bank := if die = 0 then { k with atN0 := k.atN0 + 1 } else { k with atN1 := k.atN1 + 1 }

/-- A contribution to line n of bank b (R349-R351). -/
def contribute (e : Env) (w : Work) (a : Acc) (k : Nat) (x : Win) (b n : Nat) (d : Payload) : WinRes × Work :=
  let bank := winBank x b
  let (c, w) := countGet e w a k b n
  let fresh := bitsOf c 31 16 ≠ bank.epoch % 65536
  let cnt := if fresh then 0 else bitsOf c 15 0
  if bank.st ≠ 0 ∨ cnt = winN w k then (.refused 0x300D, w)
  else
    let r := winR w k
    let base := 2 * winA w k + b * winS w k + 64 * n * r
    let w := (List.range r).foldl (fun w i =>
      let (old, w) := if fresh then ((⟨0, false⟩ : Payload), w) else winRd e w a (base + 64 * i)
      winWr e w a (base + 64 * i) ⟨accumulate (winIn w k) (winAcc w k) old.data d.data i, old.poison || d.poison⟩) w
    let w := countPut e w a k b n (65536 * (bank.epoch % 65536) + (cnt + 1))
    let die := match winLine e w a.parcel (b * winA w k + 64 * n) with | some (l, _) => dieOf w l | none => 0
    let w := if cnt + 1 = winN w k then putWin w k (winSetBank x b (bumpAtN bank die)) else w
    (.done, w)

/-- A rearm vote (R356). -/
def vote (w : Work) (k : Nat) (x : Win) (b epoch : Nat) : Work :=
  let bank := winBank x b
  if bank.st = 2 ∧ bank.epoch % 2 ^ 32 = epoch then
    if bank.votes + 1 = winN w k then
      putWin w k (winSetBank x b { epoch := (bank.epoch + 2) % 2 ^ 32, close := bank.close })
    else putWin w k (winSetBank x b { bank with votes := bank.votes + 1 })
  else w.inc (aWindowRearmIgnored k) 1

/-- A write to an offset of a window parcel (R349, R350, R356). -/
def winWrite (e : Env) (w : Work) (a : Acc) (off : Nat) (d : Payload) (mask : BitVec 64) (full : Bool) : WinRes × Work :=
  match winOf w a.parcel with
  | none => (.refused 0x3002, w)
  | some (k, x) =>
    let o := off / 64 * 64
    if o < 2 * winA w k then
      let b := o / winA w k
      let n := o % winA w k / 64
      if !full then (.refused 0x300D, w)
      else if n ≥ winL w k then (.refused 0x3002, w)
      else contribute e w a k x b n d
    else if o < winCtlOff w k then (.refused 0x3002, w)
    else
      let b := (o - winCtlOff w k) / 64
      let v := (mergeLine 0 d.data (if full then BitVec.allOnes 64 else mask)).toNat
      if b < 2 ∧ bitsOf v 39 32 = 1 then (.done, vote w k x b (bitsOf v 31 0)) else (.done, w)

/-- The accumulator line i of addend line n as it reads: zero for a stale tag (R354). -/
def sumLine (e : Env) (w : Work) (a : Acc) (k : Nat) (x : Win) (b n i : Nat) : Payload × Work :=
  let (c, w) := countGet e w a k b n
  if bitsOf c 31 16 ≠ (winBank x b).epoch % 65536 then (⟨0, false⟩, w)
  else winRd e w a (2 * winA w k + b * winS w k + 64 * n * winR w k + 64 * i)

/-- The control line of a bank (R355). -/
def ctlLine (k : Bank) : Line :=
  BitVec.ofNat 512 (k.epoch % 2 ^ 32 + 2 ^ 32 * k.st + 2 ^ 64 * (k.close % 2 ^ 48) + 2 ^ 128 * ((k.atN0 + k.atN1) % 2 ^ 32)
    + 2 ^ 160 * (k.votes % 2 ^ 16))

/-- A read of a window parcel (R354, R355); none is a refusal with a PERMISSION record (R346). -/
def winRead (e : Env) (w : Work) (a : Acc) (off : Nat) : Option Payload × Work :=
  match winOf w a.parcel with
  | none => (none, w)
  | some (k, x) =>
    let o := off / 64 * 64
    let r := winR w k
    if o < 2 * winA w k then
      let b := o / winA w k
      let n := o % winA w k / 64
      if n ≥ winL w k then (some ⟨0, false⟩, w)
      else
        let (ps, w) := (List.range r).foldl (fun (acc : List Payload × Work) i =>
          let (p, w) := sumLine e acc.2 a k x b n i
          (acc.1 ++ [p], w)) ([], w)
        let ab := elBytes (winAcc w k)
        let vals := (ps.map (fun p => (List.range (64 / ab)).map (fun j =>
          encodeCode (winIn w k) (decodeCode (winAcc w k) (elemAt p.data ab j)) .nearest false))).flatten
        (some ⟨packElems (elBytes (winIn w k)) vals, ps.any (·.poison)⟩, w)
    else if o < 2 * winA w k + 2 * winS w k then
      let b := (o - 2 * winA w k) / winS w k
      let q := (o - 2 * winA w k) % winS w k / 64
      if q / r ≥ winL w k then (some ⟨0, false⟩, w)
      else let (p, w) := sumLine e w a k x b (q / r) (q % r); (some p, w)
    else if o < winCtlOff w k then let (p, w) := winRd e w a o; (some p, w)
    else
      let b := (o - winCtlOff w k) / 64
      (some ⟨if b < 2 then ctlLine (winBank x b) else 0, false⟩, w)

/-- Lines of a bank's addend view that a die homes. -/
def linesOnDie (e : Env) (w : Work) (k : Nat) (parcel b die : Nat) : Nat :=
  ((List.range (winL w k)).filter (fun n => match winLine e w parcel (b * winA w k + 64 * n) with
    | some (l, _) => dieOf w l == die
    | none => false)).length

/-- The owning die of a window, which homes its control page (R352). -/
def winDie (e : Env) (w : Work) (k parcel : Nat) : Die :=
  match winLine e w parcel (winCtlOff w k) with
  | some (l, _) => tunOf w l
  | none => .tun 0

/-- The ring number of a SYNC_OP that no ring has sent: the arrival of a window (log 179). -/
def noRing : Nat := 1024

/-- The operands of a window's arrival at a barrier of a peer: no context, no ring, an arrival without a wait. -/
def windowArrival : List Nat := [0, noRing, 0, 0, 0, 0, 0]

/-- A report of a die that all its lines of a bank have reached N (R352): the last one makes the bank FULL. -/
def winReport (e : Env) (w : Work) (k b die : Nat) : Work :=
  match mget w.mash.wins k with
  | none => w
  | some x =>
    let bank := winBank x b
    let mine := linesOnDie e w k x.parcel b die
    if bank.st ≠ 0 ∨ die ≥ 2 ∨ mine = 0 ∨ (if die = 0 then bank.atN0 else bank.atN1) < mine then w
    else
      let reps := sadd bank.reports die
      let other := linesOnDie e w k x.parcel b (1 - die)
      let line := match winLine e w x.parcel (winCtlOff w k) with | some (l, _) => l | none => 0
      let w := carry w acctDev .request 0x7F 0x7F line false (.tun die) (winDie e w k x.parcel)
      putWin w k (winSetBank x b { bank with reports := reps, st := if other = 0 ∨ reps.length = 2 then 1 else 0 })

/-- Step 3 of Table 2-1: FULL banks close; an attached barrier gets one arrival with its current sense (R352, R353). -/
def closeBanks (e : Env) (w : Work) (frame : Nat) : Work :=
  w.mash.wins.foldl (fun w kx =>
    [0, 1].foldl (fun w b =>
      match mget w.mash.wins kx.1 with
      | none => w
      | some x =>
        let bank := winBank x b
        if bank.st ≠ 1 then w
        else
          let w := putWin w kx.1 (winSetBank x b { bank with st := 2, close := frame })
          if w.fld (aWindowBarrier kx.1) 31 31 = 1 then
            let p := w.fld (aWindowBarrier kx.1) 15 0
            let off := w.reg2 (aWindowBarrierOffset kx.1)
            match (locate e w (cadEntry w p) off).primary w with
            | some q =>
              let l := q.dpa / 64
              if q.dev = e.board then
                let w := carry w acctDev .request 0x7F 0x7F l false (winDie e w kx.1 x.parcel) (tunOf w l)
                let o : Obj := ⟨p, off, l⟩
                let (v?, w) := objRead e w o
                (syncArrive e w o ⟨e.board, 0x7F, none, 0, 0, 0⟩ ((v?.map oSense).getD 0) false 0).2
              else (carry (charge w acctDev 7 1) acctDev .request 0x7F 0x7F l false (winDie e w kx.1 x.parcel)
                  (pairDie e w q.dev 0x7F l)).emit
                (.peer { op := 0x40, dev := q.dev, line := l, ext := some (p, eGen (cadEntry w p), off, e.clk.frame), args := windowArrival })
            | none => w
          else w) w) w

end Sys2Proof.Machine
end

