-- ==== Sys2Proof/Machine/AtHome.lean ====
section
/-! DEFINITION. From a resolved request to its home (03 R80-R83, R97; 05 R186; 06 R233, R244, R251): forwarding, parcels of
kind SYNC and WINDOW, and isolation wrappers that answer in the home's place. -/

namespace Sys2Proof.Machine

/-! ### Records of refusals -/

/-- The host that a request names for its records and its host ring. -/
def Req.hostOf (e : Env) (r : Req) : Option Nat :=
  if r.dev = e.board ∧ r.agent < 0x40 then some r.agent else r.host

/-- A PERMISSION or other informational record of a refused request, coalesced per parcel, agent and frame (R84). -/
def refusedRec (e : Env) (w : Work) (r : Req) (ty : Nat) : Work :=
  raise e w { ty := ty, parcel := r.parcel, dev := r.dev, agent := r.agent, coal := true, req := true, host := r.hostOf e }

/-! ### Forwarding (03 R82, 13 Table 13-6, Table 13-7) -/

/-- Send a request to its home on another device (R82, R233), in the class in which it came: refused after two forwards (R234);
answered by the wrapper when that device is lost (06 R244); kept until its answer comes when the requester is this device. -/
def forward (e : Env) (w : Work) (r : Req) (p : Place) : Work :=
  if r.hops ≥ 2 then
    refuseReq e (raise e w { ty := 0x3009, sev := 1, parcel := r.parcel, dev := r.dev, agent := r.agent, req := true,
                             host := r.hostOf e }) r
  else if isLost w p.dev then refuseReq e (lineLost e w r.acc (p.dpa / 64)) r
  else
    let r := { r with line := p.dpa / 64, lat := max 2 r.lat }
    let w := carryOut e w r p.dev r.op.hasData
    let w := w.emit (.peer (fwdMsg r p.dev))
    if r.dev = e.board then
      { w with home := { w.home with forwarded := w.home.forwarded ++ [(p.dev, r)] } }
    else w

/-! ### Lines of SYNC parcels (10 R398-R403) -/

/-- The byte mask of the command word alone. -/
def cmdMask : BitVec 64 := 0xFF00000000000000

/-- A command word written to an armed object (R403, R404): applied or refused. -/
def syncCmd (e : Env) (w : Work) (o : Obj) (cmd : Nat) (q : SyncWho) : Bool × Work :=
  let op := bitsOf cmd 63 56
  let k := bitsOf cmd 47 32
  if bitsOf cmd 55 49 ≠ 0 ∨ bitsOf cmd 31 0 ≠ 0 then (false, syncRecord e w 0x6001 0 o q 1)
  else if op = 0x01 then
    match syncArrive e w o q (bitsOf cmd 48 48) false 0 with
    | (.ok _, w) => (true, w)
    | (_, w) => (false, w)
  else if op = 0x02 then
    match syncSignal e w o q k with
    | (.ok _, w) => (true, w)
    | (_, w) => (false, w)
  else if op = 0x03 then
    match syncBroadcast e w o q with
    | (.ok _, w) => (true, w)
    | (_, w) => (false, w)
  else if op = 0x0F then (true, syncDisarm e w o q)
  else (false, syncRecord e w 0x6001 0 o q 1)

/-- The write that arms a line stores no command word: it reads as zero (R401; log 180). -/
def armReq (r : Req) : Req :=
  let z (d : Payload) : Payload := { d with data := BitVec.ofNat 512 (bitsOf d.data.toNat 447 0) }
  { r with op := match r.op with
    | .wr a d m f => .wr a (z d) m f
    | .mashWr d m f => .mashWr (z d) m f
    | .pWr d m f => .pWr (z d) m f
    | o => o }

/-- The object that a request names. -/
def objOf (r : Req) : Obj := ⟨r.parcel, r.off / 64 * 64, r.line⟩

def whoOf (r : Req) : SyncWho :=
  ⟨r.dev, r.agent, acctCtxOf r.acct, 0, 0, r.tag⟩

/-- A write to a line of a SYNC parcel by anyone but agents 0x7E and 0x7F. `v` is the line's present value, none when it
is poisoned (15 Table 15-5); `nv` the value after the write. -/
def syncWrite (e : Env) (w : Work) (r : Req) (v : Option Nat) (d : Payload) (mask : BitVec 64) (full : Bool)
    (nv : Nat) : Work :=
  let o := objOf r
  let refuse (w : Work) : Work := homeCmp e (syncRecord e w 0x6001 0 o (whoOf r) 1) r false
  match v with
  | none =>
    if full ∧ d.poison = false ∧ (oKind nv = 0 ∨ armOk nv = true) then homeReq e w (if oKind nv = 0 then r else armReq r) else refuse w
  | some x =>
    if oKind x = kBarrier ∨ oKind x = kGate then
      if !full && mask == cmdMask then
        let (ok, w) := syncCmd e w o (bitsOf d.data.toNat 511 448) (whoOf r)
        syncCmp e w r ok
      else homeCmp e (refusedRec e w r 0x3002) r false
    else if oKind nv = 0 then homeReq e w r
    else if full ∧ d.poison = false ∧ armOk nv = true then homeReq e w (armReq r)
    else refuse w

/-- A request to a line of a SYNC parcel at its home. -/
def syncHome (e : Env) (w : Work) (r : Req) : Work :=
  if r.agent ≥ 0x7E ∧ r.agent < 0x80 then homeReq e w r
  else if (findTxn w r.line).isSome || reserved w r then retryReq e w r
  else
    let w := dropWaiting w r
    match r.op with
    | .wr _ d m full | .mashWr d m full | .pWr d m full =>
      let (v, w) := objRead e w (objOf r)
      let nv := if full then d.data.toNat else (mergeLine (BitVec.ofNat 512 (v.getD 0)) d.data m).toNat
      syncWrite e w r v d m full nv
    | .rmw o | .mashRmw o =>
      let (v, w) := objRead e w (objOf r)
      let nv := (rmwLine o (BitVec.ofNat 512 (v.getD 0)) (r.off % 64)).2.toNat
      syncWrite e w r v ⟨0, false⟩ 0 false nv
    | _ => homeReq e w r

/-! ### Lines of WINDOW parcels (08 R346-R356, 05 R199, R200) -/

def winHome (e : Env) (w : Work) (r : Req) : Work :=
  if r.agent ≥ 0x7E ∧ r.agent < 0x80 then homeReq e w r
  else
    match r.op with
    | .rd _ | .mashRd | .pRdCur | .pRdS | .pRdX | .pUpg =>
      match winRead e w r.acc r.off with
      | (some p, w) => homeData e w r .cmp p
      | (none, w) => homeRefuse e (refusedRec e w r 0x3002) r
    | .wr _ d m full | .mashWr d m full | .pWr d m full =>
      match winWrite e w r.acc r.off d m full with
      | (.done, w) => homeCmp e w r true
      | (.refused ty, w) => homeCmp e (refusedRec e w r ty) r false
    | .rmw _ | .mashRmw _ =>
      let w := refusedRec e w r 0x3002
      if r.dev = e.board ∧ r.agent < 0x40 ∧ r.tile = none then
        (if r.ans.silent then w else (carryAnswer e w r false).emit (.hostCa r.agent r.tag))
      else homeCmp e w r false
    | .evict | .pWb _ | .pEvict | .datumWr _ | .recall | .touch => homeCmp e w r true

/-! ### Page moves and promoted pages (03 R97, R99; 06 R251) -/

/-- A page move of the parcel holds from B(f+1) on what concerns its page. -/
def moveAt (e : Env) (w : Work) (parcel off : Nat) : Bool :=
  match w.pool.move with
  | none => false
  | some m =>
    let (lo, idx) := sheetIndex (cadEntry w parcel) off
    m.parcel == parcel && idx == m.plot && lo / 2 ^ 12 % 512 == m.page && decide (m.frame + 1 ≤ e.clk.frame)

/-- Whether the page-move unit holds this request: all to the page but reads of a MIRROR or TWIN page, which has another copy. -/
def moveHolds (e : Env) (w : Work) (r : Req) : Bool :=
  let isRead := match r.op with
    | .rd _ | .mashRd | .pRdCur => true
    | _ => false
  moveAt e w r.parcel r.off && !(isRead && (secOf (reqLoc e w r)).isSome)

/-- The page of an offset in the recovery map (06 R249). -/
def pageOf (off : Nat) : Nat := off / 2 ^ 12

/-- A promoted page that has yet to be resolved (R251). -/
def unresolved (e : Env) (w : Work) (r : Req) : Bool :=
  tracked w r.parcel && isPromoted e w r && !w.pool.recovered.contains r.parcel &&
  !p0Bit e w (recoveryBase (cadEntry w r.parcel)) (pageOf r.off)

def readsLine (r : Req) : Bool :=
  match r.op with
  | .rd _ | .mashRd | .pRdCur | .pRdS | .pRdX | .pUpg | .rmw _ | .mashRmw _ => true
  | _ => false

/-- The isolation wrapper of a tract under reset answers a new request (18 R679). -/
def wrapped (e : Env) (w : Work) (r : Req) (t : Nat) : Work :=
  let w := { w with
    blocks := w.blocks.map (fun b => if b.kind = 3 ∧ b.inst = t then { b with answered := b.answered + 1 } else b)
    home := { w.home with cancelled := w.home.cancelled ++ r.tile.toList } }
  refuseReq e w { r with ans := .error }

/-- The open transaction of the line takes the request in (R728, R228). -/
def takenIn (w : Work) (r : Req) : Bool := match findTxn w r.line with | some t => takes t r | none => false

/-- A request at its home, by the kind of its parcel. -/
def atHome (e : Env) (w : Work) (r : Req) : Work :=
  if blockHeld w 3 (tractOf w (64 * r.line)) then wrapped e (dropWaiting w r) r (tractOf w (64 * r.line))
  else if unresolved e w r && r.agent < 0x7E && !takenIn w r then retryReq e w r
  else if cutOff e w r && readsLine r then homeRefuse e (dropWaiting w r) r
  else if eKind (cadEntry w r.parcel) = 1 then winHome e (dropWaiting w r) r
  else if eKind (cadEntry w r.parcel) = 2 then syncHome e w r
  else homeReq e w r

/-- A request goes over the fabric to the home die of its line, and is served there. -/
def toHome (e : Env) (w : Work) (r : Req) : Work := atHome e (carryReq e w r r.op.hasData) r

/-- A request whose resolution names its primary: held by a page move, served here, or forwarded. -/
def resolved (e : Env) (w : Work) (r : Req) (p : Place) : Work :=
  if moveHolds e w r then { w with home := { w.home with held := w.home.held ++ [r] } }
  else if p.dev = e.board then toHome e w { r with line := p.dpa / 64 }
  else forward e w r p

/-- A request that passed or failed the access check of Table 3-5. -/
def checked (e : Env) (w : Work) (r : Req) (c : Chk) : Work :=
  let w := sheetLook e w r c
  match c with
  | .served l =>
    match l.primary w with
    | some p => resolved e w r p
    | none => refuseReq e w r
  | c => refuseReq e (raiseRefusal e w c r.parcel r.off r.dev r.agent (r.hostOf e)) r

/-- A write by agent 0x7F to a line that a register names by its DPA: the line's parcel and offset come from the plot map, and a line
that does not resolve is refused as R723 says. -/
def fwAccess (e : Env) (w : Work) (op : HomeOp) (tag line : Nat) : Work :=
  match ownerOf e w line with
  | some o =>
    let r := { ownReq e w op o.parcel o.off line with tag := tag % 2 ^ 16 }
    let c := accessCheck e w .own o.parcel o.off true
    let w := sheetLook e w r c
    match c with
    | .served _ => if moveHolds e w r then { w with home := { w.home with held := w.home.held ++ [r] } } else toHome e w r
    | c => refuseReq e (raiseRefusal e w c o.parcel o.off e.board 0x7F none) r
  | none =>
    let p := (plotOwner e w line).getD 0
    raiseCheck e w .sheet p e.board 0x7F none

/-- Resolve a request again, as when a page move lets it go. -/
def reresolve (e : Env) (w : Work) (r : Req) : Work :=
  match (locate e w (cadEntry w r.parcel) r.off).primary w with
  | some p => resolved e w r p
  | none => refuseReq e (raiseRefusal e w .sheet r.parcel r.off r.dev r.agent (r.hostOf e)) r

/-! ### Answers given in a home's place -/

/-- Change how every request in hand that `sel` picks is answered. -/
def mapReqs (w : Work) (sel : Req → Bool) (f : Req → Req) : Work :=
  let g (r : Req) : Req := if sel r then f r else r
  { w with home := { w.home with
      txns := w.home.txns.map (fun t => { t with req := g t.req, next := t.next.map g })
      waiting := w.home.waiting.map g
      forwarded := w.home.forwarded.map (fun x => (x.1, g x.2))
      held := w.home.held.map g
      ready := w.home.ready.map g
      queued := w.home.queued.map (fun x => (x.1, g x.2)) } }

/-- Requests that no transaction holds and that need no answer any more are dropped. -/
def dropMuted (w : Work) : Work :=
  let keep (r : Req) : Bool := r.ans != .mute
  { w with home := { w.home with
      waiting := w.home.waiting.filter keep
      forwarded := w.home.forwarded.filter (fun x => keep x.2)
      held := w.home.held.filter keep
      ready := w.home.ready.filter keep
      queued := w.home.queued.filter (fun x => keep x.2) } }

/-- An isolation wrapper answers every request that `sel` picks with an error response, or poisoned data for a read, and
later completions are discarded (03 R92, 12 R492, 18 R679). The number answered comes first. -/
def wrapperAnswer (e : Env) (w : Work) (sel : Req → Bool) : Nat × Work :=
  let rs := (allReqs w).filter (fun r => sel r && r.ans != .mute)
  let w := rs.foldl (fun w r => refuseReq e w { r with ans := if r.ans = .down then .down else .error }) w
  (rs.length, dropMuted (mapReqs w sel (fun r => { r with ans := .mute })))

end Sys2Proof.Machine
end

