-- ==== Sys2Proof/Machine/LineCode.lean ====
section
/-! DEFINITION. The Klohal line code (15 R570-R574) and what a home does with a line that comes back from DRAM. -/

namespace Sys2Proof.Machine

/-! ### GF(2^16) and the code (R571, R572) -/

/-- Multiply by α: shift, and reduce by x^16 + x^12 + x^3 + x + 1. -/
def gfShift (a : Nat) : Nat := if a < 32768 then 2 * a else ((2 * a) % 65536) ^^^ 0x100B

def gfMulAlpha (a n : Nat) : Nat :=
  match n with
  | 0 => a
  | k + 1 => gfMulAlpha (gfShift a) k

/-- Symbol of device `i` in codeword `q` of a stored image: beat 4q + k, DQ 4i + j gives bit 4k + j (R570). -/
def symbolAt (img : Image) (q i : Nat) : Nat :=
  (List.range 4).foldl (fun acc k => acc + bitsOf img.toNat (40 * (4 * q + k) + 4 * i + 3) (40 * (4 * q + k) + 4 * i) * 2 ^ (4 * k)) 0

/-- The syndromes S0 and S1 of codeword `q`. -/
def syndrome (img : Image) (q : Nat) : Nat × Nat :=
  (List.range 10).foldl (fun (s : Nat × Nat) i =>
    (s.1 ^^^ symbolAt img q i, s.2 ^^^ gfMulAlpha (symbolAt img q i) i)) (0, 0)

/-- The syndromes of every codeword of the poison pattern (R574). -/
def poisonSyn : Nat × Nat := (1, gfMulAlpha 1 15)

/-- The locator: the i in 0-9 with S1 = α^i S0, for a non-zero S0. -/
def locator (s : Nat × Nat) : Option Nat :=
  if s.1 = 0 then none else (List.range 10).find? (fun i => gfMulAlpha s.1 i == s.2)

/-- Line decode outcomes (Table 15-1). -/
inductive Decoded where
  | clean
  | poison
  | correctable (i : Nat)
  | uncorrectable
  deriving DecidableEq, Repr

def classify (syn : List (Nat × Nat)) : Decoded :=
  if syn.all (· == (0, 0)) then .clean
  else if syn.all (· == poisonSyn) then .poison
  else
    let bad := syn.filter (· != (0, 0))
    match locator (bad.headD (0, 0)) with
    | some i => if bad.all (fun s => locator s == some i) then .correctable i else .uncorrectable
    | none => .uncorrectable

/-- What a read decodes to: the stored image is a codeword, the poison pattern, or already uncorrectable, and `err` is
added to it on the way. -/
def decodeLine (w : Work) (line : Nat) (err : Image) : Decoded :=
  if w.pool.bad.contains line then .uncorrectable
  else
    let base : Nat × Nat := if w.pool.poison.contains line then poisonSyn else (0, 0)
    classify ((List.range 4).map (fun q => let s := syndrome err q; (s.1 ^^^ base.1, s.2 ^^^ base.2)))

/-- The data bits that a correction at device `i` leaves changed: bit n is beat n / 32, DQ n mod 32 (R570, R573). -/
def residual (err : Image) (i : Nat) : Line :=
  BitVec.ofNat 512 ((List.range 16).foldr (fun b acc => 2 ^ 32 * acc +
    (let beat := bitsOf err.toNat (40 * b + 31) (40 * b)
     let fix := bitsOf (syndrome err (b / 4)).1 (4 * (b % 4) + 3) (4 * (b % 4))
     (if i < 8 then beat ^^^ (fix * 2 ^ (4 * i)) else beat))) 0)

/-! ### A line comes back from DRAM (R572, R575, R561) -/

/-- The lost set, if the line is a copy of a directory-store set whose copies are all unreadable (05 R179). -/
def storeSetLost (e : Env) (w : Work) (line : Nat) : Work :=
  [0, 1].foldl (fun w die =>
    if !gazOn w die then w
    else match ownerOf e w line with
      | some o =>
        let s := o.off / 64
        if o.parcel = w.fld (aGazCtl die) 15 0 ∧ s < 2 ^ gazK w die ∧ (storeLines e w die s).all (unreadable w) = true then
          noteLostSet e w die s
        else w
      | none => w) w

/-- The home asks another device for its copy of a line of its own (04 R115). -/
def fetchCopy (e : Env) (w : Work) (line parcel off : Nat) (c : Place) : Work :=
  let r := ownReq e w .touch parcel off line
  let m : PeerMsg := { op := 0x10, dev := c.dev, tag := r.tag, line := c.dpa / 64, ext := some (r.parcel, r.gen, r.off, r.frame)
                       args := [e.board, 0x7F, 1] }
  putTxn ((carryToPeer e w r.acct .request c.dev line false).emit (.peer m)) { req := r, waits := [], copy := some c, phase := 2 }

/-- The home reads a line whose image is uncorrectable, by its class (R561). -/
def readBad (e : Env) (w : Work) (line : Nat) : Work :=
  let w := { w with pool := { w.pool with bad := sadd w.pool.bad line, poison := sdel w.pool.poison line } }
  match ownerOf e w line with
  | none => (readSingle e w (accOwn 0 e) none line).2
  | some o =>
    let a := accOwn o.parcel e
    let key := keyOf e w o.parcel
    if eClass (cadEntry w o.parcel) = 1 then
      let (q, j) := stripeAt w line
      if j = q.parity then noteUe e w line else (readStripe e w a key line).2
    else if w.fld (aGazCtl 0) 15 0 = o.parcel ∧ gazOn w 0 = true ∨ w.fld (aGazCtl 1) 15 0 = o.parcel ∧ gazOn w 1 = true then
      storeSetLost e (noteUe e w line) line
    else
      match locate e w (cadEntry w o.parcel) o.off with
      | .copies p (some s) _ _ _ =>
        let other : Place := if o.primary then s else p
        match readCopies e w a key line (some other) with
        | (.got _, w) => w
        | (.remote c, w) =>
          if (findTxn w line).isSome then w else fetchCopy e w line o.parcel o.off c
      | _ => (readSingle e w a key line).2

/-- A correctable line is written back corrected (R575); one that the code miscorrects keeps the wrong bits (R573). -/
def corrected (w : Work) (line : Nat) (err : Image) (i : Nat) : Work :=
  let d := residual err i
  if d = 0 ∨ w.pool.poison.contains line = true then w
  else
    let old := memLine w.pool.mem line
    let new := if mhas w.pool.keyed line then Config.miscorrected line old d else old ^^^ d
    { w with pool := { w.pool with mem := memPutLine w.pool.mem line new } }

/-- A line that the home reads comes back with the error `err` on it. -/
def readReturn (e : Env) (w : Work) (line : Nat) (err : Image) : Work :=
  if !serving w line then w
  else match decodeLine w line err with
    | .clean | .poison => w
    | .correctable i => noteCe e (corrected w line err i) line i
    | .uncorrectable => readBad e w line

end Sys2Proof.Machine
end

