-- ==== Sys2Proof/Machine/Host.lean ====
section
/-! DEFINITION. Requests and answers of hosts (05, 12): what a port does with a CXL.mem request or an AtomicOp, snoop answers,
suspect and lost hosts, near-cache evictions. -/

namespace Sys2Proof.Machine

/-! ### Logical devices -/

def Work.ld (w : Work) (a : Nat) : Ld := mgetD w.ports.lds a {}

def Work.setLd (w : Work) (a : Nat) (l : Ld) : Work :=
  { w with ports := { w.ports with lds := mset w.ports.lds a l } }

/-- Whether the port's mode has this logical device (12 Table 12-1). -/
def ldExists (w : Work) (a : Nat) : Bool := decide (a < 64) && !(portMode w (portOf a) == 0 && a % 2 == 1)

/-- The extent that holds an LDA (03 R86). -/
def extentOf (l : Ld) (lda : Nat) : Option Extent :=
  l.extents.find? (fun x => decide (x.lda ≤ lda) && decide (lda < x.lda + x.len))

/-- A head is up for CXL.io at least (Table 12-3: IO_ONLY or UP). -/
def headIo (w : Work) (a : Nat) : Bool := headState w (portOf a) (headOf w a) == 2 || headUp w a

/-- A request arrives at the port from a host whose head is up. -/
def ldReachable (w : Work) (a : Nat) : Bool := ldExists w a && headUp w a

/-! ### The port (12, 11, 05 R214, 03 R86) -/

def isRmw (op : HomeOp) : Bool := match op with | .rmw _ => true | _ => false
def isRead (op : HomeOp) : Bool := match op with | .rd _ => true | _ => false

/-- A write, for the access check (03 Table 3-5). -/
def hostWrites (op : HomeOp) : Bool := match op with | .wr _ _ _ _ | .rmw _ => true | _ => false

/-- Poisoned data for a read, an error completion for anything else. -/
def portRefuse (e : Env) (w : Work) (q : HostReq) (op : HomeOp) : Work :=
  if isRead op then emitData e w q.agent q.tag .cmp ⟨0, true⟩ else emitCmp e w q.agent q.tag true

/-- An informational port record of an agent, with a count per frame (R480, R490; 11 Table 11-1). -/
def portRecord (e : Env) (w : Work) (a ty : Nat) : Work :=
  raise e w { ty := ty, dev := e.board, agent := a, unit := portOf a + 4 * 2 ^ 24, coal := true, host := some a }

/-- CXL.io traffic of a logical device runs through a secure stream: its head's, or its own selective one (R478). -/
def secureIo (w : Work) (a : Nat) : Bool :=
  (w.ld a).ide.any (fun x => x.1 == 2 && x.2.2) ||
  [2 * portOf a, 2 * portOf a + 1].any (fun b => headOf w b == headOf w a && (w.ld b).ide.any (fun x => x.1 == 1 && x.2.2))

/-- The port lets BAR accesses of a logical device in: it is enabled (R490), and secure where the port asks it (R480). -/
def ldOpen (w : Work) (a : Nat) : Bool :=
  (w.ld a).enabled && (w.fld (aPortCtl (portOf a)) 21 21 == 0 || secureIo w a)

/-- A BAR access that is not let in: Unsupported Request and a record; a disabled logical device's doorbell write is discarded
(R480, R490). -/
def barRefuse (e : Env) (w : Work) (a : Nat) (door : Bool) : Work :=
  if (w.ld a).enabled then (portRecord e w a 0x7005).emit (.hostUr a 0)
  else if door then portRecord e w a 0x7006
  else (portRecord e w a 0x7006).emit (.hostUr a 0)

/-- An access of a host to its setup BAR, and a doorbell write: nothing arrives without a link. -/
def barIn (e : Env) (w : Work) (a : Nat) (f : Work → Work) : Work :=
  if !ldReachable w a then w else if ldOpen w a then f w else barRefuse e w a false

def doorIn (e : Env) (w : Work) (a : Nat) (f : Work → Work) : Work :=
  if !ldReachable w a then w else if ldOpen w a then f w else barRefuse e w a true

/-- The request as the home sees it: without back-invalidate everything is MetaValue I (12 R476), and MetaValue A of a
host that is no writer is S (05 R187). -/
def portOp (l : Ld) (writer : Bool) (op : HomeOp) : HomeOp :=
  match op with
  | .rd m => .rd (if l.bi then (if m = .a ∧ writer = false then .s else m) else .i)
  | .wr m d k f => .wr (if l.bi then m else .i) d k f
  | o => o

/-- An LDA that falls in no extent (R86): an informational PERMISSION record with parcel 0. -/
def noExtent (e : Env) (w : Work) (q : HostReq) (op : HomeOp) : Work :=
  portRefuse e (raise e w {
    ty := 0x3002, dev := e.board, agent := q.agent, coal := true, req := true, host := some q.agent }) q op

/-- Lookup, access check and resolution of an accepted request. -/
def portServe (e : Env) (w : Work) (q : HostReq) (op : HomeOp) : Work :=
  let l := w.ld q.agent
  match extentOf l q.lda with
  | none => noExtent e w q op
  | some x =>
    let off := q.lda - x.lda
    let c := accessCheck e w (.host q.agent x.gen) x.parcel off (hostWrites op)
    let r : Req := {
      op := portOp l (bitAt (eWriters (cadEntry w x.parcel)) q.agent) op, dev := e.board, agent := q.agent, tag := q.tag,
      frame := e.clk.frame, parcel := x.parcel, gen := x.gen, off := off, line := 0, acct := q.agent, born := e.clk.now }
    checked e w r c

/-- Count an accepted line, that of a read, a write or an atomic (11 R438), and the flits of its request and response (16 Table
16-1). -/
def countLine (w : Work) (a : Nat) (op : HomeOp) : Work :=
  charge (if op = .evict then w else { w with qos := { w.qos with counted := mmod w.qos.counted a 0 (· + 1) } }) a 8 2

/-- The line of a request on a secure stream is processed by IDE (16 Table 16-1). -/
def ideLine (w : Work) (q : HostReq) : Work := if q.secure then charge w q.agent 9 1 else w

/-- A CXL.mem request at its port, checked in this order: queue room (11 R450), a host in the plan (11 Table 11-1), LD
enabled (12 R490), secure stream (12 R480), host not LOST (05 R214). -/
def hostIn (e : Env) (w : Work) (q : HostReq) (op : HomeOp) : Work :=
  if !ldReachable w q.agent then w
  else if (hostReqs e w q.agent).length ≥ max 1 (w.livF (aQosHostQueue q.agent) 9 0) then w
  else
    let w := ideLine (countLine w q.agent op) q
    if w.livF (aQosHostCtl q.agent) 30 30 = 0 then portRefuse e (portRecord e w q.agent 0x7006) q op
    else if !(w.ld q.agent).enabled then portRefuse e (portRecord e w q.agent 0x7006) q op
    else if w.fld (aPortCtl (portOf q.agent)) 21 21 = 1 ∧ q.secure = false then
      portRefuse e (portRecord e w q.agent 0x7005) q op
    else if (w.host e.board q.agent).coh = .lost then emitCmp e w q.agent q.tag true
    else portServe e w q op

/-- Sizes and alignment of AtomicOps (05 R196). -/
def rmwOk (o : Rmw) (lda : Nat) : Bool :=
  match o with
  | .fetchAdd n _ | .swap n _ => (n == 4 || n == 8) && lda % n == 0
  | .cas n _ _ => (n == 4 || n == 8 || n == 16) && lda % n == 0
  | .addFmt _ _ => false

/-- An AtomicOp at the atomic aperture (R195, R196; 12 R480, R490). -/
def atomicIn (e : Env) (w : Work) (q : HostReq) (o : Rmw) : Work :=
  if !ldReachable w q.agent then w
  else
    let w := countLine w q.agent (.rmw o)
    if !(w.ld q.agent).enabled then emitCmp e (portRecord e w q.agent 0x7006) q.agent q.tag true
    else if w.fld (aPortCtl (portOf q.agent)) 21 21 = 1 ∧ q.secure = false then
      (portRecord e w q.agent 0x7005).emit (.hostUr q.agent q.tag)
    else if !rmwOk o q.lda then w.emit (.hostUr q.agent q.tag)
    else portServe e w q (.rmw o)

def execHostMemrdI (q : HostReq) (s : State) : Host.Outcome State Fault Refusal :=
  traffic s (fun e w => hostIn e w q (.rd .i))

def execHostMemrdS (q : HostReq) (s : State) : Host.Outcome State Fault Refusal :=
  traffic s (fun e w => hostIn e w q (.rd .s))

def execHostMemrdA (q : HostReq) (s : State) : Host.Outcome State Fault Refusal :=
  traffic s (fun e w => hostIn e w q (.rd .a))

/-- MemRdData (12 Table 12-5): served as a read that leaves the line's state alone (log 15). -/
def execHostMemrddata (q : HostReq) (s : State) : Host.Outcome State Fault Refusal :=
  traffic s (fun e w => hostIn e w q (.rd .i))

def execHostMemwr (q : HostReq) (mv : Meta) (d : Payload) (s : State) : Host.Outcome State Fault Refusal :=
  traffic s (fun e w => hostIn e w q (.wr mv d (BitVec.allOnes 64) true))

def execHostMemwrptl (q : HostReq) (mv : Meta) (d : Payload) (mask : BitVec 64) (s : State) :
    Host.Outcome State Fault Refusal :=
  traffic s (fun e w => hostIn e w q (.wr mv d mask false))

def execHostMemclnevct (q : HostReq) (s : State) : Host.Outcome State Fault Refusal :=
  traffic s (fun e w => hostIn e w q .evict)

/-- MemSpecRd is a hint without a response (12 Table 12-5): nothing changes. -/
def execHostMemspecrd (_q : HostReq) (s : State) : Host.Outcome State Fault Refusal :=
  traffic s (fun _ w => w)

def execHostAtomicFetchadd (q : HostReq) (size x : Nat) (s : State) : Host.Outcome State Fault Refusal :=
  traffic s (fun e w => atomicIn e w q (.fetchAdd size x))

def execHostAtomicSwap (q : HostReq) (size x : Nat) (s : State) : Host.Outcome State Fault Refusal :=
  traffic s (fun e w => atomicIn e w q (.swap size x))

def execHostAtomicCas (q : HostReq) (size cmp new : Nat) (s : State) : Host.Outcome State Fault Refusal :=
  traffic s (fun e w => atomicIn e w q (.cas size cmp new))

/-! ### Retries (R189, R190) -/

/-- Conflicts whose host has no request of its own on the line on its way any more are acknowledged (R192). -/
def dueConflicts (e : Env) (w : Work) : Work :=
  let ahead (x : Nat × Nat) : Bool := w.home.forwarded.any (fun y =>
    y.2.dev == e.board && y.2.agent == x.1 && y.2.line == x.2 && !y.2.rty)
  (w.home.conflicts.filter (fun x => !ahead x)).foldl (fun w x => w.emit (.biConflictAck x.1 x.2))
    { w with home := { w.home with conflicts := w.home.conflicts.filter ahead } }

/-- A ring scheduler reissues in RTY the sync descriptor that a peer's engine has answered with RETRY (10 R405). -/
def reissueSync (e : Env) (w : Work) (line agent tag : Nat) : Work :=
  match (w.mash.descs.map (·.2)).find? (fun d => d.phase == .held && (match d.sent with
      | some m => m.line == line && m.src == agent && m.tag == tag
      | none => false)) with
  | none => w
  | some d =>
    match d.sent with
    | none => w
    | some m =>
      let acct := acctDesc (dCtx d.img) d.ring d.n
      let w := carry w acct .answer 0x7F agent line false (pairDie e w m.dev agent line) (.tun (ringDie w d.ring))
      (carrySync e w acct d.ring m.dev agent line true).emit (.peer { m with rty := true })

/-- A requester reissues a request in RTY: one retried here, or one that a peer's home retried. -/
def reissue (e : Env) (w : Work) (line dev agent tag : Nat) : Work :=
  match w.home.waiting.find? (fun r => r.line == line && r.dev == dev && r.agent == agent && r.tag == tag) with
  | some r => toHome e w { r with rty := true }
  | none =>
    match w.home.forwarded.find? (fun x => x.2.dev == dev && x.2.agent == agent && x.2.tag == tag) with
    | some (d, r) =>
      let q : Req := { r with lat := 3, rty := true }
      let f := w.home.forwarded.map (fun x => if x = (d, r) then (d, q) else x)
      let w := { carryBack e w r d false with home := { w.home with forwarded := f } }
      dueConflicts e ((carryOut e w q d q.op.hasData).emit (.peer (fwdMsg q d)))
    | none => if dev = e.board then reissueSync e w line agent tag else w

def execRetry (line dev agent tag : Nat) (s : State) : Host.Outcome State Fault Refusal :=
  traffic s (fun e w => reissue e w line dev agent tag)

/-! ### Snoop answers (R191, R192, R727, 06 R223) -/

/-- A page of a parcel whose home this device is in the promoted view (R248). -/
def promotedPage (e : Env) (w : Work) (x : BitVec 512) (page : Nat) : Bool :=
  match locate e w x (4096 * page) with
  | .copies p _ _ true _ => p.dev == e.board
  | _ => false

/-- The lowest page of a promoted parcel that is not resolved yet (R252). -/
def nextPage (e : Env) (w : Work) (x : BitVec 512) : Option Nat :=
  (List.range (512 * eSize x)).find? (fun i => !p0Bit e w (recoveryBase x) i && promotedPage e w x i)

/-- Pages of promoted parcels whose recalls have all closed: their bit is set, and the parcel's recovery is recorded when
it is the last (06 R251, R252). -/
def pagesDone (e : Env) (w : Work) : Work :=
  w.home.resolving.foldl (fun w pg =>
    if w.home.txns.any (fun t => t.req.op == .recall && t.req.parcel == pg.1 && pageOf t.req.off == pg.2) then w
    else
      let w := { w with home := { w.home with resolving := w.home.resolving.filter (· != pg) } }
      let x := cadEntry w pg.1
      let w := p0SetBit e w (recoveryBase x) pg.2 true
      if (nextPage e w x).isNone then
        raise e { w with pool := { w.pool with recovered := sadd w.pool.recovered pg.1 } } { ty := 0x300B, parcel := pg.1 }
      else w) w

/-- The place of a host's answer among the lines and agents of a relayed snoop. -/
def relayIx (y : Relay) (line agent : Nat) : Nat := (line - y.line) * 64 + agent

/-- A host's answer to a snoop that another device's home had this device emit (06 R223). -/
def relayAnswer (e : Env) (w : Work) (y : Relay) (agent line : Nat) (r : SnpResp) : Work :=
  let w := carryRelayed e w y.dev agent line false
  let left := y.agents.filter (fun x => x != relayIx y line agent)
  let others := w.home.relays.filter (fun x => x != y)
  let code := match r with | .i => 0 | .s => 1 | .e => 2
  let msg (a c : Nat) : Out := .peer { op := 0x25, dev := y.dev, tag := y.tag, line := y.line, args := [a, c] }
  let fin := left.isEmpty && y.held.isEmpty
  let w := { w with home := { w.home with relays := if fin then others else others ++ [{ y with agents := left }] } }
  if y.whole then (if fin then w.emit (msg 0x40 0) else w) else w.emit (msg agent code)

/-- A BIRsp: it answers a snoop of an own home, else a relayed one, else it is discarded (R191). -/
def birsp (e : Env) (w : Work) (agent line : Nat) (r : SnpResp) : Work :=
  if !headUp w agent then w
  else
    match w.home.txns.find? (fun t => t.req.line == line && t.waits.any (isHost e.board agent)) with
    | some t => pagesDone e (hostAnswer e w t e.board agent r)
    | none =>
      match w.home.relays.find? (fun y => decide (y.line ≤ line) && decide (line < y.line + max 1 y.lines) &&
          y.agents.contains (relayIx y line agent)) with
      | some y => relayAnswer e w y agent line r
      | none => w

def execBirsp (agent line : Nat) (resp : SnpResp) (s : State) : Host.Outcome State Fault Refusal :=
  traffic s (fun e w => birsp e w agent line resp)

/-- A BIConflict is answered with BIConflictAck after every request of the host that the home had ordered before its snoop: those of
an own home have completed, since it has one open transaction on the line (R192, R189); one on its way to another home, and not
turned away by it, may still be one of them. -/
def execBiconflict (agent line : Nat) (s : State) : Host.Outcome State Fault Refusal :=
  traffic s (fun e w =>
    if headUp w agent then
      dueConflicts e { w with home := { w.home with conflicts := w.home.conflicts.filter (· != (agent, line)) ++ [(agent, line)] } }
    else w)

/-! ### Suspect and lost hosts (R203-R214) -/

/-- COHERENCE.SNOOP_TIMEOUT in ps, clamped (R206). -/
def snoopPs (w : Work) : Nat := usPs (max 100 (w.livF aCoherenceSnoopTimeout 15 0))

/-- A snoop sent at `t` can have been unanswered for the timeout within the frame in progress. -/
def overdue (e : Env) (w : Work) (t : Nat) : Bool := decide (t + snoopPs w ≤ e.clk.next)

/-- A snoop to the host on this line is unanswered for the timeout: an own home's, or a relayed one. -/
def snoopOpen (e : Env) (w : Work) (agent line : Nat) : Bool :=
  w.home.txns.any (fun t => t.req.line == line && t.waits.any (isHost e.board agent) && overdue e w t.since) ||
  w.home.relays.any (fun y => decide (y.line ≤ line) && y.agents.contains (relayIx y line agent) && overdue e w y.since)

/-- Any snoop delivered to the host and unanswered (R729). -/
def snoopsDelivered (e : Env) (w : Work) (agent : Nat) : Bool :=
  w.home.txns.any (fun t => t.waits.any (isHost e.board agent)) ||
  w.home.relays.any (fun y => y.agents.any (fun x => x % 64 == agent))

/-- Queue a host's move to SUSPECT for the next boundary (R203). -/
def queueSuspect (e : Env) (w : Work) (a : Nat) : Work :=
  if (w.host e.board a).coh = .active ∧ w.due.contains (.suspect a) = false then w.queue (.suspect a) else w

def execSnoopTimeout (agent line : Nat) (s : State) : Host.Outcome State Fault Refusal :=
  traffic s (fun e w => if snoopOpen e w agent line then queueSuspect e w agent else w)

/-- The conditions of a return to ACTIVE (R203, R729): the link at L0, the LD enabled, delivered snoops answered. -/
def mayReturn (e : Env) (w : Work) (a : Nat) : Bool :=
  headUp w a && (w.ld a).enabled && !snoopsDelivered e w a

/-- The grace period in ps, clamped (R205). -/
def gracePs (w : Work) : Nat := msPs (max 1 (w.livF aCoherenceGrace 15 0))

/-- A host enters SUSPECT at the boundary that has come (R203); its deadline is the first boundary at or after the instant held
(R204). -/
def becomeSuspect (e : Env) (w : Work) (a : Nat) : Work :=
  if (w.host e.board a).coh = .active then
    w.setHost e.board a { coh := .suspect, since := e.clk.start, deadline := some (e.clk.start + gracePs w) }
  else w

/-- The snoops of a relay that were held for host `a` are on their way. -/
def resend (e : Env) (a : Nat) (y : Relay) : Relay :=
  { y with
    since := if y.held.any (fun x => x % 64 == a) then e.clk.now else y.since
    agents := y.agents ++ y.held.filter (fun x => x % 64 == a)
    held := y.held.filter (fun x => x % 64 != a) }

/-- A SUSPECT host returns: its held snoops are sent again (R208). -/
def becomeActive (e : Env) (w : Work) (dev a : Nat) : Work :=
  let w := releaseHeld e (w.setHost dev a {}) (isHost dev a)
  if dev = e.board then
    let again : List Out := (w.home.relays.map (fun y => (y.held.filter (fun x => x % 64 == a)).map (fun x =>
        Out.hostSnp a (y.line + x / 64) y.kind))).flatten
    { w with
      out := again.reverse ++ w.out
      home := { w.home with relays := w.home.relays.map (resend e a) } }
  else w

/-- Begin the sweep of this device's stores for a host or a device (R210). -/
def openSweep (e : Env) (w : Work) (dev : Nat) (agent : Option Nat) : Work :=
  { w with dir := { w.dir with sweeps := w.dir.sweeps.filter (fun x => !(x.dev == dev && x.agent == agent)) ++
    [⟨dev, agent, e.clk.frame⟩] } }

/-- A snoop that a LOST host leaves without an answer: its own, or one of the regions of a device whose hosts are all LOST
(R730). -/
def noAnswer (w : Work) (dev a : Nat) (t : Target) : Bool := isHost dev a t || (isHost dev 0x40 t && allLost w dev)

/-- Held snoops to a lost host are answered as BIRspI (Table 5-7); relayed ones are answered to their home. Its retried requests
are gone (R214). -/
def dropLostHost (e : Env) (w : Work) (dev a : Nat) : Work :=
  let w := { w with home := { w.home with waiting := w.home.waiting.filter (fun r => !(r.dev == dev && r.agent == a)) } }
  let w := releaseHeld e (holdSent w (noAnswer w dev a)) (noAnswer w dev a)
  if dev = e.board then
    let w := { w with home := { w.home with relays := w.home.relays.map (resend e a) } }
    w.home.relays.foldl (fun w y => (y.agents.filter (fun x => x % 64 == a)).foldl (fun w x =>
      match w.home.relays.find? (fun z => z.dev == y.dev && z.tag == y.tag && z.line == y.line) with
      | some z => relayAnswer e w z a (z.line + x / 64) .i
      | none => w) w) w
  else w

/-- A host of this device is declared LOST (R209, R211, R212): HOST_LOST recorded and sent, its snoops answered. -/
def becomeLost (e : Env) (w : Work) (a : Nat) : Work :=
  let others := (presentDevs e w).filter (fun d => d != e.board && !isLost w d)
  let w := w.setHost e.board a { coh := .lost, since := e.clk.start, sweepsOpen := e.board :: others }
  let w := raise e w { ty := 0x3007, sev := 1, dev := e.board, agent := a, host := some a }
  let w := others.foldl (fun w d => (carryDatum e w .request d 0x7F).emit (.peer { op := 0x50, dev := d, args := [a] })) w
  dropLostHost e (openSweep e w e.board (some a)) e.board a

/-- The grace deadline of a host (R204): it returns when its conditions hold, else it is LOST. -/
def graceEnd (e : Env) (w : Work) (a : Nat) : Work :=
  let h := w.host e.board a
  match h.coh, h.deadline with
  | .suspect, some t => if t ≤ e.clk.start then (if mayReturn e w a then becomeActive e w e.board a else becomeLost e w a) else w
  | _, _ => w

def execGraceDeadline (agent : Nat) (s : State) : Host.Outcome State Fault Refusal :=
  traffic s (fun e w => graceEnd e w agent)

/-- Lines whose entries a sweep for a host still has to treat, in store order (R209: coarse entries stay). -/
def sweepLines (w : Work) (sel : DirEntry → Bool) : List Nat :=
  let ls := (w.dir.store.map (fun x => x.2.line)) ++ (w.dir.cache.map (fun x => x.2.line))
  (ls.foldl sadd []).filter (fun l => sel (dirGet w l))

/-- Treat the next `count` lines; the second component is whether any line is left. -/
def sweepStep (e : Env) (w : Work) (sel : DirEntry → Bool) (count : Nat) : Work × Bool :=
  let w := ((sweepLines w sel).take count).foldl (fun w l => treatLost e w (dirGet w l).parcel l) w
  (w, !(sweepLines w sel).isEmpty)

def execHostLostSweep (dev agent count : Nat) (s : State) : Host.Outcome State Fault Refusal :=
  traffic s (fun e w =>
    if !(w.dir.sweeps.any (fun x => x.dev == dev && x.agent == some agent)) then w
    else
      let (w, more) := sweepStep e w (fun d => !d.coarse && d.names (holderOf dev agent)) count
      if more then w
      else
        let w := { w with dir := { w.dir with sweeps := w.dir.sweeps.filter (fun x => !(x.dev == dev && x.agent == some agent)) } }
        if dev = e.board then
          let h := w.host dev agent
          w.setHost dev agent { h with sweepsOpen := h.sweepsOpen.filter (· != e.board) }
        else (carryDatum e w .answer dev 0x7F).emit (.peer { op := 0x51, dev := dev, args := [agent] }))

/-- HOST_LOST from a peer (R211). -/
def execHostLostMsg (h : Hdr) (agent : Nat) (s : State) : Host.Outcome State Fault Refusal :=
  peerTraffic h [] s (fun e w =>
    let w := w.setHost h.dev agent { coh := .lost, since := e.clk.start }
    dropLostHost e (openSweep e w h.dev (some agent)) h.dev agent)

/-- A peer's sweep for a host of this device is finished (R211). -/
def execSweepDone (h : Hdr) (agent : Nat) (s : State) : Host.Outcome State Fault Refusal :=
  peerTraffic h [] s (fun e w =>
    let x := w.host e.board agent
    if x.coh = .lost then w.setHost e.board agent { x with sweepsOpen := x.sweepsOpen.filter (· != h.dev) } else w)

/-- The hold deadline of an absent device's hosts (06 R247). -/
def execHostHoldDeadline (dev : Nat) (s : State) : Host.Outcome State Fault Refusal :=
  traffic s (fun e w =>
    if dev = e.board then w
    else (List.range 64).foldl (fun w a =>
      let h := w.host dev a
      match h.coh, h.deadline with
      | .suspect, some t =>
        if t ≤ e.clk.start then
          dropLostHost e (openSweep e (w.setHost dev a { coh := .lost, since := e.clk.start }) dev (some a)) dev a
        else w
      | _, _ => w) w)

/-! ### Near-cache lines (04 R107, R108) -/

/-- The near cache evicts a line of this device, writing back its stripe's dirty lines with it (R107). -/
def execNearCacheEvict (line : Nat) (s : State) : Host.Outcome State Fault Refusal :=
  traffic s (fun e w => if (ncGet w e.board line).isSome then ncEvict e w e.board line else w)

/-- The home writes back the dirty lines of one stripe (R108). -/
def execStripeWriteBack (line : Nat) (s : State) : Host.Outcome State Fault Refusal :=
  traffic s (fun e w =>
    match ncGet w e.board line with
    | some n => if eClass (cadEntry w n.parcel) = 1 then writeBackLine e w line else w
    | none => w)

end Sys2Proof.Machine
end

