-- ==== Sys2Proof/Machine/Proxy.lean ====
section
/-! DEFINITION. Accesses of this device's Tuns (01 R30): checked at the Tun die, served at their home, or through the near
cache of the proxy die for lines homed on a peer (06 R215-R219, R230). -/

namespace Sys2Proof.Machine

/-- PEER.CTL.alloc in force (06 Table 6-2). -/
def peerAlloc (w : Work) : Bool := w.livF aPeerCtl 16 16 == 1

/-- Send a Tun's access in the form that Table 6-3 gives it; `after` is the access itself. -/
def sendAs (e : Env) (w : Work) (r : Req) (p : Place) (op : HomeOp) : Work :=
  forward e w { r with op := op, after := some r.op } p

/-- A read of a peer-homed line (R215, R217, R218): from a copy held here, else with PRdS or PRdCur. -/
def proxyRead (e : Env) (w : Work) (r : Req) (p : Place) : Work :=
  match ncGet w p.dev (p.dpa / 64) with
  | some n => replyData e (carryProxy (charge w r.acct 4 1) r (p.dpa / 64) false) r .cmp ⟨n.data, n.poison⟩
  | none => sendAs e w r p (if peerAlloc w && eKind (cadEntry w r.parcel) == 0 then .pRdS else .pRdCur)

/-- A write of a peer-homed line: into an M or E copy, with PUpg from S or O, with PRdX where the line may be allocated, with
PWr otherwise; a MIRROR or TWIN line drops its S copy first (R217). -/
def proxyWrite (e : Env) (w : Work) (r : Req) (p : Place) (d : Payload) (mask : BitVec 64) (full : Bool) : Work :=
  let x := cadEntry w r.parcel
  let line := p.dpa / 64
  if eClass x = 2 ∨ eClass x = 3 then sendAs e (ncDrop w p.dev line) r p (.pWr d mask full)
  else match ncGet w p.dev line with
    | some n =>
      if n.st = some .m ∨ n.st = some .e then
        let q := mergedWrite ⟨n.data, n.poison⟩ d mask full
        replyCmp e (ncPut (carryProxy (charge w r.acct 4 1) r line true) p.dev line
          { n with data := q.data, poison := q.poison, dirty := true, st := some .m }) r true
      else sendAs e w r p .pUpg
    | none => sendAs e w r p (if peerAlloc w && eKind x == 0 then .pRdX else .pWr d mask full)

/-- A Tun's access to a line homed on a peer: one outstanding request per line (R230). -/
def proxyAccess (e : Env) (w : Work) (r : Req) (p : Place) : Work :=
  let queue (w : Work) : Work := { w with home := { w.home with queued := w.home.queued ++ [(p.dev, { r with line := p.dpa / 64 })] } }
  if proxyBusy w p.dev (p.dpa / 64) then queue w
  else match r.op with
    | .mashWr d m full => proxyWrite e w r p d m full
    | .mashRmw _ =>
      let w := proxyDrop e w p.dev (p.dpa / 64)
      if proxyBusy w p.dev (p.dpa / 64) then queue w else forward e w r p
    | _ => proxyRead e w r p

/-- Accesses whose wait for this proxy's outstanding request is over. -/
def dueProxy (e : Env) (w : Work) : Work :=
  w.home.queued.foldl (fun w x =>
    if proxyBusy w x.1 x.2.line then w
    else proxyAccess e { w with home := { w.home with queued := w.home.queued.filter (· != x) } } x.2 ⟨x.1, 64 * x.2.line⟩) w

/-- A Tun's access to parcel offset `r.off` (R30): judged under the generation that stage 2 found and the frame of the
tile's translation (03 R93, 09 R371). -/
def tunAccess (e : Env) (w : Work) (r : Req) : Work :=
  let w := { w with mash := { w.mash with tag := (w.mash.tag + 1) % 2 ^ 16 } }
  let r := { r with dev := e.board, tag := w.mash.tag }
  let ds := members (eDevSet (cadEntry w r.parcel))
  let dev := if ds.contains e.board then e.board else ds.headD e.board
  let c := accessCheck e w (.fwd dev r.gen r.frame) r.parcel r.off (match r.op with | .mashRd => false | _ => true)
  let w := sheetLook e w r c
  match c with
  | .served l =>
    match l.primary w with
    | some p =>
      if moveHolds e w r then { w with home := { w.home with held := w.home.held ++ [r] } }
      else if p.dev = e.board then toHome e w { r with line := p.dpa / 64 }
      else proxyAccess e w r p
    | none => refuseReq e w r
  | c => refuseReq e (raiseRefusal e w c r.parcel r.off r.dev r.agent (r.hostOf e)) r

end Sys2Proof.Machine
end

