-- ==== Sys2Proof/Machine/Peer.lean ====
section
/-! DEFINITION. Peer coherence messages and forwarded requests (06, 03 R82-R83, 13 Table 13-7): requests of proxies at this
home, this device's own proxy, answers from other devices, snoops relayed for other homes. -/

namespace Sys2Proof.Machine

/-! ### Requests that arrive (R224, R82, R83) -/

def opWrites (op : HomeOp) : Bool :=
  match op with
  | .wr _ _ _ _ | .rmw _ | .mashWr _ _ _ | .mashRmw _ | .pRdX | .pUpg | .pWr _ _ _ | .pWb _ => true
  | _ => false

/-- The request that a message carries, in the class in which it came; its original requester stands in its extension (R233). -/
def msgReq (h : Hdr) (x : Ext) (op : HomeOp) (line : Nat) : Req :=
  { op := op, dev := x.dev, agent := x.agent, tag := h.tag, frame := x.frame, parcel := x.parcel, gen := x.gen, off := x.off,
    line := line, hops := x.hops, rty := h.rty }

/-- The request that this device has sent to `dev` under `tag`; one that `dev` passed on is answered by another device (R233). -/
def sentReq (w : Work) (dev agent tag : Nat) : Option (Nat × Req) :=
  match w.home.forwarded.find? (fun x => x.1 == dev && x.2.agent == agent && x.2.tag == tag) with
  | some x => some x
  | none => if agent = 0x7F then none else w.home.forwarded.find? (fun x => x.2.agent == agent && x.2.tag == tag)

def dropSent (w : Work) (x : Nat × Req) : Work :=
  { w with home := { w.home with forwarded := w.home.forwarded.filter (· != x) } }

/-- Check and serve a request that came from a peer (R83). A request of this device's own that comes back to it is served as the
access that it was (R233). -/
def arrive (e : Env) (w : Work) (r : Req) : Work :=
  let (r, w) : Req × Work := if r.dev = e.board then
      (match sentReq w e.board r.agent r.tag with
       | some x => ({ x.2 with op := x.2.after.getD x.2.op, after := none, hops := r.hops, rty := r.rty }, dropSent w x)
       | none => (r, w))
    else (r, w)
  let q : Asker := if 0x7E ≤ r.agent then .own else .fwd r.dev r.gen r.frame
  checked e w r (accessCheck e w q r.parcel r.off (opWrites r.op))

/-- A device that is back reports a host of its own as ACTIVE: a request of that host counts as the report, for one that is SUSPECT
here and for one that was LOST and has no sweep here left (R246, 05 R214; log 107). -/
def reported (e : Env) (w : Work) (dev agent : Nat) : Work :=
  if dev = e.board ∨ 0x40 ≤ agent ∨ reachable w dev = false then w
  else match (w.host dev agent).coh with
    | .active => w
    | .suspect => becomeActive e w dev agent
    | .lost => if w.dir.sweeps.any (fun x => x.dev == dev && x.agent == some agent) then w else becomeActive e w dev agent

/-- A forwarded request of Table 13-7: it names its requester in the extension (R82, R233). -/
def fwdIn (h : Hdr) (x : Ext) (op : HomeOp) (s : State) : Host.Outcome State Fault Refusal :=
  peerTraffic h [x.agent] s (fun e w => arrive e (reported e w x.dev x.agent) (msgReq h x op 0))

/-- A request of a proxy (Table 6-4). -/
def proxyIn (h : Hdr) (x : Ext) (op : HomeOp) (line : Nat) (s : State) : Host.Outcome State Fault Refusal :=
  peerTraffic h [x.agent] s (fun e w => arrive e w (msgReq h x op line))

/-- This device's secondary copy of a line that device `d` homes (04 R115). -/
def secondaryHere (e : Env) (w : Work) (d : Nat) (x : Ext) (line : Nat) : Bool :=
  match locate e w (cadEntry w x.parcel) x.off with
  | .copies p (some s) _ _ _ => p.dev == d && s.dev == e.board && s.dpa / 64 == line
  | _ => false

/-- Read a secondary copy for its home: one that returns an uncorrectable error takes the poison pattern, with its record
(04 R115; log 165). -/
def readSecondary (e : Env) (w : Work) (dev parcel line : Nat) : Payload × Work :=
  let key := keyOf e w parcel
  let w := carryFromPeer e w acctDev .request dev line false
  let (p, w) : Payload × Work := if !serving w line then (⟨0, true⟩, w)
    else
      let w := memRead w acctDev line 1
      match rawRead w key line with
      | some p => (p, w)
      | none => (⟨0, true⟩, raiseUe e (rawWrite (noteUe e w line) key line ⟨0, true⟩) line)
  (p, carryToPeer e w acctDev .answer dev line true)

/-- PRdCur: of a proxy, or of a home that reads its line's secondary copy here. -/
def execPrdcur (h : Hdr) (x : Ext) (line : Nat) (s : State) : Host.Outcome State Fault Refusal :=
  peerTraffic h [x.agent] s (fun e w =>
    if secondaryHere e w h.dev x line then
      let (p, w) := readSecondary e w h.dev x.parcel line
      w.emit (.peer { op := 0x20, dev := h.dev, dst := h.src, tag := h.tag, line := line, data := some p, args := [0] })
    else arrive e w (msgReq h x .pRdCur line))

def execPrds (h : Hdr) (x : Ext) (line : Nat) (s : State) : Host.Outcome State Fault Refusal := proxyIn h x .pRdS line s
def execPrdx (h : Hdr) (x : Ext) (line : Nat) (s : State) : Host.Outcome State Fault Refusal := proxyIn h x .pRdX line s
def execPupg (h : Hdr) (x : Ext) (line : Nat) (s : State) : Host.Outcome State Fault Refusal := proxyIn h x .pUpg line s

def execPwr (h : Hdr) (x : Ext) (line : Nat) (d : Payload) (mask : BitVec 64) (s : State) :
    Host.Outcome State Fault Refusal :=
  proxyIn h x (.pWr d mask (mask == BitVec.allOnes 64)) line s

def execPwb (h : Hdr) (x : Ext) (line : Nat) (d : Payload) (s : State) : Host.Outcome State Fault Refusal :=
  proxyIn h x (.pWb d) line s

def execPevict (h : Hdr) (x : Ext) (line : Nat) (s : State) : Host.Outcome State Fault Refusal := proxyIn h x .pEvict line s

def execFwdRdI (h : Hdr) (x : Ext) (s : State) : Host.Outcome State Fault Refusal := fwdIn h x (.rd .i) s
def execFwdRdS (h : Hdr) (x : Ext) (s : State) : Host.Outcome State Fault Refusal := fwdIn h x (.rd .s) s
def execFwdRdA (h : Hdr) (x : Ext) (s : State) : Host.Outcome State Fault Refusal := fwdIn h x (.rd .a) s

def execFwdWr (h : Hdr) (x : Ext) (mv : Meta) (d : Payload) (s : State) : Host.Outcome State Fault Refusal :=
  fwdIn h x (.wr mv d (BitVec.allOnes 64) true) s

def execFwdWrPtl (h : Hdr) (x : Ext) (mv : Meta) (d : Payload) (mask : BitVec 64) (s : State) :
    Host.Outcome State Fault Refusal :=
  fwdIn h x (.wr mv d mask false) s

def execFwdClnevct (h : Hdr) (x : Ext) (s : State) : Host.Outcome State Fault Refusal := fwdIn h x .evict s
def execFwdAtomic (h : Hdr) (x : Ext) (op : Rmw) (s : State) : Host.Outcome State Fault Refusal := fwdIn h x (.rmw op) s
def execMashRd (h : Hdr) (x : Ext) (s : State) : Host.Outcome State Fault Refusal := fwdIn h x .mashRd s

def execMashWr (h : Hdr) (x : Ext) (d : Payload) (mask : BitVec 64) (s : State) : Host.Outcome State Fault Refusal :=
  fwdIn h x (.mashWr d mask (mask == BitVec.allOnes 64)) s

def execMashRmw (h : Hdr) (x : Ext) (op : Rmw) (s : State) : Host.Outcome State Fault Refusal := fwdIn h x (.mashRmw op) s

/-! ### This device's proxy (R215-R221, R227) -/

def stCode (s : PeerSt) : Nat := match s with | .i => 0 | .s => 1 | .e => 2 | .o => 3 | .m => 4

/-- A write-back or write of this proxy to the line that has not completed (R227). -/
def ownPending (w : Work) (dev line : Nat) : Bool :=
  w.home.forwarded.any (fun x => x.1 == dev && x.2.line == line && (match x.2.op with
    | .pWb _ | .pEvict | .pWr _ _ _ => true
    | _ => false))

/-- PRsp: the resulting state, with data and a dirty flag. -/
def prspMsg (m : PeerMsg) (st : PeerSt) (dirty : Bool) (d : Option Payload) : Out :=
  .peer { op := 0x1D, dev := m.dev, src := m.dst, dst := m.src, tag := m.tag, line := m.line, data := d,
          args := [stCode st, if dirty then 1 else 0] }

/-- Answer a peer snoop by the state held now (Table 6-3). -/
def answerSnoop (e : Env) (w : Work) (m : PeerMsg) : Work :=
  let w := carryRelayed e w m.dev 0x7F m.line (ncGet w m.dev m.line).isSome
  match ncGet w m.dev m.line with
  | none => w.emit (prspMsg m .i false none)
  | some n =>
    let d : Payload := ⟨n.data, n.poison⟩
    let own := n.st == some .m || n.st == some .o || n.st == some .e
    let dirty := n.st == some .m || n.st == some .o
    if m.op = 0x18 then (ncDrop w m.dev m.line).emit (prspMsg m .i dirty (if own then some d else none))
    else if m.op = 0x19 then
      let st : PeerSt := if dirty then .o else .s
      (ncPut w m.dev m.line { n with st := some st }).emit (prspMsg m st dirty (some d))
    else if m.op = 0x1A then w.emit (prspMsg m (n.st.getD .i) dirty (some d))
    else (ncPut w m.dev m.line { n with st := some .o, dirty := true }).emit (prspMsg m .o true (some d))

/-- A peer snoop arrives: answered now, or once this proxy's own writes to the line have completed (R227). Snoop and answer cross the
fabric between the port and the proxy die. -/
def snoopIn (op : Nat) (h : Hdr) (line : Nat) (s : State) : Host.Outcome State Fault Refusal :=
  peerTraffic h [] s (fun e w =>
    let m : PeerMsg := { op := op, dev := h.dev, src := h.src, dst := h.dst, tag := h.tag, line := line }
    let w := carryRelay e w h.dev 0x7F line
    if ownPending w h.dev line then { w with home := { w.home with snoops := w.home.snoops ++ [m] } }
    else answerSnoop e w m)

def execPsnpinv (h : Hdr) (line : Nat) (s : State) : Host.Outcome State Fault Refusal := snoopIn 0x18 h line s
def execPsnpshr (h : Hdr) (line : Nat) (s : State) : Host.Outcome State Fault Refusal := snoopIn 0x19 h line s
def execPsnpcur (h : Hdr) (line : Nat) (s : State) : Host.Outcome State Fault Refusal := snoopIn 0x1A h line s
def execPsnptake (h : Hdr) (line : Nat) (s : State) : Host.Outcome State Fault Refusal := snoopIn 0x1B h line s

/-- Snoops whose wait is over. -/
def dueSnoops (e : Env) (w : Work) : Work :=
  (w.home.snoops.filter (fun m => !ownPending w m.dev m.line)).foldl (answerSnoop e)
    { w with home := { w.home with snoops := w.home.snoops.filter (fun m => ownPending w m.dev m.line) } }

/-- A grant at the proxy (R215, R219): the line is installed, and the access that asked for it is served; a write makes
it M (Table 6-1). -/
def grantIn (e : Env) (w : Work) (x : Nat × Req) (line : Nat) (st : PeerSt) (d : Option Payload) : Work :=
  let r := x.2
  let w := dropSent w x
  let held : Option Payload := match ncGet w x.1 line with
    | some n => some ⟨n.data, n.poison⟩
    | none => none
  let p := (if d.isSome then d else held).getD ⟨0, true⟩
  let n : NcLine := { data := p.data, poison := p.poison, dirty := false, parcel := r.parcel, st := some st,
                      gen := r.gen, off := r.off }
  match r.after with
  | some (.mashWr v m full) =>
    let q := mergedWrite p v m full
    replyCmp e (ncFill e w x.1 line { n with data := q.data, poison := q.poison, dirty := true, st := some .m }) r true
  | _ => replyData e (ncFill e w x.1 line n) r .cmp p

def execPgnt (h : Hdr) (line : Nat) (st : PeerSt) (d : Option Payload) (s : State) : Host.Outcome State Fault Refusal :=
  peerTraffic h [] s (fun e w =>
    match sentReq w h.dev h.dst h.tag with
    | some x => if x.2.line = line then
        dueProxy e (dueSnoops e (grantIn e (carryBack e w x.2 x.1 d.isSome) x line st d)) else w
    | none => w)

def execProxyDrop (dev line : Nat) (s : State) : Host.Outcome State Fault Refusal :=
  traffic s (fun e w => if dev = e.board then w else proxyDrop e w dev line)

/-! ### Answers from other devices (R505) -/

/-- The completion that a forwarded read comes back with. -/
def grantOf (w : Work) (r : Req) : HostCmp :=
  if !tracked w r.parcel then .cmp else match r.op with
    | .rd .s => .cmpS
    | .rd .a => .cmpE
    | _ => .cmp

/-- A home's transaction that waits for a copy on device `dev` (04 R115). -/
def copyTxn (w : Work) (dev tag : Nat) : Option Txn :=
  w.home.txns.find? (fun t => t.req.tag == tag && (match t.copy with | some p => p.dev == dev | none => false))

def dataIn (e : Env) (w : Work) (h : Hdr) (d : Payload) : Work :=
  match copyTxn w h.dev h.tag with
  | some t => copyArrived e w t d
  | none =>
    match sentReq w h.dev h.dst h.tag with
    | none => w
    | some x =>
      let w := dropSent (carryBack e w x.2 x.1 true) x
      match x.2.op with
      | .rmw _ | .mashRmw _ => replyRmw e w x.2 (bitsOf d.data.toNat 127 0) d.poison
      | _ => replyData e w x.2 (grantOf w x.2) d

def execData (h : Hdr) (d : Payload) (s : State) : Host.Outcome State Fault Refusal :=
  peerTraffic h [] s (fun e w => dueConflicts e (dueProxy e (dueSnoops e (dataIn e w h d))))

/-- A free operation slot (04 R147). -/
def freeSlot (w : Work) : Option Nat := (List.range 3).find? (fun k => !mhas w.ops k)

/-- A slot that a new operation may take: IDLE, or that of a resilver that is DONE (log 16). -/
def takeSlot (w : Work) : Option Nat :=
  match freeSlot w with
  | some k => some k
  | none => (w.ops.find? (fun x => x.2.kind == 3 && x.2.st == 3)).map (·.1)

/-- Store a slot and show it in PROTECT.SLOT (04 Table 4-8). -/
def setSlot (w : Work) (k : Nat) (o : OpSlot) : Work :=
  let w := { w with ops := mset w.ops k o }
  let v := o.st + o.kind * 16 + (if o.kind = 1 then 2 ^ 16 * o.chan else 2 ^ 16 * o.parcel)
  (w.setReg (aProtectSlotStatus k) v).setReg2 (aProtectSlotMark k) o.mark

/-- A slot returns to IDLE. -/
def clearSlot (w : Work) (k : Nat) : Work :=
  (({ w with ops := mdel w.ops k }).setReg (aProtectSlotStatus k) 0).setReg2 (aProtectSlotMark k) 0

/-- The slot of an establishment or resilver whose mirror has answered its claim (04 R140). -/
def claimAnswered (w : Work) (dev : Nat) (ok : Bool) : Work :=
  match w.ops.find? (fun x => !x.2.claimed && x.2.peer == dev) with
  | none => w
  | some (k, o) =>
    if ok then setSlot w k { o with claimed := true }
    else (clearSlot w k).setReg aProtectStatus 0x010D

def execCmp (h : Hdr) (s : State) : Host.Outcome State Fault Refusal :=
  peerTraffic h [] s (fun e w =>
    match sentReq w h.dev h.dst h.tag with
    | some x => dueConflicts e (dueProxy e (dueSnoops e (replyCmp e (dropSent (carryBack e w x.2 x.1 false) x) x.2 true)))
    | none => claimAnswered w h.dev true)

/-- A home's transaction that waits for device `dev` to acknowledge a mirror write, by its tag. -/
def mirrorTxn (w : Work) (dev tag : Nat) : Option Txn :=
  w.home.txns.find? (fun t => match t.mirror with
    | some m => m.1 == dev && t.req.tag == tag
    | none => (match takingOf t dev with | some x => x.2.1.tag == tag | none => false))

/-- The answer of a home that refuses a request of this device: an AtomicOp to a WINDOW line gives Completer Abort (05 R199). -/
def refusedAway (e : Env) (w : Work) (r : Req) : Work :=
  match r.op with
  | .rmw _ => if eKind (cadEntry w r.parcel) = 1 ∧ r.ans = .normal ∧ r.tile = none ∧ r.agent < 0x40 then w.emit (.hostCa r.agent r.tag)
      else refuseReq e w r
  | _ => refuseReq e w r

def execErr (h : Hdr) (s : State) : Host.Outcome State Fault Refusal :=
  peerTraffic h [] s (fun e w =>
    match copyTxn w h.dev h.tag with
    | some t => copyArrived e w t ⟨0, true⟩
    | none => match sentReq w h.dev h.dst h.tag with
      | some x => dueConflicts e (dueProxy e (dueSnoops e (refusedAway e (dropSent (carryBack e w x.2 x.1 (isRead x.2.op)) x) x.2)))
      | none => match mirrorTxn w h.dev h.tag with
        | some t => mirrorRefused e (carryFromPeer e w t.req.acct .answer h.dev t.req.line false) t h.dev
        | none => claimAnswered w h.dev false)

/-- PRsp: a peer's answer to a snoop of this home (Table 6-3). -/
def execPrsp (h : Hdr) (line : Nat) (st : PeerSt) (dirty : Bool) (d : Option Payload) (s : State) :
    Host.Outcome State Fault Refusal :=
  peerTraffic h [] s (fun e w =>
    match findTxn w line with
    | some t => pagesDone e (peerAnswer e w t h.dev st dirty d)
    | none => w)

/-- A BIRsp of a peer's host (05 R157), or agent 0x40 for all the hosts a relayed snoop reached. -/
def execHostSnpRsp (h : Hdr) (agent line : Nat) (resp : SnpResp) (s : State) : Host.Outcome State Fault Refusal :=
  peerTraffic h [] s (fun e w =>
    match findTxn w line with
    | some t => pagesDone e (hostAnswer e w t h.dev agent resp)
    | none => w)

/-! ### Snoops relayed to this device's hosts (05 R157, R166; 06 R223, R251) -/

/-- The hosts of this device that a PSnpHost names: a list, or the holders of the parcel that region bits cover. -/
def relayHosts (e : Env) (w : Work) (parcel regions : Nat) (hosts : List Nat) : List Nat :=
  if hosts.isEmpty then (parcelHolders w parcel).filter (fun a => bitAt regions (a / 16))
  else hosts.filter (fun a => decide (a < 64) && (w.host e.board a).coh != .lost)

/-- Emit the snoops of a PSnpHost; those of a SUSPECT host wait, those of a LOST one count as answered (R730). -/
def relaySnoops (e : Env) (w : Work) (h : Hdr) (parcel line lines kind regions : Nat) (hosts : List Nat) : Work :=
  let k : Snp := if kind = 0 then .cur else if kind = 1 then .data else .inv
  let hs := (relayHosts e w parcel regions hosts).filter (fun a => (w.host e.board a).coh != .lost)
  let n := max 1 lines
  let ix := ((List.range n).map (fun i => hs.map (fun a => 64 * i + a))).flatten
  let up (x : Nat) : Bool := (w.host e.board (x % 64)).coh == .active && headUp w (x % 64)
  let y : Relay := { dev := h.dev, tag := h.tag, line := line, lines := n, kind := k, agents := ix.filter up,
                     held := ix.filter (fun x => !up x), whole := hosts.isEmpty, since := e.clk.now }
  let w := (ix.filter up).foldl (fun w x => carryRelay e w h.dev (x % 64) (line + x / 64)) w
  let w := { w with out := ((ix.filter up).map (fun x => Out.hostSnp (x % 64) (line + x / 64) k)).reverse ++ w.out }
  if ix.isEmpty then
    w.emit (.peer { op := 0x25, dev := h.dev, tag := h.tag, line := line, args := [hosts.headD 0x40, 0] })
  else { w with home := { w.home with relays := w.home.relays ++ [y] } }

def execPsnphost (h : Hdr) (parcel line lines kind regions : Nat) (hosts : List Nat) (s : State) :
    Host.Outcome State Fault Refusal :=
  peerTraffic h hosts s (fun e w => relaySnoops e w h parcel line lines kind regions hosts)

/-! ### Sweeps and promoted pages (R241, R251) -/

/-- Treat the entry of a line that names a lost device (R241); an owner with a surviving sharer is replaced by PSnpTake. -/
def touchLost (e : Env) (d : Nat) (w : Work) (l : Nat) : Work :=
  if (findTxn w l).isSome then w
  else
    let p := (dirGet w l).parcel
    let w := treatLost e w p l
    if (dirGet w l).peers.contains d then openReq e w (ownReq e w .touch p 0 l) none else w

/-- Treat the next entries that name a lost device (R241). -/
def execPeerLostSweep (dev count : Nat) (s : State) : Host.Outcome State Fault Refusal :=
  traffic s (fun e w =>
    if !(w.dir.sweeps.any (fun x => x.dev == dev && x.agent == none)) then w
    else
      let sel (d : DirEntry) : Bool := d.peers.contains dev
      let ls := (sweepLines w sel).filter (fun l => (findTxn w l).isNone)
      let w := (ls.take count).foldl (touchLost e dev) w
      if (sweepLines w sel).isEmpty then
        { w with dir := { w.dir with sweeps := w.dir.sweeps.filter (fun x => !(x.dev == dev && x.agent == none)) } }
      else w)

/-- The transaction that resolves line `i` of a page: BISnpInv to every own holder, and with the page's first line the PSnpHost for
the page to every other device of dev_set (R251). -/
def pageLine (e : Env) (parcel page base : Nat) (w : Work) (i : Nat) : Work :=
  let x := cadEntry w parcel
  let line := base + i
  let (s, h, w) := sendSnoops e w acctBg { parcel := parcel } line
    ((parcelHolders w parcel).map (fun a => Target.host e.board a .inv))
  let far := (members (eDevSet x)).filter (fun d => d != e.board && !isLost w d)
  let (fs, fh) := (if i = 0 then far.map (fun x => Target.host x 0x40 .inv) else []).partition (fun t => snoopFate e w t == .sent)
  let w := fs.foldl (fun w t => match t with
    | .host x _ _ => (carrySnoop e w acctBg line t).emit (.peer { op := 0x1C, dev := x, line := line, args := [parcel, 64, 2, 0xF] })
    | .peer _ _ => w) w
  let t : Txn := {
    req := { ownReq e w .recall parcel (4096 * page + 64 * i) line with tag := 0, acct := acctBg }
    waits := s ++ fs, held := h ++ fh, phase := 1, since := e.clk.now }
  if t.waits.isEmpty && t.held.isEmpty then w else putTxn w t

/-- A promoted device resolves a page (R251), once no transaction of its lines is open; the page's bit follows the last answer. -/
def resolvePage (e : Env) (w : Work) (parcel page : Nat) : Work :=
  let x := cadEntry w parcel
  match locate e w x (4096 * page) with
  | .copies p _ _ true _ =>
    let base := p.dpa / 64
    if p.dev ≠ e.board ∨ tracked w parcel = false ∨ w.pool.recovered.contains parcel = true ∨
        p0Bit e w (recoveryBase x) page = true ∨ w.home.resolving.contains (parcel, page) = true ∨
        w.home.txns.any (fun t => decide (base ≤ t.req.line) && decide (t.req.line < base + 64)) = true then w
    else
      let w := { w with home := { w.home with resolving := w.home.resolving ++ [(parcel, page)] } }
      pagesDone e ((List.range 64).foldl (pageLine e parcel page base) w)
  | _ => w

/-! ### Sync operations and releases (10 R405) -/

/-- The engine's reply to a sync descriptor of a peer, in RSP: none while it is held; RETRY for want of an entry (R421). -/
def syncReply (e : Env) (w : Work) (h : Hdr) (line ring n : Nat) (r : SyncRes) : Work :=
  let w := if r = .held then w else carryToPeer e w acctDev .answer h.dev line false
  let rel (st res : Nat) : Work :=
    syncTell w line (.peer { op := 0x41, dev := h.dev, dst := h.src, tag := h.tag, args := [ring, n, st, res] })
  match r with
  | .ok res => rel stOk res
  | .held => w
  | .overrun => rel stOverrun 0
  | .refused => rel stPermission 0
  | .full => w.emit (.peer { op := 0x23, dev := h.dev, dst := h.src, tag := h.tag })

/-- A sync descriptor of a peer, or the arrival of a window there with the barrier's current sense (08 R353), at the engine of its object; a line with an open transaction gives RETRY (R405). -/
def syncOpAt (e : Env) (w : Work) (h : Hdr) (o : Obj) (ctx ring dtag : Nat) (k : SyncKind) : Work :=
  let q : SyncWho := ⟨h.dev, h.src, if ring = noRing then none else some ctx, ring, dtag, h.tag⟩
  if (findTxn w o.line).isSome || (reservation w o.line).isSome then syncReply e w h o.line ring dtag .full
  else
    let (r, w) := match k with
      | .arrive sense wait t =>
        let (v?, w) := objRead e w o
        syncArrive e w o q (if ring = noRing then (v?.map oSense).getD 0 else if sense then 1 else 0) wait t
      | .wait t => syncWait e w o q t
      | .signal k => syncSignal e w o q k
      | .broadcast => syncBroadcast e w o q
    syncReply e w h o.line ring dtag r

/-- The object stands where its parcel offset resolves to; the line that the message names is its sender's resolution. -/
def execSyncOp (h : Hdr) (x : Ext) (line ctx ring dtag : Nat) (k : SyncKind) (s : State) :
    Host.Outcome State Fault Refusal :=
  peerTraffic h [] s (fun e w =>
    let w := carryFromPeer e w acctDev .request h.dev line false
    let refuse (w : Work) (st : Nat) : Work := w.emit (.peer { op := 0x41, dev := h.dev, dst := h.src, tag := h.tag, args := [ring, dtag, st, 0] })
    match accessCheck e w (.fwd h.dev x.gen x.frame) x.parcel x.off true with
    | .served l =>
      match l.primary w with
      | some p => if p.dev = e.board ∧ eKind (cadEntry w x.parcel) = 2 then
            syncOpAt e w h ⟨x.parcel, x.off / 64 * 64, p.dpa / 64⟩ ctx ring dtag k
          else refuse w stPermission
      | none => refuse w stTranslation
    | c => refuse (raiseRefusal e w c x.parcel x.off h.dev h.src none)
        (if c = .revoked then stRevokedParcel else if c = .permission then stPermission else stTranslation))

/-- A held sync descriptor's release reaches its ring scheduler. -/
def execSyncRelease (h : Hdr) (ring n status result : Nat) (s : State) : Host.Outcome State Fault Refusal :=
  peerTraffic h [] s (fun _ w =>
    match getDesc w ring n with
    | some d => if d.phase = .held then finishDesc w ring n status result 0 else w
    | none => w)

/-- A die's report that its lines of a window bank have all reached N (08 R352). -/
def execWindowReport (win bank die : Nat) (s : State) : Host.Outcome State Fault Refusal :=
  traffic s (fun e w => winReport e w win bank die)

/-! ### TWIN mirror writes (04 R114, R134; 06 R236-R238) -/

/-- The place on this device of the copy that a mirror write is for. -/
def mirrorPlace (e : Env) (w : Work) (home parcel off : Nat) : Option (Place × Place) :=
  match locate e w (cadEntry w parcel) off with
  | .copies p (some s) _ _ _ => if p.dev = home ∧ s.dev = e.board then some (p, s) else none
  | .copies p none (some s) _ _ => if p.dev = home ∧ s.dev = e.board then some (p, s) else none
  | _ => none

/-- A recent-write entry is free: older than 5 frames, and its home neither absent nor lost without its promotion (R134). -/
def recentFree (e : Env) (w : Work) (x : Nat × Nat × Nat × Nat) : Bool :=
  decide (x.2.2.2 + 5 < e.clk.frame) && reachable w x.2.2.1

/-- Refresh the recent-write entry (parcel, Sheet index, home, frame); a full table marks the plot instead (R134). -/
def noteRecent (e : Env) (w : Work) (home parcel off : Nat) : Work :=
  let i := (sheetIndex (cadEntry w parcel) off).2
  let rest := w.pool.recent.filter (fun x => !(x.1 == parcel && x.2.1 == i && x.2.2.1 == home) && !recentFree e w x)
  if rest.length < 4096 then { w with pool := { w.pool with recent := rest ++ [(parcel, i, home, e.clk.frame)] } }
  else setDirtyPlot e w parcel off

/-- The slot of a mirror for a parcel. -/
def mirrorSlot (w : Work) (parcel : Nat) : Option (Nat × OpSlot) := w.ops.find? (fun x => x.2.mirror && x.2.parcel == parcel)

/-- A plot of a resilver here that the other copy may not match: it counts as marked (R138). -/
def markPlot (e : Env) (w : Work) (parcel off : Nat) : Work :=
  match mirrorSlot w parcel with
  | some (k, o) => { w with ops := mset w.ops k { o with plots := sadd o.plots (sheetIndex (cadEntry w parcel) off).2 } }
  | none => w

/-- A mirror write into this device's copy. The plot's bit is set first where the home cannot write its own copy; an acknowledgement
says where this one could not be written (R133). A rebuild step that fetches the line gives way to the later write (R126). -/
def mirrorIn (e : Env) (w : Work) (h : Hdr) (parcel off line : Nat) (d : Payload) (up : Bool) : Bool × Work :=
  let w := noteRecent e w h.dev parcel off
  let w := if up then w else setDirtyPlot e w parcel off
  let w := match findTxn w line with
    | some t => if t.req.op = .touch ∧ t.copy.isSome = true then delTxn w line else w
    | none => w
  let (ok, w) := writeCopy w (accOwn parcel e) (keyOf e w parcel) line d
  (ok, if ok then w else markPlot e w parcel off)

/-- A mirror write (R114). -/
def execMirrorWr (h : Hdr) (parcel gen off : Nat) (m : MirrorLine) (s : State) : Host.Outcome State Fault Refusal :=
  peerTraffic h [] s (fun e w =>
    let nak (w : Work) : Work := w.emit (.peer { op := 0x22, dev := h.dev, dst := h.src, tag := h.tag })
    match accessCheck e w (.fwd h.dev gen 0) parcel off true, mirrorPlace e w h.dev parcel off with
    | .served _, some (p, q) =>
      let line := q.dpa / 64
      let (ok, w) := mirrorIn e (carryFromPeer e w acctDev .request h.dev line true) h parcel off line m.data m.up
      (carryToPeer e w acctDev .answer h.dev line false).emit
        (.peer { op := 0x31, dev := h.dev, dst := h.src, tag := h.tag, line := p.dpa / 64, args := [if ok then 0 else 1] })
    | .served _, none => nak w
    | c, _ => nak (raiseRefusal e w c parcel off h.dev h.src none))

/-- The mirror's acknowledgement. -/
def execMirrorAck (h : Hdr) (a : MirrorDone) (s : State) : Host.Outcome State Fault Refusal :=
  peerTraffic h [] s (fun e w =>
    match findTxn w a.line with
    | some t => mirrorAcked e (carryFromPeer e w t.req.acct .answer h.dev a.line false) t h.dev (!a.ok)
    | none => w)

/-! ### Operation slots at the mirror (04 R140-R142) -/

/-- A claim from the source, with the plots that are marked there (log 163): answered by CMP with a slot, by ERR without (R140).
Entries with a valid secondary are resilvered, the others established. A slot that stands for the operation goes on. -/
def execSlotClaim (h : Hdr) (c : SlotClaim) (s : State) : Host.Outcome State Fault Refusal :=
  peerTraffic h [] s (fun e w =>
    let answer (op : Nat) (w : Work) : Work := w.emit (.peer { op := op, dev := h.dev, dst := h.src, tag := h.tag })
    let own := match mirrorSlot w c.parcel with
      | some (k, o) => if o.peer = h.dev ∧ o.st ≠ 4 then some (k, o) else none
      | none => none
    match own, takeSlot w with
    | some (k, o), _ => answer 0x21 { w with ops := mset w.ops k { o with plots := c.plots } }
    | none, none => answer 0x22 w
    | none, some k =>
      let kind := match locate e w (cadEntry w c.parcel) 0 with
        | .copies _ (some _) _ _ _ => 3
        | _ => 2
      answer 0x21 (setSlot w k { kind := kind, parcel := c.parcel, peer := h.dev, mirror := true, plots := c.plots }))

/-- The source's watermark, for this mirror's next boundary (R142). -/
def execMark (h : Hdr) (parcel value : Nat) (s : State) : Host.Outcome State Fault Refusal :=
  peerTraffic h [] s (fun _ w =>
    match mirrorSlot w parcel with
    | some (k, o) => if o.peer = h.dev ∧ o.st ≠ 4 then { w with ops := mset w.ops k { o with next := some value } } else w
    | none => w)

/-- A copied line of establishment or resilver (R141, 06 R237), or of a page that moves here (03 R97, log 18). -/
def execCopyWr (h : Hdr) (line : Nat) (d : Payload) (s : State) : Host.Outcome State Fault Refusal :=
  peerTraffic h [] s (fun e w =>
    match w.pool.move.filter (fun m => m.tdev == e.board && m.tpage == line / 64) with
    | some m =>
      let w := carryFromPeer e w acctDev .request h.dev line true
      (writeCopy w (accOwn m.parcel e) (keyOf e w m.parcel) line d).2
    | none =>
      match w.ops.find? (fun x => x.2.mirror && x.2.peer == h.dev && x.2.st != 4 && eState (cadEntry w x.2.parcel) == stAssigned) with
      | some (_, o) =>
        let w := carryFromPeer e w acctBg .request h.dev line true
        (writeCopy w (accBg o.parcel e) (keyOf e w o.parcel) line d).2
      | none => w)

end Sys2Proof.Machine
end

