-- ==== Sys2Proof/Machine/Channel.lean ====
section
/-! DEFINITION. DRAM channels (14): queues and scheduling, refresh and RFM slots, alerts, training; their service states
and rebuild (04 R116-R129); row repair (14 R567-R569) and bank masks (15 R601). -/

namespace Sys2Proof.Machine

def Work.chan (w : Work) (c : Nat) : Chan := mgetD w.chans.ch c {}

def Work.setChan (w : Work) (c : Nat) (x : Chan) : Work := { w with chans := { w.chans with ch := mset w.chans.ch c x } }

/-! ### Lines read and written at the controller (14 R539-R543, R572) -/

/-- A line that the home reads comes back from DRAM with an error on it (15 R572, Table 15-1). -/
def execDramReadReturn (line : Nat) (err : Image) (s : State) : Host.Outcome State Fault Refusal :=
  traffic s (fun e w => readReturn e w line err)

/-- Drain entry and exit levels (Table 14-5), from the value of SCHED in force. -/
def wrHi (w : Work) (c : Nat) : Nat := min 64 (w.livF (aChannelSched c) 15 8)
def wrLo (w : Work) (c : Nat) : Nat := min (w.livF (aChannelSched c) 7 0) (wrHi w c - 1)

/-- The age cap in ps (Table 14-5). -/
def ageCap (w : Work) (c : Nat) : Nat := 64000 * max 1 (w.livF (aChannelSched c) 23 16)

/-- Drain mode after a change of the write queue (R541). -/
def drainOf (w : Work) (c : Nat) (x : Chan) : Chan :=
  let n := x.writes.length
  { x with drain := if n ≥ wrHi w c then true else if n ≤ wrLo w c then false else x.drain }

/-- The controller takes accesses: in service, or in READY. -/
def takesAccess (w : Work) (c : Nat) : Bool :=
  chanState w c == chOnline || chanState w c == chReady || chanState w c == chRebuilding

/-- A read arrives: a queued write to its line is from now on past the age cap (R542). -/
def queueRead (x : Chan) (line t acct : Nat) : Chan :=
  { x with
    reads := x.reads ++ [{ line := line, t := t, acct := acct }]
    writes := x.writes.map (fun q => if q.line = line then { q with urgent := true } else q) }

/-- A write arrives: it replaces the data of a queued write to its line, or takes an entry (R542, R543). -/
def queueWrite (x : Chan) (line t : Nat) (d : Line) (acct : Nat) : Chan :=
  if x.writes.any (fun q => q.line == line) then
    { x with writes := x.writes.map (fun q => if q.line = line then { q with data := d } else q) }
  else { x with writes := x.writes ++ [{ line := line, t := t, data := d, acct := acct }] }

/-- A line read or write reaches the controller's queues; a full queue returns no credit, so none arrives (R539). -/
def execDramAccessArrive (chan : Nat) (isWrite : Bool) (line t : Nat) (d : Line) (s : State) :
    Host.Outcome State Fault Refusal :=
  traffic s (fun _ w =>
    let x := w.chan chan
    let a := mgetD w.chans.asked line acctDev
    if channelOf w line ≠ chan ∨ takesAccess w chan = false then w
    else if isWrite then
      (if x.writes.length < 64 ∨ x.writes.any (fun q => q.line == line) = true then
         w.setChan chan (drainOf w chan (queueWrite x line t d a)) else w)
    else if x.reads.length < 128 then w.setChan chan (queueRead x line t a) else w)

/-! ### Commands on the bus (R540, R545-R550) -/

/-- Commands on the DDR5 bus, as the model numbers them in `Out.dram`: 0 RD, 1 WR, 2 REFsb, 3 RFMsb, 4 ACT, 5 ZQ
calibration, 6 manual ECS, 7 MR4 read, 8 sPPR, 9 hPPR. -/
def busRd : Nat := 0
def busWr : Nat := 1
def busRef : Nat := 2
def busRfm : Nat := 3
def busAct : Nat := 4

def rankKey (sub rank : Nat) : Nat := 4 * sub + rank
/-- A bank of the channel: rank key, bank group and bank address. -/
def bankKey (sub rank bank : Nat) : Nat := 32 * rankKey sub rank + bank

def Chan.rank (x : Chan) (sub rank : Nat) : RankSt := mgetD x.ranks (rankKey sub rank) {}

def Chan.setRank (x : Chan) (sub rank : Nat) (r : RankSt) : Chan := { x with ranks := mset x.ranks (rankKey sub rank) r }

def Chan.serial (x : Chan) : Nat := match x.mod with | some m => m.serial | none => 0

/-- Logical ranks of a module (R546). -/
def logicalRanks (m : Module) : Nat := if m.stack then 4 else m.ranks

/-- The alert window W in ps (R562). -/
def alertWindow (x : Chan) : Nat := 1000 * (Config.moduleValue x.serial 0 + 10)

/-- Note an issued command, and forget those that no alert from instant `i.t` on can reach. -/
def Chan.note (x : Chan) (i : Issued) : Chan :=
  { x with issued := i :: x.issued.filter (fun y => decide (i.t ≤ y.t + alertWindow x)) }

/-- A refresh of the bank address `b` lowers the activation count of that bank in every bank group (R548). -/
def refreshActs (x : Chan) (sub rank b : Nat) : Chan :=
  { x with acts := (List.range 8).foldl (fun m g =>
      mmod m (bankKey sub rank (4 * g + b)) 0 (fun n => n - Config.moduleValue x.serial 3)) x.acts }

/-- A REFsb to the next bank address of a rank, at instant `t`. -/
def issueRef (w : Work) (c sub rank t : Nat) : Work :=
  let x := w.chan c
  let r := x.rank sub rank
  let x := refreshActs (x.setRank sub rank { r with bank := (r.bank + 1) % 4 }) sub rank r.bank
  (w.setChan c (x.note { kind := 2, t := t, sub := sub, rank := rank, bank := r.bank, line := 0, again := false })).emit
    (.dram c sub busRef rank r.bank)

/-- REFsb ahead of every request until fewer than 16 are owed (R547). -/
def forceRefs (w : Work) (c sub rank t fuel : Nat) : Work :=
  match fuel with
  | 0 => w
  | n + 1 =>
    let r := (w.chan c).rank sub rank
    if r.owed ≥ 4096 then
      forceRefs (issueRef (w.setChan c ((w.chan c).setRank sub rank { r with owed := r.owed - 256 })) c sub rank t) c sub rank t n
    else w

/-- Refresh commands that are forced now. -/
def forced (w : Work) (c sub rank t : Nat) : Work :=
  forceRefs w c sub rank t ((((w.chan c).rank sub rank).owed - 4096) / 256 + 1)

/-- An RFMsb to a bank (R548). -/
def issueRfm (w : Work) (c sub rank bank t : Nat) : Work :=
  let x := w.chan c
  let x := { x with acts := mmod x.acts (bankKey sub rank bank) 0 (fun n => n - Config.moduleValue x.serial 4) }
  let r := x.rank sub rank
  let x := x.setRank sub rank { r with need := r.need + 1 }
  (w.setChan c (x.note { kind := 3, t := t, sub := sub, rank := rank, bank := bank, line := 0, again := false })).emit
    (.dram c sub busRfm rank bank)

/-- The time in ps of the next refresh slot of a rank: slot i of n of rank r of K lies (i + (1 + 2r) / 2K) P / n after the boundary (R546). -/
def slotTime (e : Env) (x : Chan) (rank : Nat) (r : RankSt) : Nat :=
  let k := match x.mod with | some m => logicalRanks m | none => 1
  e.clk.start + (2 * k * (r.given - r.slots) + 1 + 2 * rank) * e.period / (2 * k * max 1 r.given)

/-- The time of a refresh slot arrives (R546): its REFsb takes priority over every request to its banks. -/
def execRefreshSlot (chan sub rank : Nat) (s : State) : Host.Outcome State Fault Refusal :=
  traffic s (fun e w =>
    let r := (w.chan chan).rank sub rank
    let w := if r.slots = 0 ∨ e.clk.now < slotTime e (w.chan chan) rank r then w
      else issueRef (w.setChan chan ((w.chan chan).setRank sub rank { r with slots := r.slots - 1 })) chan sub rank e.clk.now
    forced w chan sub rank e.clk.now)

/-- RFMsb that a rank's banks need when no slot remains in the frame are issued at once, and counted (R549). -/
def lateRfm (w : Work) (c sub rank t : Nat) : Work :=
  if ((w.chan c).rank sub rank).rfm ≠ 0 then w
  else (List.range 32).foldl (fun w b =>
    if mgetD (w.chan c).acts (bankKey sub rank b) 0 ≥ max 1 (Config.moduleValue (w.chan c).serial 1) then
      (issueRfm w c sub rank b t).inc (aChannelRfmUnplanned c) 1
    else w) w

/-- An RFM slot (R548, R549): the bank whose count has reached RAAIMT receives RFMsb. -/
def execRfmSlot (chan sub rank bank : Nat) (s : State) : Host.Outcome State Fault Refusal :=
  traffic s (fun e w =>
    let x := w.chan chan
    let r := x.rank sub rank
    if r.rfm = 0 then w
    else
      let w := w.setChan chan (x.setRank sub rank { r with rfm := r.rfm - 1 })
      let w := if mgetD x.acts (bankKey sub rank bank) 0 ≥ Config.moduleValue x.serial 1 then issueRfm w chan sub rank bank e.clk.now
        else w
      lateRfm w chan sub rank e.clk.now)

/-- A command in place of a refresh slot's REFsb, which is then owed again (R550). -/
def displaceRef (w : Work) (c sub rank kind : Nat) : Work :=
  let x := w.chan c
  let r := x.rank sub rank
  if r.slots = 0 then w
  else (w.setChan c (x.setRank sub rank { r with slots := r.slots - 1, owed := r.owed + 256 })).emit (.dram c sub kind rank 0)

/-- ZQ calibration in a refresh slot (R550). -/
def execZqCalibration (chan sub rank : Nat) (s : State) : Host.Outcome State Fault Refusal :=
  traffic s (fun _ w => displaceRef w chan sub rank 5)

/-- A manual ECS operation in a refresh slot (R550). -/
def execEcsOperation (chan sub rank : Nat) (s : State) : Host.Outcome State Fault Refusal :=
  traffic s (fun _ w => displaceRef w chan sub rank 6)

/-- MR4 reports whether the rank needs a doubled refresh rate, from the next boundary on (R545). -/
def execMr4Read (chan sub rank : Nat) (double : Bool) (s : State) : Host.Outcome State Fault Refusal :=
  traffic s (fun _ w =>
    if (w.chan chan).mod.isNone then w
    else (w.setChan chan ((w.chan chan).setRank sub rank { (w.chan chan).rank sub rank with double := double })).emit
      (.dram chan sub 7 rank 0))

/-- The SPD5 hub's thermal sensors are read and reported to Kiln (R537, Table 14-4). -/
def execSpdThermalRead (chan reading : Nat) (s : State) : Host.Outcome State Fault Refusal :=
  traffic s (fun _ w => if (w.chan chan).mod.isNone then w else w.setChan chan { w.chan chan with spd := reading })

/-- The logical rank and bank of a line's burst. -/
def lineRank (w : Work) (line : Nat) : Nat := (coordOf w line).logical (w.fld (aTractGeometry (channelOf w line / 10)) 24 24)
def lineBank (w : Work) (line : Nat) : Nat := 4 * (coordOf w line).bg + (coordOf w line).bank

def lineKey (w : Work) (line : Nat) : Nat := bankKey (coordOf w line).sub (lineRank w line) (lineBank w line)

/-- The row of a line is open in its bank. -/
def rowOpen (w : Work) (c line : Nat) : Bool := mget (w.chan c).rows (lineKey w line) == some (coordOf w line).row

/-- The bank of a line may receive an ACT: its count has not reached RAAMMT (R548). -/
def mayActivate (w : Work) (c line : Nat) : Bool :=
  decide (mgetD (w.chan c).acts (lineKey w line) 0 < Config.moduleValue (w.chan c).serial 2)

/-- The fields of PPR_CTL. -/
def pprHard (v : Nat) : Bool := bitAt v 28
def pprRank (v : Nat) : Nat := bitsOf v 27 27
def pprCid (v : Nat) : Nat := bitsOf v 26 26
def pprRow (v : Nat) : Nat := bitsOf v 16 0

/-- An sPPR under way holds every request to its bank (R567). -/
def repairHolds (w : Work) (c line : Nat) : Bool :=
  match (w.chan c).ppr with
  | some p =>
    let stack := w.fld (aTractGeometry (c / 10)) 24 24
    !pprHard p.v && lineKey w line == bankKey (bitsOf p.v 25 25) (if stack = 1 then 2 * pprRank p.v + pprCid p.v else pprRank p.v) (bitsOf p.v 24 20)
  | none => false

/-- The queued access to a line that goes first: accesses to one line are issued in arrival order (R542). -/
def nextAccess (x : Chan) (line : Nat) : Option (Bool × QEntry) :=
  match x.reads.find? (fun q => q.line == line), x.writes.find? (fun q => q.line == line) with
  | some r, some v => if v.urgent then some (true, v) else some (false, r)
  | some r, none => some (false, r)
  | none, some v => some (true, v)
  | none, none => none

/-- Activate the row of a line in the name of an account (16 Table 16-1), unless its bank may receive no ACT until an RFMsb (R548); an RFMsb that is needed when no
slot remains is issued at once (R549). -/
def activate (w : Work) (c line t acct : Nat) : Work :=
  let x := w.chan c
  let k := coordOf w line
  let rank := lineRank w line
  let bank := lineBank w line
  let key := lineKey w line
  if rowOpen w c line then w
  else
    let x := { x with rows := mset x.rows key k.row, acts := mmod x.acts key 0 (· + 1) }
    let x := x.note { kind := 4, t := t, sub := k.sub, rank := rank, bank := bank, line := line, again := false }
    lateRfm ((charge (w.setChan c x) acct 0 1).emit (.dram c k.sub busAct rank bank)) c k.sub rank t

/-- A queued access that can be issued now: it is the next to its line (R542), its bank is among those that are ready, no repair holds the
bank (R567), and its row is open or may be activated (R548). -/
def issuable (w : Work) (c sub : Nat) (ready : List Nat) (wr : Bool) (q : QEntry) : Bool :=
  (coordOf w q.line).sub == sub && nextAccess (w.chan c) q.line == some (wr, q) && ready.contains (lineKey w q.line) &&
  !repairHolds w c q.line && (rowOpen w c q.line || mayActivate w c q.line)

/-- An access that has waited longer than the age cap at instant `t` (R540, R542). -/
def aged (w : Work) (c t : Nat) (q : QEntry) : Bool := q.urgent || decide (ageCap w c < t - q.t)

/-- The access that the controller chooses among its reads `rd` and writes `wr` that can be issued, oldest first (R540, R541): past the age
cap, then to an open row, then the oldest; reads first at each step, in drain mode writes. Outside drain mode a write that is not past the
age cap waits for every read. -/
def chosen (w : Work) (c t : Nat) (drain : Bool) (rd wr : List QEntry) : Option (Bool × QEntry) :=
  let old (b : Bool) (l : List QEntry) := (l.find? (aged w c t)).map (b, ·)
  let hit (b : Bool) (l : List QEntry) := (l.find? (fun q => rowOpen w c q.line)).map (b, ·)
  let any (b : Bool) (l : List QEntry) := l.head?.map (b, ·)
  if drain then old true wr <|> old false rd <|> hit true wr <|> hit false rd <|> any true wr <|> any false rd
  else old false rd <|> old true wr <|> hit false rd <|> any false rd <|> hit true wr <|> any true wr

/-- The column command of an access at instant `t` (R540-R543): the burst is sent and its entry freed. -/
def issueAccess (w : Work) (c sub t : Nat) (wr : Bool) (q : QEntry) : Work :=
  let rank := lineRank w q.line
  let w := activate w c q.line t q.acct
  let x := w.chan c
  let x := if wr then drainOf w c { x with writes := x.writes.filter (fun y => y.line != q.line) }
    else { x with reads := x.reads.erase q }
  let x := x.note { kind := if wr then 1 else 0, t := t, sub := sub, rank := rank, bank := lineBank w q.line,
                    line := q.line, again := q.again, acct := q.acct }
  (w.setChan c x).emit (.dram c sub (if wr then busWr else busRd) rank (lineBank w q.line))

/-- The channel has a re-centring slot in this frame (R551). -/
def recentreDue (e : Env) (w : Work) (c : Nat) : Bool :=
  let i := w.fld aDramRecentre 23 0
  i != 0 && e.clk.frame % i == c * i / 80

/-- Reads and writes wait during a re-centring slot, 1 µs from the boundary (R551). -/
def inRecentre (e : Env) (w : Work) (c t : Nat) : Bool := recentreDue e w c && takesAccess w c && decide (t < 1000000 + e.clk.start)

/-- REFsb that are forced on a subchannel, ahead of every request (R547). -/
def forcedSub (w : Work) (c sub t : Nat) : Work :=
  forced (forced (forced (forced w c sub 0 t) c sub 1 t) c sub 2 t) c sub 3 t

/-- What a subchannel's controller issues at instant `t`, with the banks `ready` (R540-R543). -/
def pickAccess (w : Work) (c sub t : Nat) (ready : List Nat) : Option (Bool × QEntry) :=
  chosen w c t (w.chan c).drain ((w.chan c).reads.filter (issuable w c sub ready false))
    ((w.chan c).writes.filter (issuable w c sub ready true))

/-- A controller cycle of a subchannel at instant `t`, in which the banks `ready` can take a column command (R540-R543). No command is
issued to a subchannel whose ALERT_n is low (R562). -/
def execDramCommandIssue (chan sub t : Nat) (ready : List Nat) (s : State) : Host.Outcome State Fault Refusal :=
  traffic s (fun e w =>
    if mhas (w.chan chan).alert sub || inRecentre e w chan t then w
    else
      let w := forcedSub w chan sub t
      match pickAccess w chan sub t ready with
      | some (wr, q) => issueAccess w chan sub t wr q
      | none => w)

/-! ### Re-centring (R551, R552) -/

def groupSpan (gs : AMap GroupRec) : Nat := gs.foldl (fun m g => min m g.2.span) 127

def saveRecord (w : Work) (c : Nat) : Work :=
  match (w.chan c).mod with
  | some m => { w with chans := { w.chans with trained := mset w.chans.trained c { mod := m, groups := (w.chan c).groups } } }
  | none => w

def absDiff (a b : Nat) : Nat := (a - b) + (b - a)

/-- The strobe group of a group key (20 * rank + 10 * sub + group) as the unit of a class-1 record. -/
def groupUnit (c g : Nat) : Nat := dramUnit c (g / 20) (g / 10 % 2) (g % 10)

/-- The passing runs of a sweep from step `i` on: the run under way, and the longest so far, the lower one on a tie. -/
def runScan (l : List Bool) (i : Nat) (cur : Option Nat) (best : Option (Nat × Nat)) : Option (Nat × Nat) :=
  match l with
  | [] => best
  | false :: t => runScan t (i + 1) none best
  | true :: t =>
    let f := cur.getD i
    runScan t (i + 1) (some f) (match best with
      | some (x, y) => if y - x < i - f then some (f, i) else best
      | none => some (f, i))

/-- The first and last step of the longest run of passing steps, the lower run on a tie (R554). -/
def longestRun (l : List Bool) : Option (Nat × Nat) := runScan l 0 none none

def runCentre (r : Nat × Nat) : Nat := (r.1 + r.2) / 2
def runSpan (r : Nat × Nat) : Nat := r.2 + 1 - r.1

/-- A delay moved by `d` steps stays among the 128 steps of its sweep (log 176). -/
def moveStep (x : Nat) (d : Int) : Nat := min (Int.toNat (x + d)) 127

/-- A group after a re-centring slot: its read centre at the middle of the passing steps, its write delay moved by the drift. Where no
step passes the centre stays. -/
def driftGroup (o : GroupRec) (x : Drift) : GroupRec :=
  let o := { o with wrDelay := moveStep o.wrDelay x.drift }
  match longestRun x.rd with
  | some r => { o with rdDelay := moveStep o.rdDelay ((runCentre r : Int) - 4), span := runSpan r }
  | none => { o with span := 0 }

/-- Re-centre a group: DRAM_DRIFT when its centre lies more than 8 steps from the saved record, DRAM_MARGIN when its span is below 9
steps. -/
def recentreGroup (e : Env) (c : Nat) (w : Work) (g : Nat) (x : Drift) : Work :=
  match mget (w.chan c).groups g with
  | none => w
  | some o =>
    let n := driftGroup o x
    let old := match mget w.chans.trained c with | some r => mget r.groups g | none => none
    let w := match old with
      | some o => if absDiff o.rdDelay n.rdDelay > 8 ∨ absDiff o.wrDelay n.wrDelay > 8 then raise e w { ty := 0x1006, unit := groupUnit c g } else w
      | none => w
    let w := if n.span < 9 then raise e w { ty := 0x1007, sev := 1, unit := groupUnit c g } else w
    w.setChan c { w.chan c with groups := mset (w.chan c).groups g n }

/-- What the slot found for a group; one that has not been swept passes no step. -/
def driftOf (gs : List (Nat × Drift)) (k : Nat) : Drift :=
  match gs.find? (fun x => x.1 == k) with
  | some x => x.2
  | none => ⟨[], 0⟩

/-- Re-centre every strobe group of a channel and save the record (R552, R557). -/
def recentre (e : Env) (w : Work) (c : Nat) (gs : List (Nat × Drift)) : Work :=
  let w := (w.chan c).groups.foldl (fun w g => recentreGroup e c w g.1 (driftOf gs g.1)) w
  saveRecord (w.setFld (aChannelTrainStatus c) 23 16 (groupSpan (w.chan c).groups)) c

/-- A re-centring slot; an ALERT during it abandons it and the groups keep their centres (R552). -/
def execRecentreSlot (chan : Nat) (alert : Bool) (groups : List (Nat × Drift)) (s : State) :
    Host.Outcome State Fault Refusal :=
  traffic s (fun e w =>
    if !recentreDue e w chan || !takesAccess w chan || alert || !(w.chan chan).alert.isEmpty then w else recentre e w chan groups)

/-! ### Alerts (R562-R564) -/

/-- ALERT_n is sampled low on a subchannel: issue stops, one record, and a count towards the threshold (R562, R565). -/
def execDramAlert (chan sub t : Nat) (s : State) : Host.Outcome State Fault Refusal :=
  traffic s (fun e w =>
    let x := w.chan chan
    if x.mod.isNone || mhas x.alert sub then w
    else
      let w := w.setChan chan { x with alert := mset x.alert sub t }
      let w := raise e (w.inc (aChannelAlertCount chan) 1) { ty := 0x1003, unit := dramUnit chan 0 sub 0 }
      let n := mgetD w.chans.alertWin chan 0 + 1
      let w := { w with chans := { w.chans with alertWin := mset w.chans.alertWin chan n } }
      if n ≥ errLimit w chan 30 24 then crossed e w chan 3 else w)

/-- A line whose lost write cannot be repaired: the poison pattern, and DRAM_WRITE_LOST (R564). -/
def writeLost (e : Env) (w : Work) (line : Nat) : Work :=
  raise e (rawWrite w none line ⟨0, true⟩)
    { ty := 0x1004, sev := 1, addr := 64 * line, unit := lineUnit w line 0, detail2 := coordDetail w line 0 }

/-- Copy a line from its other copy, once that copy's write has been performed: while a transaction of the line is open the repair waits, and is
tried again at each boundary (R564, log 184). -/
def repairCopy (e : Env) (w : Work) (line parcel off : Nat) (other : Place) : Work :=
  if (findTxn w line).isSome then { w with chans := { w.chans with repairs := sadd w.chans.repairs line } }
  else if other.dev = e.board then
    match localCopy e w (keyOf e w parcel) other with
    | some p => rawWrite w (keyOf e w parcel) line p
    | none => writeLost e w line
  else if isAbsent w other.dev || isLost w other.dev then writeLost e w line
  else fetchCopy e w line parcel off other

/-- The home repairs a line whose write fell in an alert window, by its class (R564): a STRIPE line from the other nine of its
stripe. -/
def repairWrite (e : Env) (w : Work) (line : Nat) : Work :=
  match ownerOf e w line with
  | none => writeLost e w line
  | some o =>
    if eClass (cadEntry w o.parcel) = 1 then
      let (q, j) := stripeAt w line
      match stripeBlock w q j with
      | some _ => writeLost e w line
      | none => restoreSlot (memWrite (memRead w acctDev line 9) acctDev line 1) q j
    else match locate e w (cadEntry w o.parcel) o.off with
      | .copies p (some s) _ _ _ => repairCopy e w line o.parcel o.off (if o.primary then s else p)
      | _ => writeLost e w line

/-- Lines whose lost write has waited are repaired, or wait on (R564). -/
def dueRepairs (e : Env) (w : Work) : Work :=
  w.chans.repairs.foldl (repairWrite e) { w with chans := { w.chans with repairs := [] } }

/-- One command of the alert window (R562-R564): a read is issued again, or poisoned the second time; a write is
repaired; a refresh is owed again; an RFM is issued again; a row that was not activated is not open. -/
def undoCommand (e : Env) (c : Nat) (w : Work) (i : Issued) : Work :=
  let x := w.chan c
  if i.kind = 0 then
    if i.again then raiseUe e w i.line
    else w.setChan c { x with reads := { line := i.line, t := i.t, again := true, acct := i.acct } :: x.reads }
  else if i.kind = 1 then repairWrite e w i.line
  else if i.kind = 3 then w.emit (.dram c i.sub busRfm i.rank i.bank)
  else if i.kind = 4 then w.setChan c { x with rows := mdel x.rows (bankKey i.sub i.rank i.bank) }
  else
    let r := x.rank i.sub i.rank
    w.setChan c (x.setRank i.sub i.rank { r with owed := r.owed + 256 })

/-- ALERT_n has returned high (R562): every command from the sample minus W up to the sample counts as not performed. -/
def execDramAlertCleared (chan sub t : Nat) (s : State) : Host.Outcome State Fault Refusal :=
  traffic s (fun e w =>
    let x := w.chan chan
    match mget x.alert sub with
    | none => w
    | some a =>
      if t < a then w
      else
        let hit (i : Issued) : Bool := i.sub == sub && decide (a ≤ i.t + alertWindow x) && decide (i.t ≤ a)
        let undo := x.issued.filter hit
        let w := w.setChan chan { x with alert := mdel x.alert sub, issued := x.issued.filter (fun i => !hit i) }
        undo.foldl (undoCommand e chan) w)

/-! ### Service commands (04 R116-R119, R123) -/

/-- GEOMETRY of a module (Table 14-3). -/
def geometryWord (m : Module) : Nat :=
  2 ^ 30 * (if m.mrdimm then 2 else 1) +
  2 ^ 28 * (if m.rate = 12800 then 3 else if m.rate = 6400 then 2 else if m.rate = 5600 then 1 else 0) +
  2 ^ 26 * (if m.gib = 256 then 3 else if m.gib = 128 then 2 else if m.gib = 64 then 1 else 0) +
  (if m.ranks = 2 then 2 ^ 25 else 0) + (if m.stack then 2 ^ 24 else 0) +
  2 ^ 17 * (if m.gib / m.ranks = 32 then 16 else 17) + 19

/-- The module matches Table 14-1 and Table 14-2 (R534). -/
def supported (m : Module) : Bool :=
  (if m.mrdimm then m.rate == 12800 else m.rate == 4800 || m.rate == 5600 || m.rate == 6400) &&
  ((m.gib == 32 && m.ranks == 1 && !m.stack) || (m.gib == 64 && (m.ranks == 1 || m.ranks == 2) && !m.stack) ||
   (m.gib == 128 && m.ranks == 2 && !m.stack) || (m.gib == 256 && m.ranks == 2 && m.stack))

/-- Same capacity, type and rank count as the tract's record (R536). -/
def matchesTract (w : Work) (c : Nat) (m : Module) : Bool :=
  let g := w.reg (aTractGeometry (c / 10))
  let h := geometryWord m
  bitsOf g 31 30 == 0 || (bitsOf g 31 30 == bitsOf h 31 30 && bitsOf g 27 26 == bitsOf h 27 26 && bitsOf g 25 24 == bitsOf h 25 24)

/-- A rebuild record (Table 4-7). -/
def rStart (r : Nat) : Nat := bitsOf r 31 0
def rLen (r : Nat) : Nat := bitsOf r 52 32
def rAction (r : Nat) : Nat := bitsOf r 55 53
def rSrcDev (r : Nat) : Nat := bitsOf r 59 58
def rSrcPage (r : Nat) : Nat := bitsOf r 95 60
def rParcel (r : Nat) : Nat := bitsOf r 111 96
def rGen (r : Nat) : Nat := bitsOf r 127 112

def rebuildRec (e : Env) (w : Work) (base i : Nat) : Option Nat := p0Read e w (base + 16 * i) 16

/-- Records contiguous and ascending from page `at_` to page `last` (code 0x0206), with known actions. -/
def listCovers (e : Env) (w : Work) (base i n page last : Nat) : Bool :=
  match n with
  | 0 => page == last
  | k + 1 =>
    match rebuildRec e w base i with
    | some r => rStart r == page && rLen r != 0 && decide (rAction r < 4) && listCovers e w base (i + 1) k (page + rLen r) last
    | none => false

/-- STRIPE records are whole groups, ZERO and POISON records name no parcel (code 0x0208). -/
def listFields (e : Env) (w : Work) (base i n : Nat) : Bool :=
  match n with
  | 0 => true
  | k + 1 =>
    match rebuildRec e w base i with
    | some r =>
      (if rAction r = 2 then rStart r % 5120 == 0 && rLen r % 5120 == 0
       else if rAction r < 2 then rParcel r == 0 && rGen r == 0 else true) && listFields e w base (i + 1) k
    | none => true

def rebuildBase (w : Work) (c : Nat) : Nat := 2 ^ 12 * bitsOf (w.reg2 (aChannelRebuildBase c)) 35 0
def rebuildCount (w : Work) (c : Nat) : Nat := w.fld (aChannelRebuildCount c) 16 0

/-- The check of CHANNEL[c].SVC.go (R119), in the order of its codes (19 R697). -/
def svcCheck (e : Env) (w : Work) (c cmd : Nat) : Nat :=
  let st := chanState w c
  let legal := if cmd = 1 then takesAccess w c else if cmd = 2 ∨ cmd = 4 then st == chOut
    else if cmd = 3 then st == chOff else cmd == 5 && st == chReady
  let n := rebuildCount w c
  let base := rebuildBase w c
  if cmd = 5 ∧ (match (w.chan c).mod with | some m => !matchesTract w c m | none => false) = true then 0x0203
  else if !legal then 0x0205
  else if cmd ≠ 5 then 0
  else if !(decide (1 ≤ n) && decide (n ≤ 65536) && inP0 e base (16 * n) &&
      listCovers e w base 0 n 0 (10 * moduleBytes w (c / 10) / 2 ^ 12)) then 0x0206
  else if (takeSlot w).isNone then 0x0207
  else if !listFields e w base 0 n then 0x0208
  else 0

/-- What an accepted service command queues for the boundary. -/
def svcDue (c cmd : Nat) : Due :=
  if cmd = 1 then .chanOut c 1 else if cmd = 2 then .chanTo c chOff else if cmd = 5 then .rebuild c else .chanTo c chTraining

/-- A write of CHANNEL[c].SVC: its cmd field, and on go the check of R119. -/
def svcWrite (e : Env) (w : Work) (c v : Nat) : Work :=
  let cmd := bitsOf v 27 24
  let w := w.setFld (aChannelSvc c) 27 24 cmd
  if !bitAt v 31 then w
  else
    let code := svcCheck e w c cmd
    let w := w.setFld (aChannelSvcReason c) 15 0 code
    if code = 0 then w.queue (svcDue c cmd) else w

/-- Firmware sets CHANNEL[c].SVC.go with command `cmd`. -/
def svcGo (chan cmd : Nat) (s : State) : Host.Outcome State Fault Refusal :=
  traffic s (fun e w => svcWrite e w chan (2 ^ 31 + 2 ^ 24 * cmd))

def execChannelQuiesce (chan : Nat) (s : State) : Host.Outcome State Fault Refusal := svcGo chan 1 s
def execChannelPowerOff (chan : Nat) (s : State) : Host.Outcome State Fault Refusal := svcGo chan 2 s
def execChannelPowerOnTrain (chan : Nat) (s : State) : Host.Outcome State Fault Refusal := svcGo chan 3 s
def execChannelRetrain (chan : Nat) (s : State) : Host.Outcome State Fault Refusal := svcGo chan 4 s
def execChannelRebuild (chan : Nat) (s : State) : Host.Outcome State Fault Refusal := svcGo chan 5 s

/-! ### Transitions at a boundary (04 R116, Table 4-3; 19 R701) -/

def setChanState (w : Work) (c st : Nat) : Work := w.setFld (aChannelSvc c) 10 8 st

/-- The slot of a channel's rebuild. -/
def rebuildSlot (w : Work) (c : Nat) : Option (Nat × OpSlot) := w.ops.find? (fun x => x.2.kind == 1 && x.2.chan == c)

def freeRebuild (w : Work) (c : Nat) : Work :=
  match rebuildSlot w c with
  | some (k, _) => (clearSlot w k).setReg2 (aChannelRebuildMark c) 0
  | none => w

/-- A command that fails its second check takes the failing code (19 R701). -/
def svcFail (w : Work) (c code : Nat) : Work := w.setFld (aChannelSvcReason c) 15 0 code

/-- The channel enters OUT with its cause (R117); its drain ends with the command CHANNEL_OUT, or at the second boundary after. -/
def applyOut (e : Env) (w : Work) (c cause : Nat) : Work :=
  if takesAccess w c ∨ (cause = 4 ∧ chanState w c = chTraining) then
    let was := chanState w c
    let w := (setChanState w c chOut).setFld (aChannelSvc c) 7 4 cause
    w.setChan c { w.chan c with out := some ⟨cause, e.clk.frame, was⟩ }
  else if cause = 1 then svcFail w c 0x0205 else w

/-- OFF, TRAINING, READY and ONLINE. Full training and POWER_OFF free the channel's rebuild slot (R148, R149). -/
def applyChanTo (w : Work) (c st : Nat) : Work :=
  let now := chanState w c
  if st = chOff then
    if now = chOut then freeRebuild (setChanState w c chOff) c else svcFail w c 0x0205
  else if st = chTraining then
    if now = chOut ∨ now = chOff then
      let w := freeRebuild (setChanState w c chTraining) c
      w.setChan c { w.chan c with mod := none, groups := [], out := none }
    else svcFail w c 0x0205
  else if now = chTraining then setChanState w c st else w

/-- REBUILDING, with a slot and the list of the registers (R123, R147). -/
def applyRebuild (e : Env) (w : Work) (c : Nat) : Work :=
  let code := svcCheck e w c 5
  match code, takeSlot w with
  | 0, some k =>
    let o : OpSlot := { kind := 1, chan := c, base := rebuildBase w c, count := rebuildCount w c }
    (setSlot (setChanState w c chRebuilding) k o).setReg2 (aChannelRebuildMark c) 0
  | _, _ => svcFail w c code

/-- The drain of an entry to OUT is complete: queued and issued commands are done, and one record names the channel and
the cause (R117). -/
def drained (e : Env) (w : Work) (c : Nat) : Work :=
  let x := w.chan c
  match x.out with
  | none => w
  | some d =>
    let w := w.setChan c { x with out := none, reads := [], writes := [], drain := false, issued := [] }
    raise e w { ty := 0x100C, sev := 1, unit := dramUnit c 0 0 0, detail2 := d.cause }

def execChannelOut (chan : Nat) (s : State) : Host.Outcome State Fault Refusal :=
  traffic s (fun e w => drained e w chan)

/-- The drains that have had their 2 frames end at a boundary (R117). -/
def dueDrains (e : Env) (w : Work) : Work :=
  (w.chans.ch.filter (fun x => match x.2.out with | some d => decide (d.frame + 2 ≤ e.clk.frame) | none => false)).foldl
    (fun w x => drained e w x.1) w

/-! ### Training (R534, R536, R553-R557) -/

/-- No change of the channel is queued that ends its training. -/
def trainingOpen (w : Work) (c : Nat) : Bool :=
  chanState w c == chTraining && !w.due.any (fun d => match d with
    | .chanTo k _ => k == c
    | .chanOut k _ => k == c
    | _ => false)

/-- A training step has failed (R556): the code, an actionable record, and OUT with cause 4 at the boundary. -/
def failTraining (e : Env) (w : Work) (c code group sub rank : Nat) : Work :=
  let v := putBits (w.reg (aChannelTrainStatus c)) 11 0 (2 ^ 8 * group + sub * 2 ^ 7 + rank * 2 ^ 6 + code)
  raise e ((w.setReg (aChannelTrainStatus c) v).queue (.chanOut c 4))
    { ty := 0x1008, sev := 1, unit := dramUnit c rank sub group, detail2 := code }

/-- The tract's reference module was recorded in this frame, from a channel above `c`. -/
def refAbove (e : Env) (w : Work) (t c : Nat) : Bool :=
  match mget w.chans.refs t with
  | some (f, k) => f == e.clk.frame && decide (c < k)
  | none => false

/-- Record the reference module of the tract (R536): the first to pass, in a cold bring-up that of the lowest channel, and of channels that
pass in one frame that of the lowest. -/
def recordGeometry (e : Env) (w : Work) (c : Nat) (m : Module) : Work :=
  let t := c / 10
  let lower := (List.range (c % 10)).any (fun i => (w.chan (10 * t + i)).mod.isSome)
  if w.fld (aTractGeometry t) 31 30 = 0 ∨ ((w.chan c).cold = true ∧ lower = false) ∨ refAbove e w t c = true then
    let w := w.setReg (aTractGeometry t) (geometryWord m)
    { w with chans := { w.chans with refs := mset w.chans.refs t (e.clk.frame, c) } }
  else w

/-! ### Delay and Vref sweeps (R554, R555) -/

/-- The centre and span that a training sweep settles: none where its longest run is shorter than 16 steps. -/
def sweepRun (l : List Bool) : Option (Nat × Nat) :=
  match longestRun l with
  | some r => if runSpan r < 16 then none else some (runCentre r, runSpan r)
  | none => none

/-- A group's sweeps of a step of Table 14-6 fail: the read delay and Vref of step 6, the write delay of step 7, the VrefDQ and the
write delay again of step 8. -/
def sweepFails (x : Sweeps) (step : Nat) : Bool :=
  if step = 6 then (sweepRun x.rd).isNone || (sweepRun x.rdVref).isNone
  else if step = 7 then (sweepRun x.wr).isNone
  else (sweepRun x.vref).isNone || (sweepRun x.wrAgain).isNone

/-- What sweeps that pass settle for a group. -/
def trainedGroup (x : Sweeps) : GroupRec :=
  let r := (sweepRun x.rd).getD (0, 0)
  let t := (sweepRun x.wrAgain).getD (0, 0)
  ⟨r.1, t.1, ((sweepRun x.vref).getD (0, 0)).1, ((sweepRun x.rdVref).getD (0, 0)).1, min r.2 t.2⟩

/-- The strobe groups of a module, 10 to a subchannel of each rank. -/
def groupKeys (m : Module) : List Nat := List.range (20 * m.ranks)

/-- The sweeps of a group; one that has not been swept passes no step. -/
def sweepsOf (gs : List (Nat × Sweeps)) (k : Nat) : Sweeps :=
  match gs.find? (fun x => x.1 == k) with
  | some x => x.2
  | none => ⟨[], [], [], [], []⟩

/-- The first step of Table 14-6 that a group's sweeps fail, with the lowest group to fail it and the code of Table 14-9. -/
def sweepFault (m : Module) (gs : List (Nat × Sweeps)) : Option (Nat × Nat) :=
  [6, 7, 8].findSome? (fun step => ((groupKeys m).find? (fun k => sweepFails (sweepsOf gs k) step)).map (fun k =>
    (k, if step = 6 then 6 else 7)))

/-- Training has passed (R553, R557): the geometry, the groups and the record; READY, or ONLINE in a cold bring-up, at the
next boundary. A module that matches no row fails with code 0x02 (R534), and a group whose sweeps find no run of 16 steps with 0x06 or
0x07 (R554, R555). -/
def execTrainingPassed (chan : Nat) (m : Module) (groups : List (Nat × Sweeps)) (s : State) :
    Host.Outcome State Fault Refusal :=
  traffic s (fun e w =>
    if !trainingOpen w chan then w
    else if !supported m then failTraining e w chan 2 0 0 0
    else match sweepFault m groups with
      | some (k, code) => failTraining e w chan code (k % 10) (k / 10 % 2) (k / 20)
      | none =>
        let w := recordGeometry e w chan m
        let gs := (groupKeys m).foldl (fun g k => mset g k (trainedGroup (sweepsOf groups k))) []
        let cold := (w.chan chan).cold
        let w := w.setChan chan { mod := some m, groups := gs, spd := (w.chan chan).spd }
        let w := (w.setReg (aChannelTrainStatus chan) 0).setFld (aChannelTrainStatus chan) 23 16 (groupSpan gs)
        (saveRecord w chan).queue (.chanTo chan (if cold then chOnline else chReady)))

/-- Training fails with a code of Table 14-9. -/
def execTrainFailed (chan code group sub rank : Nat) (s : State) : Host.Outcome State Fault Refusal :=
  traffic s (fun e w => if trainingOpen w chan && code != 0 then failTraining e w chan code group sub rank else w)

/-! ### Rebuild (04 R123-R129) -/

/-- The record whose run holds a page. -/
def recordOf (e : Env) (w : Work) (base count page : Nat) : Option Nat :=
  (List.range count).findSome? (fun i => match rebuildRec e w base i with
    | some r => if rStart r ≤ page ∧ page < rStart r + rLen r then some r else none
    | none => none)

/-- The plot map gives a record's parcel as the owner of every plot of its run in tract `t`, and the generation still equals the
record's (R124). -/
def recordHolds (e : Env) (w : Work) (t r : Nat) : Bool :=
  let first := rStart r / 512
  (List.range ((rStart r + rLen r + 511) / 512 - first)).all (fun i => match p0Read e w (plotMapAddr e t (first + i)) 4 with
    | some v => bitAt v 31 && bitsOf v 15 0 == rParcel r
    | none => false) && eGen (cadEntry w (rParcel r)) == rGen r

/-- The source line of a COPY record's line. -/
def copySource (r line : Nat) : Place :=
  let ta := tractAddr (64 * line)
  ⟨rSrcDev r, 2 ^ 12 * (rSrcPage r + (ta / 2 ^ 12 - rStart r)) + ta % 2 ^ 12⟩

/-- A line that a COPY record takes from another device. -/
def remoteSource (e : Env) (w : Work) (o : OpSlot) (line : Nat) : Option (Place × Nat) :=
  match recordOf e w o.base o.count (tractAddr (64 * line) / 2 ^ 12) with
  | some r => if rAction r = 3 ∧ recordHolds e w (tractOf w (64 * line)) r = true ∧ rSrcDev r ≠ e.board then some (copySource r line, rParcel r) else none
  | none => none

/-- Rebuild one line of STRIPE (R125, R129). -/
def rebuildStripe (e : Env) (w : Work) (parcel line : Nat) : Work :=
  let (q, j) := stripeAt w line
  match stripeBlock w q j with
  | some _ => raise e (rawWrite w none line ⟨0, true⟩)
      { ty := 0x2006, sev := 1, parcel := parcel, addr := 64 * stripeLine w q 0, unit := dramUnit (channelOf w line) 0 0 0 }
  | none => restoreSlot (memWrite (memRead w acctBg line 9) acctBg line 1) q j

/-- Rebuild one line of the channel (R124, R125); a record that cannot be read poisons the line (log 42), and so does a COPY source
that cannot be read (log 167). -/
def rebuildLine (e : Env) (o : OpSlot) (w : Work) (line : Nat) : Work :=
  if masked w line then w
  else match recordOf e w o.base o.count (tractAddr (64 * line) / 2 ^ 12) with
    | none => rawWrite w none line ⟨0, true⟩
    | some r =>
      if rAction r = 1 then rawWrite (memWrite w acctBg line 1) none line ⟨0, true⟩
      else if rAction r = 0 ∨ recordHolds e w (tractOf w (64 * line)) r = false then zeroWrite (memWrite w acctBg line 1) line
      else if rAction r = 2 then rebuildStripe e w (rParcel r) line
      else
        let key := keyOf e w (rParcel r)
        let src := (copySource r line).dpa / 64
        let p := if serving w src then (rawRead w key src).getD ⟨0, true⟩ else ⟨0, true⟩
        rawWrite (memWrite (memRead w acctBg src 1) acctBg line 1) key line p

/-- The plan whose background allotment the work of a tract draws on (11 R462). -/
def bgPart (w : Work) (t : Nat) : Nat := if partitioned w then (partOfTract w t).getD 0 else 0

/-- Background work of a plan may go on: something of its allotment is left (R127, 16 R613). -/
def bgOpen (w : Work) (p : Nat) : Bool := (mgetD w.kiln.parts p {}).bg != 0

/-- Background work draws bytes; what it draws beyond the allotment the next ones pay (log 164). -/
def bgDraw (w : Work) (p n : Nat) : Work :=
  let x := mgetD w.kiln.parts p {}
  let k := { w.kiln with parts := mset w.kiln.parts p { x with bg := x.bg - n } }
  { w with kiln := if n ≤ x.bg then k else { k with bgDebt := mmod k.bgDebt p 0 (· + (n - x.bg)) } }

/-- Bytes that the rebuild of a line moves: reads and writes (R127). -/
def rebuildBytes (e : Env) (w : Work) (o : OpSlot) (line : Nat) : Nat :=
  match recordOf e w o.base o.count (tractAddr (64 * line) / 2 ^ 12) with
  | none => 64
  | some r => if rAction r < 2 ∨ recordHolds e w (tractOf w (64 * line)) r = false then 64 else if rAction r = 2 then 640 else 128

/-- The 64 channel lines of the watermark's next unit. -/
def unitLines (w : Work) (c mark : Nat) : List Nat := (List.range 64).map (fun i => lineOnChannel w c (64 * mark + i))

/-- The unit is complete: the watermark advances (R125). -/
def advanceMark (w : Work) (k c : Nat) (o : OpSlot) : Work :=
  (setSlot w k { o with mark := o.mark + 1, next := none }).setReg2 (aChannelRebuildMark c) (o.mark + 1)

/-- Channel lines of the channel in units of 64. -/
def rebuildEnd (w : Work) (c : Nat) : Nat := moduleBytes w (c / 10) / 4096

/-- Rebuild the next unit of 64 lines (R125). Lines whose source lies on another device are asked for first; the unit is
complete when they have arrived. -/
def execRebuildStep (chan : Nat) (s : State) : Host.Outcome State Fault Refusal :=
  traffic s (fun e w =>
    match rebuildSlot w chan with
    | none => w
    | some (k, o) =>
      if chanState w chan ≠ chRebuilding ∨ o.mark ≥ rebuildEnd w chan ∨ o.st ≠ 1 ∨ bgOpen w (bgPart w (chan / 10)) = false ∨
          (unitLines w chan o.mark).any (repairHolds w chan) = true then w
      else
        let lines := unitLines w chan o.mark
        let far := lines.filterMap (fun l => (remoteSource e w o l).map (fun x => (l, x)))
        if o.next = some o.mark then
          (if far.any (fun x => (findTxn w x.1).isSome) then w else advanceMark w k chan o)
        else if far.any (fun x => (findTxn w x.1).isSome || isAbsent w x.2.1.dev || isLost w x.2.1.dev) then w
        else
          let w := bgDraw w (bgPart w (chan / 10)) (lines.foldl (fun n l => n + rebuildBytes e w o l) 0)
          let w := (lines.filter (fun l => !far.any (fun x => x.1 == l))).foldl (rebuildLine e o) w
          if far.isEmpty then advanceMark w k chan o
          else
            let w := far.foldl (fun w x =>
              fetchCopy e w x.1 x.2.2 (match ownerOf e w x.1 with | some y => y.off | none => 0) x.2.1) w
            setSlot w k { o with next := some o.mark })

/-- At a boundary, a channel whose watermark has reached its end is ONLINE (R128). -/
def rebuildOnline (e : Env) (w : Work) (c : Nat) : Work :=
  match rebuildSlot w c with
  | some (k, o) =>
    if chanState w c = chRebuilding ∧ o.mark ≥ rebuildEnd w c then
      raise e (clearSlot (setChanState w c chOnline) k) { ty := 0x2005, unit := c + 2 * 2 ^ 24 }
    else w
  | none => w

/-! ### Row repair (R567-R569) -/

/-- The check of PPR_CTL.go (Table 14-13). -/
def pprCheck (w : Work) (c v : Nat) (hard resource : Bool) : Nat :=
  let g := w.reg (aTractGeometry (c / 10))
  if (if hard then chanState w c != chOut else !takesAccess w c) then 0x020E
  else if (bitsOf g 25 25 = 0 ∧ pprRank v = 1) ∨ (bitsOf g 24 24 = 0 ∧ pprCid v = 1) ∨ pprRow v ≥ 2 ^ bitsOf g 21 17 then 0x020F
  else if !resource then 0x0210
  else if w.fld (aChannelPprStatus c) 18 16 = 1 then 0x0211
  else 0

/-- The 128 lines of a row (Table 3-1, Table 14-2). -/
def rowLines (w : Work) (c v : Nat) : List Nat :=
  let t := c / 10
  let lsb := w.fld (aTractGeometry t) 5 0
  let top := lsb + w.fld (aTractGeometry t) 21 17
  let up := pprRow v * 2 ^ lsb + pprCid v * 2 ^ top + pprRank v * 2 ^ (top + w.fld (aTractGeometry t) 24 24)
  let low (b m want : Nat) : Nat := (want + parity (up &&& bitsOf (w.reg2 m) 47 0) 48) % 2 * 2 ^ b
  let ca := up + low 6 (aTractXorSub t) (bitsOf v 25 25) +
    low 7 (aTractXorBg t 0) (bitsOf v 22 22) + low 8 (aTractXorBg t 1) (bitsOf v 23 23) + low 9 (aTractXorBg t 2) (bitsOf v 24 24) +
    low 10 (aTractXorBank t 0) (bitsOf v 20 20) + low 11 (aTractXorBank t 1) (bitsOf v 21 21)
  (List.range 128).map (fun i => lineOnChannel w c ((ca + 2 ^ 12 * i) / 64))

/-- A write of PPR_CTL with go: the register, the check, and BUSY (R569). -/
def pprStart (w : Work) (c v : Nat) (resource confirmed : Bool) (bad : List Nat) : Work :=
  let w := w.setReg (aChannelPprCtl c) (2 ^ 20 * bitsOf v 28 20 + bitsOf v 16 0)
  let code := pprCheck w c v (pprHard v) resource
  let w := w.setFld (aChannelPprStatus c) 15 0 code
  if code ≠ 0 then w
  else (w.setFld (aChannelPprStatus c) 18 16 1).setChan c { w.chan c with ppr := some ⟨v, confirmed, bad⟩ }

/-- The lines of an sPPR's row are read, and written back; a line that could not be corrected is poisoned (R567). An hPPR leaves the row's
contents undefined; no read reaches them before REBUILD has written them (R568). -/
def repairRow (w : Work) (c : Nat) (p : Repair) : Work :=
  if pprHard p.v then w
  else
    let ls := rowLines w c p.v
    let w := memWrite (memRead w acctDev (ls.headD 0) 128) acctDev (ls.headD 0) 128
    (ls.filter (fun l => p.bad.contains l || w.pool.bad.contains l)).foldl (fun w l => rawWrite w none l ⟨0, true⟩) w

/-- A repair is complete at the boundary after its go, within its 2 frames and before a change of the channel's state (R567, R568): DONE, or
FAILED with its record where the module does not confirm it. -/
def repairDone (e : Env) (w : Work) (c : Nat) : Work :=
  match (w.chan c).ppr with
  | none => w
  | some p =>
    let w := repairRow (w.setChan c { w.chan c with ppr := none }) c p
    let w := w.emit (.dram c (bitsOf p.v 25 25) (if pprHard p.v then 9 else 8) (pprRank p.v) (bitsOf p.v 24 20))
    if p.confirmed then w.setFld (aChannelPprStatus c) 18 16 2
    else raise e (w.setFld (aChannelPprStatus c) 18 16 3) { ty := 0x100A, sev := 1, unit := dramUnit c (pprRank p.v) (bitsOf p.v 25 25) 0 }

/-- sPPR (R567) of the row that PPR_CTL names. -/
def execPprSppr (chan : Nat) (v : Word) (resource confirmed : Bool) (bad : List Nat) (s : State) :
    Host.Outcome State Fault Refusal :=
  traffic s (fun _ w => pprStart w chan (putBits v.toNat 28 28 0) resource confirmed bad)

/-- hPPR (R568): only while the channel is OUT. -/
def execPprHppr (chan : Nat) (v : Word) (resource confirmed : Bool) (s : State) : Host.Outcome State Fault Refusal :=
  traffic s (fun _ w => pprStart w chan (putBits v.toNat 28 28 1) resource confirmed [])

/-! ### SCHED and bank masks (R544, 15 R601, R602) -/

/-- A write to CHANNEL[c].SCHED, in force from the next boundary (R544). -/
def schedWrite (w : Work) (c v : Nat) : Work := (w.setReg (aChannelSched c) (bitsOf v 23 0)).queue (.sched c)

def execChannelSchedWrite (chan : Nat) (v : Word) (s : State) : Host.Outcome State Fault Refusal :=
  traffic s (fun _ w => schedWrite w chan v.toNat)

/-- A write to CHANNEL[c].BANK_MASK[k]: bits are cleared only while the channel is OUT (R601). -/
def maskWrite (w : Work) (c k v : Nat) : Work :=
  let new := if chanState w c = chOut then v else w.reg (aChannelBankMask c k) ||| v
  (w.setReg (aChannelBankMask c k) new).queue (.bankMask c k)

def execBankMaskWrite (chan k : Nat) (v : Word) (s : State) : Host.Outcome State Fault Refusal :=
  traffic s (fun _ w => maskWrite w chan k v.toNat)

/-- A mask comes into force at a boundary, and its copy goes to retained SRAM (R601, R602). -/
def applyMask (w : Work) (c k : Nat) : Work :=
  let w := w.setLiv (aChannelBankMask c k) (w.reg (aChannelBankMask c k))
  { w with chans := { w.chans with
      masks := mset w.chans.masks c ((List.range 8).map (fun i => w.liv (aChannelBankMask c i))) } }

/-! ### Slots of a frame (R546, R547, R549) -/

/-- Refresh and RFM slots of one logical rank for a frame of period `p` ps: what was not issued in the last frame is owed
again, the frame's share is added, and whole commands become slots. -/
def installRank (p : Nat) (r : RankSt) : RankSt :=
  let owed := r.owed + 256 * r.slots + 256 * (if r.double then 2 else 1) * 4 * p / 1950000
  { r with owed := owed % 256, slots := owed / 256, given := owed / 256, rfm := min 16 (r.need + 2), need := 0 }

/-- Install the slots of a channel whose module is trained (step 6 of Table 2-1). -/
def installSlots (e : Env) (w : Work) (c : Nat) : Work :=
  match (w.chan c).mod with
  | none => w
  | some m =>
    [0, 1].foldl (fun w sub => (List.range (logicalRanks m)).foldl (fun w r =>
      w.setChan c ((w.chan c).setRank sub r (installRank e.period ((w.chan c).rank sub r)))) w) w

end Sys2Proof.Machine
end

