-- ==== Sys2Proof/Machine/Desc.lean ====
section
/-! DEFINITION. Descriptors (08): their fields, the checks of R313, their operand streams, and how they are cut into
tiles. -/

namespace Sys2Proof.Machine

/-! ### Fields (Table 8-4) -/

def dOp (x : Nat) : Nat := bitsOf x 7 0
def dLen (x : Nat) : Nat := bitsOf x 11 8
def dRnd (x : Nat) : Bool := bitAt x 16
def dSat (x : Nat) : Bool := bitAt x 17
def dFence (x : Nat) : Bool := bitAt x 18
def dIrq (x : Nat) : Bool := bitAt x 19
def dTile (x : Nat) : Nat := bitsOf x 23 20
def dTag (x : Nat) : Nat := bitsOf x 95 64
def dSeed (x : Nat) : Nat := bitsOf x 127 96
def dCount (x : Nat) : Nat := bitsOf x 167 128
def dIn (x : Nat) : Nat := bitsOf x 171 168
def dAcc (x : Nat) : Nat := bitsOf x 175 172
def dOut (x : Nat) : Nat := bitsOf x 179 176
def dDst (x : Nat) : Nat := bitsOf x 255 192
def dSrc (x k : Nat) : Nat := bitsOf x (319 + 64 * k) (256 + 64 * k)
/-- `n` bytes of the operation area from byte `b`. -/
def dArea (x b n : Nat) : Nat := bitsOf x (512 + 8 * (b + n) - 1) (512 + 8 * b)

/-! ### Operation codes (Table 8-6) -/

def opCopy : Nat := 0x01
def opFill : Nat := 0x02
def opConvert : Nat := 0x03
def opReduce : Nat := 0x10
def opAxpby : Nat := 0x11
def opDot : Nat := 0x12
def opGather : Nat := 0x20
def opScatter : Nat := 0x21
def opStep : Nat := 0x30
def opQuantize : Nat := 0x40
def opDequant : Nat := 0x41
def opChecksum : Nat := 0x50
def opCow : Nat := 0x51
def opArrive : Nat := 0x60
def opWait : Nat := 0x61
def opSignal : Nat := 0x62
def opFence : Nat := 0x70
def opRecipe : Nat := 0x80

/-- Operations that run on a Tun (R308). -/
def onTun (op : Nat) : Bool := !(op == opArrive || op == opWait || op == opSignal || op == opFence)
def isSync (op : Nat) : Bool := op == opArrive || op == opWait || op == opSignal

/-! ### Operation areas -/

def redKind (x : Nat) : Nat := bitsOf (dArea x 0 1) 1 0
def redAccDst (x : Nat) : Bool := bitAt (dArea x 0 1) 2
def redTable (x : Nat) : Bool := bitAt (dArea x 0 1) 3
def redN (x : Nat) : Nat := dArea x 1 1
def redStride (x : Nat) : Nat := dArea x 8 8
def gsMode (x : Nat) : Nat := dArea x 0 1
def gsD (x : Nat) : Nat := dArea x 4 4
def gsRows (x : Nat) : Nat := dArea x 8 4
def gsStride (x : Nat) : Nat := dArea x 16 8

/-- A stage of a Recipe (Table 8-9). -/
structure Stage where
  code : Nat
  sel : Nat
  fmt : Nat
  opt : Bool
  c : Nat
  deriving DecidableEq, Repr

def stagesOf (x : Nat) : List Stage :=
  (List.range (dLen x)).map (fun s =>
    let v := dArea x (8 * s) 8
    { code := bitsOf v 7 0, sel := bitsOf v 11 8, fmt := bitsOf v 15 12, opt := bitAt v 16, c := bitsOf v 63 32 })

def selBase (x sel : Nat) : Nat := if sel = 4 then dDst x else dSrc x sel

/-- The stage that names an activation table. -/
def actStage (x : Nat) : Option Stage := (stagesOf x).find? (fun s => s.code == 0x07)

/-! ### Operand streams -/

/-- A stream of elements: first byte, format code, whether it is read and written, its number among the outputs (R269), and its
number as an operand. -/
structure Strm where
  base : Nat
  fmt : Nat
  rd : Bool
  wr : Bool
  k : Nat := 0
  deriving DecidableEq, Repr

/-- Offset of element i in the element stream; i is a multiple of 32 for an MX format (07 R260). -/
def elOff (fmt i : Nat) : Nat := if isMx fmt then i / 32 * mxBytes fmt else i * elBytes fmt

/-- First byte of the scale stream (R316). -/
def scaleBase (base fmt count : Nat) : Nat := (base + elOff fmt count + 63) / 64 * 64

/-- Size in bytes of one element, or alignment of an MX element stream (07 R260). -/
def fmtAlign (fmt : Nat) : Nat := if isMx fmt then (if mxBytes fmt = 24 then 8 else mxBytes fmt) else elBytes fmt

/-- End of a stream of `count` elements, its scale stream included. -/
def strmEnd (s : Strm) (count : Nat) : Nat :=
  if isMx s.fmt then scaleBase s.base s.fmt count + count / 32 else s.base + elOff s.fmt count

/-- The sources of a REDUCE: at src0 + j * stride, or as its table gives them. -/
def redSources (x : Nat) (tab : List Nat) : List Nat :=
  if redTable x then tab else (List.range (redN x)).map (fun j => dSrc x 0 + j * redStride x)

/-- The number of an output stream of a Recipe: dst first, then the others in the order of their STORE stages (08 R316). -/
def storeNo (x sel : Nat) : Nat :=
  let outs := ((stagesOf x).filter (fun s => s.code == 8)).map (·.sel)
  (((outs.filter (· == 4)) ++ outs.filter (· != 4)).eraseDups.findIdx? (· == sel)).getD 0

/-- The streams of a Recipe: one for each selector and format that a stage names, an output if a STORE names it. -/
def recipeStreams (x : Nat) : List Strm :=
  let named := (stagesOf x).filter (fun s => (s.code == 1 || s.code == 4 || s.code == 5 || s.code == 8) && s.sel != 15)
  let ids := (named.map (fun s => (s.sel, s.fmt))).eraseDups
  ids.map (fun q => {
    base := selBase x q.1
    fmt := q.2
    rd := named.any (fun s => s.sel == q.1 && s.fmt == q.2 && s.code != 8)
    wr := named.any (fun s => s.sel == q.1 && s.fmt == q.2 && s.code == 8)
    k := storeNo x q.1 })

/-- The element streams of an elementwise operation, inputs in the order of the sources. -/
def streamsOf (x : Nat) (tab : List Nat) : List Strm :=
  let op := dOp x
  if op = opConvert ∨ op = opQuantize ∨ op = opDequant then
    [⟨dSrc x 0, dIn x, true, false, 0⟩, ⟨dDst x, dOut x, false, true, 0⟩]
  else if op = opReduce then
    (redSources x tab).map (fun b => ⟨b, dIn x, true, false, 0⟩) ++ [⟨dDst x, dOut x, redAccDst x, true, 0⟩]
  else if op = opAxpby then
    [⟨dSrc x 0, dIn x, true, false, 0⟩] ++ (if dSrc x 1 = 0 then [] else [⟨dSrc x 1, dIn x, true, false, 0⟩]) ++
    [⟨dDst x, dOut x, false, true, 0⟩]
  else if op = opDot then
    [⟨dSrc x 0, dIn x, true, false, 0⟩] ++ (if dArea x 0 1 = 0 then [⟨dSrc x 1, dIn x, true, false, 0⟩] else [])
  else if op = opStep then
    [⟨dDst x, dAcc x, true, true, 0⟩, ⟨dSrc x 0, dIn x, true, false, 0⟩, ⟨dSrc x 1, dAcc x, true, true, 1⟩] ++
    (if dArea x 0 1 = 1 then [⟨dSrc x 2, dAcc x, true, true, 2⟩] else []) ++
    (if dSrc x 3 = 0 then [] else [⟨dSrc x 3, dOut x, false, true, if dArea x 0 1 = 1 then 3 else 2⟩])
  else if op = opRecipe then recipeStreams x
  else []

/-! ### The checks of R313 -/

def fmtOk (f : Nat) : Bool := decide (f < 14)

/-- Table 7-5: accumulators that an input format accepts. -/
def accPair (i a : Nat) : Bool :=
  if i = 0 then a == 0
  else if i = 12 then a == 13 || a == 1
  else if i = 13 then a == 13
  else decide (i < 12) && (a == 0 || a == 1)

/-- Bits of the operation area that an operation uses, as (first bit, count); all others are reserved. -/
def areaUsed (x : Nat) : List (Nat × Nat) :=
  let op := dOp x
  if op = opFill ∨ op = opChecksum then [(0, 64)]
  else if op = opReduce then [(0, 4), (8, 8), (64, 64)]
  else if op = opAxpby ∨ op = opCow then [(0, 128)]
  else if op = opDot then [(0, 8)]
  else if op = opGather then [(0, 8), (32, 32), (64, 32), (128, 64)]
  else if op = opScatter then [(32, 32), (64, 32), (128, 64)]
  else if op = opStep then [(0, 9), (32, 32), (64, 192)]
  else if op = opArrive then [(0, 2), (32, 32)]
  else if op = opWait then [(32, 32)]
  else if op = opSignal then [(0, 1), (32, 32)]
  else if op = opRecipe then ((List.range (dLen x)).map (fun s => [(64 * s, 17), (64 * s + 32, 32)])).flatten
  else []

def areaClean (x : Nat) : Bool :=
  let used := (areaUsed x).foldl (fun m r => m + (2 ^ r.2 - 1) * 2 ^ r.1) 0
  decide (dArea x 0 64 &&& used = dArea x 0 64)

def headClean (x : Nat) : Bool :=
  bitsOf x 15 12 == 0 && bitsOf x 31 24 == 0 && bitsOf x 63 44 == 0 && bitsOf x 191 180 == 0 && decide (dTile x ≤ 5)

def knownOp (op : Nat) : Bool :=
  [opCopy, opFill, opConvert, opReduce, opAxpby, opDot, opGather, opScatter, opStep, opQuantize, opDequant, opChecksum, opCow,
   opArrive, opWait, opSignal, opFence, opRecipe].contains op

/-- The formats that each operation accepts (Table 8-6, Table 7-5, R324, R329, R330, R337). -/
def formatsOk (x : Nat) : Bool :=
  let op := dOp x
  let i := dIn x
  let a := dAcc x
  let o := dOut x
  if op = opConvert then fmtOk i && fmtOk o && !isMx i && !isMx o
  else if op = opReduce then fmtOk i && fmtOk o && !isMx i && !isMx o && accPair i a && (!redAccDst x || accPair o a)
  else if op = opAxpby then fmtOk i && fmtOk o && accPair i a
  else if op = opDot then fmtOk i && accPair i a
  else if op = opGather then fmtOk i && fmtOk o && !isMx i && !isMx o && accPair i a
  else if op = opScatter then fmtOk i && !isMx i && decide (o ≤ 3)
  else if op = opStep then fmtOk i && decide (a ≤ 1) && accPair i a && (dSrc x 3 == 0 || fmtOk o)
  else if op = opQuantize then fmtOk i && !isMx i && isMx o
  else if op = opDequant then isMx i && fmtOk o && !isMx o
  else if op = opRecipe then
    decide (a ≤ 1) && (stagesOf x).all (fun s =>
      if s.code = 1 then fmtOk s.fmt && !isMx s.fmt && accPair s.fmt a
      else if (s.code = 4 ∨ s.code = 5) ∧ s.sel ≠ 15 then fmtOk s.fmt && !isMx s.fmt && accPair s.fmt a
      else if s.code = 2 ∨ s.code = 8 then fmtOk s.fmt && !isMx s.fmt
      else true)
  else true

/-- Byte ranges of inputs and outputs: (first, end, format, output). -/
def rangesOf (x : Nat) (tab : List Nat) : List (Nat × Nat × Nat × Bool) :=
  let op := dOp x
  let n := dCount x
  let row (b f rows stride : Nat) : Nat × Nat := (b, if rows = 0 then b else b + (rows - 1) * stride + gsD x * elBytes f)
  if op = opCopy then [(dSrc x 0, dSrc x 0 + n, 16, false), (dDst x, dDst x + n, 16, true)]
  else if op = opCow then [(dSrc x 0, dSrc x 0 + 4096 * n, 16, false), (dDst x, dDst x + 4096 * n, 16, true)]
  else if op = opGather then
    let t := row (dSrc x 0) (dIn x) (gsRows x) (gsStride x)
    [(t.1, t.2, dIn x, false), (dSrc x 2, dSrc x 2 + 4 * (n + 1), 17, false),
     (dDst x, dDst x + n * gsD x * elBytes (dOut x), dOut x, true)]
  else if op = opScatter then
    let t := row (dDst x) (dOut x) (gsRows x) (gsStride x)
    [(dSrc x 0, dSrc x 0 + n * gsD x * elBytes (dIn x), dIn x, false), (dSrc x 1, dSrc x 1 + 4 * n, 17, false),
     (t.1, t.2, dOut x, true)] ++ (if dSrc x 3 = 0 then [] else [(dSrc x 3, dSrc x 3 + 4 * n, 17, false)])
  else if op = opChecksum then [(dSrc x 0, dSrc x 0 + n, 16, false), (dDst x, dDst x + 8, 18, true)]
  else
    let ss := streamsOf x tab
    (ss.map (fun s =>
      let r := (s.base, strmEnd s n, s.fmt)
      (if s.rd then [(r.1, r.2.1, r.2.2, false)] else []) ++ (if s.wr then [(r.1, r.2.1, r.2.2, true)] else []))).flatten ++
    (if op = opDot then [(dDst x, dDst x + elBytes (dAcc x), 18, true)] else [])

/-- No output overlaps an input but in place: the same range in the same format. -/
def overlapFree (rs : List (Nat × Nat × Nat × Bool)) : Bool :=
  (rs.filter (fun r => r.2.2.2)).all (fun o => (rs.filter (fun r => !r.2.2.2)).all (fun i =>
    decide (o.2.1 ≤ i.1) || decide (i.2.1 ≤ o.1) || o.1 == o.2.1 || i.1 == i.2.1 ||
    (o.1 == i.1 && o.2.1 == i.2.1 && o.2.2.1 == i.2.2.1)))

/-- Addresses aligned as their operands require. -/
def alignOk (x : Nat) (tab : List Nat) : Bool :=
  let op := dOp x
  let al (a n : Nat) : Bool := n == 0 || a % n == 0
  if op = opFill then al (dDst x) 8
  else if op = opCow then al (dSrc x 0) 4096 && al (dDst x) 4096 && al (dSrc x 1) 8 && al (dSrc x 2) 4
  else if op = opGather then
    al (dSrc x 0) (elBytes (dIn x)) && al (dSrc x 1) 4 && al (dSrc x 2) 4 && al (dSrc x 3) 4 && al (dDst x) (elBytes (dOut x))
  else if op = opScatter then
    al (dSrc x 0) (elBytes (dIn x)) && al (dSrc x 1) 4 && al (dSrc x 3) 4 && al (dDst x) (elBytes (dOut x))
  else
    (streamsOf x tab).all (fun s => al s.base (fmtAlign s.fmt)) &&
    (if op = opDot ∨ op = opChecksum then al (dDst x) 8 else true) &&
    (if op = opReduce ∧ redTable x = true then al (dSrc x 0) 64 else true) &&
    (match actStage x with
     | some s => if op = opRecipe then al (selBase x s.sel) 64 else true
     | none => true)

/-- The rules of R337 for a Recipe. -/
def recipeOk (x : Nat) : Bool :=
  let ss := stagesOf x
  let outs := (ss.filter (fun s => s.code == 8))
  decide (1 ≤ ss.length) && decide (ss.length ≤ 8) &&
  ss.head?.map (·.code) == some 1 && ss.getLast?.map (·.code) == some 8 &&
  decide (outs.length ≤ 2) && decide ((ss.filter (fun s => s.code == 7)).length ≤ 1) &&
  ss.all (fun s => decide (1 ≤ s.code) && decide (s.code ≤ 8) &&
    (if s.code = 1 ∨ s.code = 7 ∨ s.code = 8 then decide (s.sel ≤ 4)
     else if s.code = 4 ∨ s.code = 5 then decide (s.sel ≤ 4) || s.sel == 15
     else true)) &&
  ss.all (fun s => !(s.code == 1 || s.code == 4 || s.code == 5 || s.code == 7) || s.sel == 15 ||
    outs.all (fun o => o.sel != s.sel || (s.code != 7 && o.fmt == s.fmt)))

/-- Operation-area fields within their ranges, and the ranges of count (R313, R322-R337). -/
def areaOk (x tileSize : Nat) : Bool :=
  let op := dOp x
  if op = opFill then dCount x % 8 == 0
  else if op = opReduce then decide (redKind x ≤ 2) && decide (1 ≤ redN x) && decide (redN x ≤ 16)
  else if op = opDot then decide (dArea x 0 1 ≤ 3)
  else if op = opGather then
    decide (gsMode x ≤ 2) && decide (1 ≤ gsD x) && gsStride x % elBytes (dIn x) == 0 &&
    decide (gsD x * elBytes (dIn x) ≤ gsStride x) && decide (gsD x * elBytes (dAcc x) ≤ tileSize)
  else if op = opScatter then
    decide (1 ≤ gsD x) && gsStride x % elBytes (dOut x) == 0 && decide (gsD x * elBytes (dOut x) ≤ gsStride x)
  else if op = opStep then decide (dArea x 0 1 ≤ 1) && (dArea x 0 1 == 0 || decide (1 ≤ dArea x 4 4))
  else if op = opCow then decide (dCount x ≤ 16)
  else if op = opSignal then decide (1 ≤ dArea x 4 4 ∨ dArea x 0 1 = 1) && decide (dArea x 4 4 ≤ 65535)
  else if op = opRecipe then recipeOk x
  else true

/-- MX operands come in whole blocks. -/
def mxCountOk (x : Nat) (tab : List Nat) : Bool :=
  !((streamsOf x tab).any (fun s => isMx s.fmt)) || dCount x % 32 == 0

/-- The checks of R313 on what the descriptor itself gives (R731). -/
def descValid (x tileSize : Nat) : Bool :=
  knownOp (dOp x) && (dOp x == opRecipe || dLen x == 0) && headClean x && areaClean x && formatsOk x &&
  areaOk x tileSize && mxCountOk x [] && alignOk x [] && overlapFree (rangesOf x [])

/-- The run-time check of the sources that a REDUCE table names (R731). -/
def tableValid (x : Nat) (tab : List Nat) : Bool := alignOk x tab && overlapFree (rangesOf x tab)

/-! ### Tiles (R340, R283, R327) -/

/-- A tile size by its code. -/
def tileBytes (code : Nat) : Nat := 2048 * 2 ^ code

/-- Elements of one tile of an elementwise operation: the largest element size in 1/32 bytes decides. -/
def tileElems (x size : Nat) : Nat :=
  let ss := streamsOf x [dDst x]
  let wid := ss.foldl (fun m s => max m (if isMx s.fmt then mxBytes s.fmt else 32 * elBytes s.fmt)) 1
  let n := size * 32 / wid
  if ss.any (fun s => isMx s.fmt) then n / 32 * 32 else n

/-- Rows of one tile of SCATTER_ADD: every operand stream within the tile size. -/
def scatterRows (x size : Nat) : Nat :=
  max 1 (min (size / 4) (min (size / max 1 (gsD x * elBytes (dIn x))) (size / max 1 (gsD x * elBytes (dOut x)))))

/-- Units of one tile: bytes, elements or rows, as the operation is cut. -/
def tileUnit (x size : Nat) : Nat :=
  let op := dOp x
  if op = opCopy ∨ op = opFill ∨ op = opChecksum ∨ op = opCow then size
  else if op = opScatter then scatterRows x size
  else max 1 (tileElems x size)

/-- All units of the descriptor. -/
def totalUnits (x : Nat) : Nat := if dOp x = opCow then 4096 * dCount x else dCount x

/-- The units [i0, i1) of tile `idx`. -/
def tileRange (x size idx : Nat) : Nat × Nat :=
  (min (idx * tileUnit x size) (totalUnits x), min ((idx + 1) * tileUnit x size) (totalUnits x))

/-- The descriptor has no tile at or after `idx`. -/
def noTile (d : Desc) (size idx : Nat) : Bool :=
  if dOp d.img = opGather then
    decide (idx ≥ d.cuts.length) && (match d.cuts.getLast? with
      | some c => !c.more && decide (c.b1 ≥ dCount d.img)
      | none => dCount d.img == 0)
  else decide (idx * tileUnit d.img size ≥ totalUnits d.img)

/-- Counted bytes of the first `k` tiles (Table 8-6, R318, R732). -/
def prefixBytes (d : Desc) (size k : Nat) : Nat :=
  let x := d.img
  let op := dOp x
  let n := min (k * tileUnit x size) (totalUnits x)
  if op = opCopy ∨ op = opFill ∨ op = opChecksum ∨ op = opCow then n
  else if op = opGather then
    (match (d.cuts.take k).getLast? with
     | some c => if c.more then c.b0 else c.b1
     | none => 0) * gsD x * elBytes (dOut x)
  else if op = opScatter then n * gsD x * elBytes (dIn x)
  else if op = opDot then elOff (dIn x) n
  else if op = opStep then elOff (dAcc x) n
  else if op = opRecipe then
    elOff (((stagesOf x).find? (fun s => s.code == 8)).map (·.fmt) |>.getD 1) n
  else elOff (dOut x) n

/-! ### The bytes that a tile touches -/

/-- A byte range of a stream: first byte, length, whether it is read and written. -/
structure Span where
  lo : Nat
  len : Nat
  rd : Bool
  wr : Bool
  stream : Nat
  deriving DecidableEq, Repr

/-- The spans of elements [i0, i1) of a stream, its scales included. -/
def strmSpans (s : Strm) (count i0 i1 j : Nat) : List Span :=
  [⟨s.base + elOff s.fmt i0, elOff s.fmt i1 - elOff s.fmt i0, s.rd, s.wr, j⟩] ++
  (if isMx s.fmt then [⟨scaleBase s.base s.fmt count + i0 / 32, (i1 - i0) / 32, s.rd, s.wr, j⟩] else [])

/-- The offsets that the next tile of a GATHER_SUM reads: of every bag that could be in it. -/
def gatherBags (x size b0 : Nat) : Nat :=
  min (min (dCount x - b0) (size / 4 - 1)) (max 1 (size / max 1 (gsD x * elBytes (dOut x))))

/-- The first bag and gathered row of the next tile, from the cuts made so far. -/
def nextBag (d : Desc) (idx : Nat) : Nat × Option Nat :=
  match (d.cuts.take idx).getLast? with
  | some c => if c.more then (c.b0, some c.k1) else (c.b1, none)
  | none => (0, none)

/-- Phase 1 of a tile's translation (09 Table 9-6): what is read first. -/
def phase1 (d : Desc) (size idx : Nat) : List Span :=
  let x := d.img
  let op := dOp x
  if op = opGather then
    let b := (nextBag d idx).1
    [⟨dSrc x 2 + 4 * b, 4 * (gatherBags x size b + 1), true, false, 2⟩]
  else if op = opScatter then
    let r := tileRange x size idx
    [⟨dSrc x 1 + 4 * r.1, 4 * (r.2 - r.1), true, false, 1⟩] ++
    (if dSrc x 3 = 0 then [] else [⟨dSrc x 3 + 4 * r.1, 4 * (r.2 - r.1), true, false, 3⟩])
  else if op = opReduce ∧ redTable x = true ∧ idx = 0 then [⟨dSrc x 0, 8 * redN x, true, false, 0⟩]
  else if op = opRecipe ∧ idx = 0 ∧ d.act = [] then
    (match actStage x with
     | some s => [⟨selBase x s.sel, 32, true, false, s.sel⟩]
     | none => [])
  else []

/-- The indices and weights of a GATHER_SUM tile, once its cut is known. -/
def gatherPhase (x : Nat) (c : Cut) : List Span :=
  [⟨dSrc x 1 + 4 * c.k0, 4 * (c.k1 - c.k0), true, false, 1⟩] ++
  (if dSrc x 3 = 0 then [] else [⟨dSrc x 3 + 4 * c.k0, 4 * (c.k1 - c.k0), true, false, 3⟩])

/-- The points of an activation table whose header gives q (R338). -/
def actPhase (x q : Nat) : List Span :=
  match actStage x with
  | some s => [⟨selBase x s.sel, 32 + 4 * (2 ^ q + 1), true, false, s.sel⟩]
  | none => []

/-- The table rows that indices name. -/
def rowSpans (base stride bytes : Nat) (idxs : List Nat) (rd wr : Bool) (j : Nat) : List Span :=
  idxs.map (fun i => ⟨base + i * stride, bytes, rd, wr, j⟩)

/-- The last phase of a tile: every stream, table row and scalar that it still has to touch. `idxs` are the indices read in
phase 1. -/
def phase2 (d : Desc) (size idx : Nat) (idxs : List Nat) : List Span :=
  let x := d.img
  let op := dOp x
  let r := tileRange x size idx
  let n := r.2 - r.1
  let last := decide (r.2 ≥ totalUnits x)
  if op = opCopy ∨ op = opCow then
    [⟨dSrc x 0 + r.1, n, true, false, 0⟩, ⟨dDst x + r.1, n, false, true, 4⟩] ++
    (if op = opCow ∧ last then [⟨dSrc x 1, 8, true, true, 1⟩] ++ (if dSrc x 2 = 0 then [] else [⟨dSrc x 2, 4, true, true, 2⟩]) else [])
  else if op = opFill then [⟨dDst x + r.1, n, false, true, 4⟩]
  else if op = opChecksum then
    [⟨dSrc x 0 + r.1, n, true, false, 0⟩] ++ (if last then [⟨dDst x, 8, false, true, 4⟩] else [])
  else if op = opGather then
    match d.cuts[idx]? with
    | none => []
    | some c =>
      rowSpans (dSrc x 0) (gsStride x) (gsD x * elBytes (dIn x)) idxs true false 0 ++
      (if c.more then [] else [⟨dDst x + c.b0 * gsD x * elBytes (dOut x), (c.b1 - c.b0) * gsD x * elBytes (dOut x), false, true, 4⟩])
  else if op = opScatter then
    [⟨dSrc x 0 + r.1 * gsD x * elBytes (dIn x), n * gsD x * elBytes (dIn x), true, false, 0⟩] ++
    rowSpans (dDst x) (gsStride x) (gsD x * elBytes (dOut x)) idxs false true 4
  else
    let ss := streamsOf x d.tab
    ((ss.zipIdx).map (fun s => strmSpans s.1 (dCount x) r.1 r.2 s.2)).flatten ++
    (if op = opDot ∧ last then [⟨dDst x, elBytes (dAcc x), false, true, ss.length⟩] else [])

/-- Pages of 4 KiB that spans touch, in stream order, each with the permission it needs (09 R384). -/
def pagesOf (ss : List Span) : List (Nat × Bool × Nat) :=
  ss.foldl (fun l s =>
    if s.len = 0 then l
    else (List.range ((s.lo + s.len - 1) / 4096 + 1 - s.lo / 4096)).foldl (fun l i =>
      let p := s.lo / 4096 + i
      if l.any (fun x => x.1 == p) then l.map (fun x => if x.1 = p then (p, x.2.1 || s.wr, x.2.2) else x)
      else l ++ [(p, s.wr, s.stream)]) l) []

/-- Lines that spans read, each once. -/
def linesOf (ss : List Span) : List Nat :=
  (ss.filter (fun s => s.rd && s.len != 0)).foldl (fun l s =>
    (List.range ((s.lo + s.len - 1) / 64 + 1 - s.lo / 64)).foldl (fun l i =>
      if l.contains (s.lo / 64 + i) then l else l ++ [s.lo / 64 + i]) l) []

/-- Staging blocks of a tile (07 R283): every operand stream and scale stream in whole blocks of 4 KiB. -/
def blocksOf (ss : List Span) : Nat := ss.foldl (fun n s => n + (4095 + s.len) / 4096) 0

/-- Blocks reserved at issue: what the tile's streams take, those that phase 1 settles at the tile size (R283). -/
def tileBlocks (d : Desc) (size idx : Nat) : Nat :=
  if dOp d.img = opGather then 5 * (size / 4096)
  else if dOp d.img = opScatter then blocksOf (phase1 d size idx) + blocksOf (phase2 d size idx []) + size / 4096
  else if dOp d.img = opReduce ∧ redTable d.img = true ∧ d.tab = [] then 1 + (redN d.img + 1) * (size / 4096)
  else blocksOf (phase1 d size idx) + blocksOf (phase2 d size idx [])

end Sys2Proof.Machine
end

