-- ==== Sys2Proof/Machine/TunRole.lean ====
section
/-! DEFINITION. Tuns (07): cores and strikes, roles and role epochs, and the work that a role change moves or abandons. -/

namespace Sys2Proof.Machine

/-! ### The registers of a Tun (Table 7-8, Table 7-12, Table 7-13) -/

def roleSpare : Nat := 0
def roleServe : Nat := 1
def roleBackground : Nat := 2

def tunRole (w : Work) (t : Nat) : Nat := w.fld (aTunRole t) 17 16
def tunEpoch (w : Work) (t : Nat) : Nat := w.fld (aTunRole t) 15 0
def tunDie (t : Nat) : Nat := t / 16

def Work.tun (w : Work) (t : Nat) : TunSt := mgetD w.mash.tuns t {}
def Work.setTun (w : Work) (t : Nat) (x : TunSt) : Work := { w with mash := { w.mash with tuns := mset w.mash.tuns t x } }

def retired (w : Work) (t : Nat) : Nat := w.fld (aTunCoreMap t) 8 0

/-- Active cores (R253): every core that is not retired, core 8 being the spare while none is. -/
def activeCores (w : Work) (t : Nat) : List Nat :=
  if retired w t = 0 then List.range 8 else (List.range 9).filter (fun c => !bitAt (retired w t) c)

def hasSpare (w : Work) (t : Nat) : Bool := retired w t == 0

/-- Show the cores in TUN[n].STATUS. -/
def showCores (w : Work) (t : Nat) : Work :=
  w.setFld (aTunStatus t) 20 16 ((if hasSpare w t then 16 else 0) + (activeCores w t).length)

/-- The epoch after this one (R288). -/
def nextEpoch (x : Nat) : Nat := if x = 0xFFFF then 1 else x + 1

/-- A response or message that the Tun does not act on is counted (R290, R292). -/
def countStale (w : Work) (t : Nat) : Work := w.inc (aTunStaleCount t) 1


/-! ### Which Tun may run what (R285, R286, R294, 11 R462) -/

/-- Descriptors bound to a Tun, each with a state slot of it (R282, R285). -/
def boundTo (w : Work) (t : Nat) : List Desc := (w.mash.descs.map (·.2)).filter (fun d => d.tun == some t)

/-- The Tun is of the partition of host `a` in PARTITIONED mode. -/
def tunOfHost (w : Work) (t a : Nat) : Bool :=
  !partitioned w || bitAt (w.liv (aQosPartTuns (partOf w a))) t

/-- A Tun takes a new descriptor of host `a`: role SERVE, an active core, a free state slot of 64 (R280, R285). -/
def takesDesc (w : Work) (t a : Nat) : Bool :=
  tunRole w t == roleServe && !(activeCores w t).isEmpty && decide ((boundTo w t).length < 64) && tunOfHost w t a &&
  !blockHeld w 1 t

/-! ### Role commits (R293, R297) -/

/-- The role that a Tun will have once every accepted change has been applied. -/
def roleAhead (w : Work) (t : Nat) : Nat := ((w.tun t).pend).getD (tunRole w t)

/-- A ring assigned to the die is enabled. -/
def ringOnDie (w : Work) (die : Nat) : Bool :=
  w.mash.rings.any (fun r => w.fld (aRingCtl r.1) 31 31 == 1 && w.fld (aRingCtl r.1) 24 24 == die)

/-- The check of a role commit (Table 7-14). -/
def roleCheck (w : Work) (t role : Nat) : Nat :=
  let serves (u : Nat) : Bool := (if u = t then role else roleAhead w u) == roleServe
  if role = 3 then 0x0601
  else if ringOnDie w (tunDie t) && !((List.range 16).any (fun i => serves (16 * tunDie t + i))) then 0x0602
  else if role ≠ roleSpare ∧ (activeCores w t).isEmpty = true then 0x0603
  else if blockHeld w 1 t then 0x0604
  else 0

/-- A write of TUN[n].ROLE_CTL. -/
def roleCtlWrite (w : Work) (t v : Nat) : Work :=
  let w := w.setFld (aTunRoleCtl t) 17 16 (bitsOf v 17 16)
  if bitAt v 31 then
    let c := roleCheck w t (bitsOf v 17 16)
    let w := w.setFld (aTunStatus t) 15 0 c
    if c = 0 then (w.setTun t { w.tun t with pend := some (bitsOf v 17 16) }).setFld (aTunStatus t) 21 21 1 else w
  else w

def execTunRoleCommit (tun : Nat) (v : Word) (s : State) : Host.Outcome State Fault Refusal :=
  traffic s (fun _ w => roleCtlWrite w tun v.toNat)

/-! ### Stale messages (R290, R292) -/

/-- A response that answers a request of an earlier epoch is discarded and counted. -/
def execStaleResponseDiscard (tun epoch : Nat) (s : State) : Host.Outcome State Fault Refusal :=
  traffic s (fun _ w => if epoch = tunEpoch w tun then w else countStale w tun)

/-! ### Tiles in flight -/

def sameTile (t : Tile) (ring n idx : Nat) : Bool := t.ring == ring && t.n == n && t.idx == idx

def getTile (w : Work) (ring n idx : Nat) : Option Tile := w.mash.tiles.find? (fun t => sameTile t ring n idx)

def putTile (w : Work) (t : Tile) : Work :=
  { w with mash := { w.mash with tiles := w.mash.tiles.map (fun x => if sameTile x t.ring t.n t.idx then t else x) } }

def addTile (w : Work) (t : Tile) : Work := { w with mash := { w.mash with tiles := w.mash.tiles ++ [t] } }

/-- What has come back for a tile's accesses is let go. -/
def dropStaged (w : Work) (ring n idx : Nat) : Work :=
  let own (r : TileRef) : Bool := r.ring == ring && r.n == n && r.idx == idx
  { w with home := { w.home with
      staged := w.home.staged.filter (fun x => !own x.1), acked := w.home.acked.filter (fun x => !own x) } }

/-- What has come back for accesses is let go, and the responses still on their way are discarded. -/
def dropAccess (w : Work) (ring n idx : Nat) : Work :=
  dropMuted (mapReqs (dropStaged w ring n idx) (fun r => match r.tile with
    | some x => x.ring == ring && x.n == n && x.idx == idx
    | none => false) (fun r => { r with ans := .mute }))

/-- A tile is no more: its blocks are free, the responses still on their way to it are discarded. -/
def dropTile (w : Work) (t : Tile) : Work :=
  dropAccess { w with mash := { w.mash with tiles := w.mash.tiles.filter (fun x => !sameTile x t.ring t.n t.idx) } } t.ring t.n t.idx

/-- Tiles of a descriptor in flight. -/
def tilesOf (w : Work) (ring n : Nat) : List Tile := w.mash.tiles.filter (fun t => t.ring == ring && t.n == n)

/-- Count an overrun of the tile once: of its descriptor, its Tun and its context (02 R42). -/
def countOverrun (w : Work) (t : Tile) : Work :=
  if t.late then w
  else match getDesc w t.ring t.n with
    | none => w
    | some d =>
      let more (m : AMap Nat) (k : Nat) : AMap Nat := mmod m k 0 (fun x => satAdd 32 x 1)
      let w := { w with mash := { w.mash with overruns := more (more w.mash.overruns t.tun) (0x1000 + dCtx d.img) } }
      putDesc (putTile w { t with late := true })
        { d with overruns := satAdd 16 d.overruns 1, notBefore := max d.notBefore (t.frame + 2) }

/-- Later tiles of a descriptor lose their held results and are issued again (08 R342). -/
def dropFrom (w : Work) (ring n idx : Nat) : Work :=
  let w := ((tilesOf w ring n).filter (fun t => decide (idx ≤ t.idx))).foldl dropTile w
  match getDesc w ring n with
  | some d => putDesc w { d with issued := min d.issued idx, cuts := d.cuts.take idx }
  | none => w

/-- A tile is abandoned and issued again from its start, after translation anew (R295): with it the later ones, whose
results go out after its own (08 R341). -/
def abandonTile (w : Work) (t : Tile) : Work := dropFrom (countOverrun w t) t.ring t.n t.idx

/-! ### Role changes at their boundary (R294-R296) -/

/-- A Tun of the same die that takes a descriptor of the ring's owner. -/
def otherServe (w : Work) (t a : Nat) : Option Nat :=
  (List.range 16).map (fun i => 16 * tunDie t + i) |>.find? (fun u => u != t && takesDesc w u a)

def ringOwner (w : Work) (r : Nat) : Nat := w.fld (aRingCtl r) 7 0

/-- Move a descriptor with its state slot, or hold it aside at its ring scheduler (R294, R296). -/
def moveDesc (w : Work) (d : Desc) (t : Nat) : Work :=
  putDesc w { d with tun := otherServe w t (ringOwner w d.ring), slot := none }

/-- The idle descriptors of a Tun that no longer serves move at once. -/
def moveIdle (w : Work) (t : Nat) : Work :=
  (boundTo w t).foldl (fun w d => if (tilesOf w d.ring d.n).isEmpty && d.phase != .done then moveDesc w d t else w) w

/-- A role change takes effect in frame `f` (R294). -/
def applyRole (w : Work) (t role f : Nat) : Work :=
  let w := w.setFld (aTunStatus t) 21 21 0
  let w := w.setTun t { w.tun t with pend := none }
  if role = tunRole w t then w
  else
    let w := w.setReg (aTunRole t) (2 ^ 16 * role + nextEpoch (tunEpoch w t))
    moveIdle (w.setTun t { w.tun t with changed := some f, tables := [] }) t

/-- Step 8 of Table 2-1 begins with the role changes that were accepted, judged again (19 R701). -/
def applyRoles (e : Env) (w : Work) : Work :=
  (List.range 32).foldl (fun w t => match (w.tun t).pend with
    | some r =>
      if roleCheck w t r = 0 then applyRole w t r e.clk.frame
      else ((w.setTun t { w.tun t with pend := none }).setFld (aTunStatus t) 21 21 0).setFld (aTunStatus t) 15 0 (roleCheck w t r)
    | none => w) w

/-- Descriptors held aside take a free state slot (R296). -/
def placeAside (w : Work) : Work :=
  (w.mash.descs.map (·.2)).foldl (fun w d =>
    if d.tun = none ∧ d.issued > 0 ∧ d.phase ≠ .done then
      match (List.range 16).map (fun i => 16 * w.fld (aRingCtl d.ring) 24 24 + i) |>.find? (fun u => takesDesc w u (ringOwner w d.ring)) with
      | some u => putDesc w { d with tun := some u }
      | none => w
    else w) w

/-- At the second boundary after a change, a tile of the old role that is still running is abandoned; `tun` is where its
descriptor goes on (R295). -/
def execRoleTileAbandon (ring n idx tun : Nat) (s : State) : Host.Outcome State Fault Refusal :=
  traffic s (fun e w =>
    match getTile w ring n idx, getDesc w ring n with
    | some t, some d =>
      match (w.tun t.tun).changed with
      | some f =>
        if t.st ≠ .sent ∧ f + 2 ≤ e.clk.frame ∧ t.frame ≤ f ∧ tunRole w t.tun ≠ roleServe then
          let w := abandonTile w t
          match getDesc w ring n with
          | some d' =>
            if (tilesOf w ring n).isEmpty then
              (if takesDesc w tun (ringOwner w ring) ∧ tunDie tun = tunDie t.tun then putDesc w { d' with tun := some tun, slot := none }
               else moveDesc w d t.tun)
            else w
          | none => w
        else w
      | none => w
    | _, _ => w)

/-! ### Strikes and retirement (R275-R280) -/

/-- The strike lifetime in frames (Table 7-7). -/
def strikeFrames (w : Work) : Nat := 2 ^ max 16 (min 40 (w.fld aMashCtl 5 0))

/-- The core holds a strike that has not lapsed (R277). -/
def struck (e : Env) (w : Work) (t c : Nat) : Bool :=
  match mget (w.tun t).strikes c with
  | some f => decide (e.clk.frame < f + strikeFrames w)
  | none => false

/-- Charge a strike; a core that already holds one is to be retired. The flag says whether it is. -/
def strike (e : Env) (w : Work) (t c : Nat) : Bool × Work :=
  if struck e w t c then (true, w.setTun t { w.tun t with retire := sadd (w.tun t).retire c })
  else (false, w.setTun t { w.tun t with strikes := mset (w.tun t).strikes c e.clk.frame })

/-- A strike lapses (R277). -/
def execStrikeLapse (tun core : Nat) (s : State) : Host.Outcome State Fault Refusal :=
  traffic s (fun e w =>
    match mget (w.tun tun).strikes core with
    | some f => if f + strikeFrames w ≤ e.clk.frame then w.setTun tun { w.tun tun with strikes := mdel (w.tun tun).strikes core } else w
    | none => w)

/-- Retirements take effect (R278, R280). -/
def applyRetire (e : Env) (w : Work) : Work :=
  (List.range 32).foldl (fun w t =>
    let cs := (w.tun t).retire
    if cs.isEmpty then w
    else
      let w := cs.foldl (fun w c =>
        raise e (w.setReg (aTunCoreMap t) (w.reg (aTunCoreMap t) ||| 2 ^ c))
          { ty := 0x4003, sev := 1, unit := t + 6 * 2 ^ 24, specific := c }) w
      let w := showCores (w.setTun t { w.tun t with retire := [], strikes := cs.foldl mdel (w.tun t).strikes }) t
      if (activeCores w t).isEmpty then raise e w { ty := 0x4004, sev := 1, unit := t + 6 * 2 ^ 24 } else w) w

end Sys2Proof.Machine
end

