-- ==== Sys2Proof/Machine/Slots.lean ====
section
/-! DEFINITION. TWIN establishment and resilver (04 R132-R149): the operation start check, the copies, the watermarks, and
operation slots across absences, losses and boundaries. -/

namespace Sys2Proof.Machine

/-! ### Entries of a parcel -/

/-- A Sheet or page entry with its secondary place; both layouts share the low byte (03 Table 3-7, Table 3-8). -/
structure Leaf where
  bits : Nat
  sec : Nat
  deriving DecidableEq, Repr

/-- The valid entries of Sheet entry `s`: itself, or those of its split table. -/
def leavesOf (e : Env) (w : Work) (s : Nat) : List Leaf :=
  if !sValid s then []
  else if sSplit s then
    (List.range 512).filterMap (fun i => match p0Read e w (sSplitPtr s + 16 * i) 16 with
      | some q => if sValid q then some ⟨q, qSecPage q⟩ else none
      | none => none)
  else [⟨s, sSecPlot s⟩]

/-- The valid entries of a parcel. -/
def parcelLeaves (e : Env) (w : Work) (x : BitVec 512) : List Leaf :=
  (List.range (eSize x)).flatMap (fun i => match sheetEntry e w x i with
    | some s => leavesOf e w s
    | none => [])

/-- An entry breaks R102, when it names a secondary of a TWIN parcel, or R101, for MIRROR with sec_valid = 1 (R103). -/
def leafBreaks (w : Work) (x : BitVec 512) (l : Leaf) (split : Bool) (pri : Nat) : Bool :=
  let unit := if split then 2 ^ 12 else 2 ^ 21
  if eClass x = 3 then
    namesSec l.bits l.sec && (sSecDev l.bits == sPriDev l.bits ||
      !bitAt (eDevSet x) (sSecDev l.bits) || !bitAt (eDevSet x) (sPriDev l.bits))
  else if eClass x = 2 then
    sSecValid l.bits && (sSecDev l.bits != sPriDev l.bits || tractOf w (l.sec * unit) == tractOf w (pri * unit))
  else false

/-- Some entry of the parcel breaks R101 or R102. -/
def placementBreaks (e : Env) (w : Work) (x : BitVec 512) : Bool :=
  (List.range (eSize x)).any (fun i => match sheetEntry e w x i with
    | some s => (leavesOf e w s).any (fun l => leafBreaks w x l (sSplit s) (if sSplit s then qPriPage l.bits else sPriPlot l.bits))
    | none => false)

/-! ### Starting (R140, R136, R146) -/

/-- The check of PROTECT.OP_CTL.go (Table 4-9); `kind` 1 ESTABLISH, 2 RESILVER. -/
def opCheck (e : Env) (w : Work) (kind parcel peer : Nat) : Nat :=
  let x := cadEntry w parcel
  let ls := parcelLeaves e w x
  if placementBreaks e w x then 0x010C
  else if (takeSlot w).isNone then 0x010D
  else if eClass x ≠ 3 ∨ eState x ≠ stAssigned ∨ bitAt (eDevSet x) peer = false ∨ (kind ≠ 1 ∧ kind ≠ 2) then 0x010E
  else if (kind = 1 ∧ ls.any (fun l => sSecValid l.bits || !(namesSec l.bits l.sec && sSecDev l.bits == peer)) = true) ∨
      (kind = 2 ∧ ls.all (fun l => sSecValid l.bits && sSecDev l.bits == peer) = false) then 0x010F
  else 0

/-- A write of PROTECT.OP_CTL: its fields, and on go the check. -/
def opCtlWrite (e : Env) (w : Work) (v : Nat) : Work :=
  let kind := bitsOf v 30 29
  let w := w.setReg aProtectOpCtl (2 ^ 29 * kind + 2 ^ 16 * bitsOf v 17 16 + bitsOf v 15 0)
  if !bitAt v 31 then w
  else
    let code := opCheck e w kind (bitsOf v 15 0) (bitsOf v 17 16)
    let w := w.setFld aProtectStatus 15 0 code
    if code = 0 then w.queue (.opStart kind (bitsOf v 15 0) (bitsOf v 17 16)) else w

/-- PROTECT.OP_CTL with kind ESTABLISH, the go bit as `v` gives it. -/
def execEstablish (v : Word) (s : State) : Host.Outcome State Fault Refusal :=
  traffic s (fun e w => opCtlWrite e w (putBits v.toNat 30 29 1))

/-- PROTECT.OP_CTL with kind RESILVER. -/
def execResilver (v : Word) (s : State) : Host.Outcome State Fault Refusal :=
  traffic s (fun e w => opCtlWrite e w (putBits v.toNat 30 29 2))

/-- The Sheet indexes of a parcel whose dirty bit is set. -/
def markedPlots (e : Env) (w : Work) (parcel : Nat) : List Nat :=
  (List.range (eSize (cadEntry w parcel))).filter (p0Bit e w (dirtyBase (cadEntry w parcel)))

/-- Claim a slot on the other device (R140); the claim of a resilver tells which plots are marked (log 163). -/
def claimSlot (e : Env) (w : Work) (k : Nat) (o : OpSlot) : Work :=
  let w := carryDatum e (setSlot w k { o with claimed := false }) .request o.peer 0x7F
  w.emit (.peer { op := 0x34, dev := o.peer, tag := o.parcel, args := o.parcel :: if o.kind = 3 then markedPlots e w o.parcel else [] })

/-- An operation starts at its boundary (R140): a slot here, and a claim of one on the other device. -/
def applyOpStart (e : Env) (w : Work) (kind parcel peer : Nat) : Work :=
  let code := opCheck e w kind parcel peer
  match code, takeSlot w with
  | 0, some k => claimSlot e w k { kind := kind + 1, parcel := parcel, peer := peer }
  | _, _ => w.setFld aProtectStatus 15 0 code

/-! ### Copying (R136, R141, R144) -/

/-- Copy a line to the other device; one that cannot be read here goes as the poison pattern (log 168). -/
def copyLine (e : Env) (o : OpSlot) (w : Work) (off : Nat) : Work :=
  let send (p s : Place) : Work :=
    let l := p.dpa / 64
    let d := if serving w l then (rawRead w (keyOf e w o.parcel) l).getD ⟨0, true⟩ else ⟨0, true⟩
    (carryToPeer e (memRead w acctBg l 1) acctBg .request o.peer l true).emit
      (.peer { op := 0x32, dev := o.peer, line := s.dpa / 64, data := some d })
  match locate e w (cadEntry w o.parcel) off with
  | .copies p (some s) _ _ _ => if p.dev = e.board ∧ s.dev = o.peer then send p s else w
  | .copies p none (some s) _ _ => if p.dev = e.board ∧ s.dev = o.peer then send p s else w
  | _ => w

def copyRange (e : Env) (o : OpSlot) (w : Work) (off lines : Nat) : Work :=
  (List.range lines).foldl (fun w i => copyLine e o w (off + 64 * i)) w

/-- The first Sheet index below `n` whose dirty bit is set. -/
def nextDirty (e : Env) (w : Work) (parcel n : Nat) : Option Nat :=
  (List.range n).find? (fun i => p0Bit e w (dirtyBase (cadEntry w parcel)) i)

/-- Copy a plot, or its part below `limit`, and clear its bit. -/
def copyPlot (e : Env) (w : Work) (o : OpSlot) (i limit : Nat) : Work :=
  let w := p0SetBit e w (dirtyBase (cadEntry w o.parcel)) i false
  copyRange e o w (2 ^ 21 * i) (min (2 ^ 21) (limit - 2 ^ 21 * i) / 64)

/-- The plan that a parcel's copies draw on (11 R462): that of its tracts. -/
def parcelPart (w : Work) (p : Nat) : Nat := bgPart w ((bitList (eTracts (cadEntry w p)) 8).headD 0)

/-- A write of the range has not reached both copies: the copy of the range waits for it (R137, R141). -/
def rangeOpen (w : Work) (o : OpSlot) (off n : Nat) : Bool :=
  let hit (r : Req) : Bool := r.parcel == o.parcel && decide (off ≤ r.off) && decide (r.off < off + n)
  w.home.txns.any (fun t => (t.mirror.isSome && hit t.req) || t.taking.any (fun x => hit x.2.1))

/-- PAGE_RESOLUTION (06 R251, R252): a page that a turned-away request waits for, or in the background the parcel's lowest unresolved
page, within the background allotment. -/
def execPageResolution (parcel page : Nat) (s : State) : Host.Outcome State Fault Refusal :=
  traffic s (fun e w =>
    if w.home.waiting.any (fun r => r.parcel == parcel && pageOf r.off == page) then resolvePage e w parcel page
    else if nextPage e w (cadEntry w parcel) = some page ∧ bgOpen w (parcelPart w parcel) = true then
      resolvePage e (bgDraw w (parcelPart w parcel) 4096) parcel page
    else w)

/-- A slot of this source that runs. -/
def runningSlot (w : Work) (slot kind : Nat) : Option OpSlot :=
  match mget w.ops slot with
  | some o => if o.kind = kind ∧ o.mirror = false ∧ o.st = 1 ∧ o.claimed = true ∧ bgOpen w (parcelPart w o.parcel) = true then some o else none
  | none => none

/-- Chunks of 64 KiB of a parcel. -/
def chunksOf (w : Work) (parcel : Nat) : Nat := 32 * eSize (cadEntry w parcel)

/-- The next step of an establishment: plots marked below the watermark first (R144), then the chunk at the watermark,
which advances; at the end of the parcel the slot reads DONE (R145). -/
def execEstablishChunk (slot : Nat) (s : State) : Host.Outcome State Fault Refusal :=
  traffic s (fun e w =>
    match runningSlot w slot 2 with
    | none => w
    | some o =>
      match nextDirty e w o.parcel ((o.mark + 31) / 32) with
      | some i => if rangeOpen w o (2 ^ 21 * i) (2 ^ 21) then w
          else copyPlot e (bgDraw w (parcelPart w o.parcel) (2 * min (2 ^ 21) (65536 * o.mark - 2 ^ 21 * i))) o i (65536 * o.mark)
      | none =>
        if rangeOpen w o (65536 * o.mark) 65536 then w
        else
          let w := copyRange e o (bgDraw w (parcelPart w o.parcel) (2 * 65536)) (65536 * o.mark) 1024
          let o := { o with mark := o.mark + 1 }
          setSlot w slot (if o.mark ≥ chunksOf w o.parcel then { o with st := 3 } else o))

/-- The next plot of a resilver (R136): copied, its bit cleared, and the watermark moved past it; with no bit left the
slot reads DONE. -/
def execResilverPlot (slot : Nat) (s : State) : Host.Outcome State Fault Refusal :=
  traffic s (fun e w =>
    match runningSlot w slot 3 with
    | none => w
    | some o =>
      match nextDirty e w o.parcel (eSize (cadEntry w o.parcel)) with
      | some i => if rangeOpen w o (2 ^ 21 * i) (2 ^ 21) then w
          else setSlot (copyPlot e (bgDraw w (parcelPart w o.parcel) (2 ^ 22)) o i (2 ^ 21 * (i + 1))) slot
            { o with mark := max o.mark (32 * (i + 1)) }
      | none => setSlot w slot { o with mark := chunksOf w o.parcel, st := 3 })

/-! ### Slots at boundaries, absences and losses (R142-R145, R138) -/

/-- The words of a slot (R147). -/
def slotWord (o : OpSlot) : Nat :=
  2 ^ 28 * o.kind + (if o.kind = 1 then o.chan else o.parcel + 2 ^ 16 * o.peer + (if o.mirror then 2 ^ 18 else 0))

/-- Step 1 of Table 2-1 for a slot (R38, R142): a source sends its watermark, a mirror commits the one it received. -/
def commitMark (e : Env) (w : Work) (k : Nat) : Work :=
  match mget w.ops k with
  | none => w
  | some o =>
    if o.kind = 1 then w
    else if o.mirror then
      match o.next with
      | some v => setSlot w k { o with mark := v, next := none, st := if v ≥ chunksOf w o.parcel then 3 else o.st }
      | none => w
    else if o.claimed && o.st != 4 && reachable w o.peer then
      (carryDatum e w .request o.peer 0x7F).emit (.peer { op := 0x33, dev := o.peer, tag := o.parcel, args := [o.parcel, o.mark] })
    else w

/-- After a commit has applied, an ESTABLISH slot that is DONE is IDLE once every entry has sec_valid = 1 (R145). -/
def idleSlots (e : Env) (w : Work) : Work :=
  (List.range 3).foldl (fun w k => match mget w.ops k with
    | some o => if o.kind = 2 ∧ o.st = 3 ∧ (parcelLeaves e w (cadEntry w o.parcel)).all (fun l => sSecValid l.bits) = true then clearSlot w k
      else w
    | none => w) w

/-- A Tun of role BACKGROUND that runs: no tile of the role before is left on it (07 R294). -/
def bgReady (w : Work) (t : Nat) : Bool :=
  tunRole w t == roleBackground && !blockHeld w 1 t && !w.mash.tiles.any (fun x => x.tun == t && x.blocks != 0)

/-- A BACKGROUND Tun of the die that homes tract `t`, in PARTITIONED mode of the tract's partition (07 R287, 11 R462). -/
def tractTun (w : Work) (t : Nat) : Bool :=
  (List.range 32).any (fun u => bgReady w u && tunDie u == t / 4 && (!partitioned w || bitAt (w.liv (aQosPartTuns (bgPart w t))) u))

/-- A BACKGROUND Tun that may do a slot's work: of the die that homes the tract for a rebuild, of either die for a copy (07 R287), and
in PARTITIONED mode of the partition of its tracts (11 R462). -/
def bgTun (w : Work) (o : OpSlot) : Bool :=
  let part := if o.kind = 1 then bgPart w (o.chan / 10) else parcelPart w o.parcel
  (List.range 32).any (fun t => bgReady w t && (o.kind != 1 || tunDie t == o.chan / 40) &&
    (!partitioned w || bitAt (w.liv (aQosPartTuns part)) t))

/-- A slot that this device runs is RUNNING while its work has a BACKGROUND Tun and its other device is there, else PAUSED (R144,
07 R287). -/
def settleSlot (w : Work) (k : Nat) : Work :=
  match mget w.ops k with
  | some o =>
    let st := if (o.kind == 1 || reachable w o.peer) && bgTun w o then 1 else 2
    if o.mirror ∨ (o.st ≠ 1 ∧ o.st ≠ 2) ∨ o.st = st then w else setSlot w k { o with st := st }
  | none => w

def settleSlots (w : Work) : Work := (List.range 3).foldl settleSlot w

/-- The other device is back after a warm reset: its slot is claimed again and the copy goes on (R148, R144); after a power cycle its
copy is gone, and the operation ends (Table 4-10). -/
def returnSlots (e : Env) (w : Work) (dev : Nat) (kept : Bool) : Work :=
  (List.range 3).foldl (fun w k => match mget w.ops k with
    | some o =>
      if o.kind = 1 ∨ o.peer ≠ dev ∨ o.mirror = true ∨ (o.st ≠ 1 ∧ o.st ≠ 2) then w
      else if kept then claimSlot e w k o
      else setSlot w k { o with st := 4 }
    | none => w) w

/-- A link to the other device is up: an operation of this source that has no slot there yet claims one again (R148). -/
def claimAgain (e : Env) (w : Work) (dev : Nat) : Work :=
  (List.range 3).foldl (fun w k => match mget w.ops k with
    | some o => if o.kind = 1 ∨ o.peer ≠ dev ∨ o.mirror = true ∨ o.claimed = true ∨ (o.st ≠ 1 ∧ o.st ≠ 2) then w else claimSlot e w k o
    | none => w) w

/-- The other device is lost. A mirror is promoted, and reads what was not yet copied as poisoned, with a record of the range (R138,
R143); its slot reads ABORTED (log 169). A source's operation waits for the device (R148). -/
def lostSlots (e : Env) (w : Work) (dev : Nat) : Work :=
  (List.range 3).foldl (fun w k => match mget w.ops k with
    | some o =>
      if o.kind = 1 ∨ o.peer ≠ dev ∨ o.mirror = false ∨ o.st = 3 ∨ o.st = 4 then w
      else
        let w := setSlot w k { o with st := 4 }
        let c : CutPart := ⟨o.parcel, o.mark, if o.kind = 3 then some o.plots else none⟩
        let w := { w with pool := { w.pool with cut := w.pool.cut ++ [c] } }
        raise e w { ty := if o.kind = 2 then 0x2008 else 0x2007, sev := 1, parcel := o.parcel, addr := 65536 * o.mark,
                    detail2 := 65536 * chunksOf w o.parcel }
    | none => w) w

end Sys2Proof.Machine
end

