-- ==== Sys2Proof/Machine/Commit.lean ====
section
/-! DEFINITION. Cadastre commits (03 R72-R79, R736): the staged records, the check of Table 3-6, and their application at a
boundary. -/

namespace Sys2Proof.Machine

/-! ### Staged records (R74, Table 3-13) -/

def rcKind (r : BitVec 512) : Nat := ef r 511 504
def rcParcel (r : BitVec 512) : Nat := ef r 15 0
def rcIndex (r : BitVec 512) : Nat := ef r 41 16
def rcPage (r : BitVec 512) : Nat := ef r 50 42
def rcEntry (r : BitVec 512) : Nat := ef r 255 128
/-- The entry of a CADASTRE record. -/
def rcCad (r : BitVec 512) : BitVec 512 := setEf r 511 504 0

def cadRecs (rs : List (BitVec 512)) : List (BitVec 512) := rs.filter (fun r => rcKind r == 0)
def sheetRecs (rs : List (BitVec 512)) : List (BitVec 512) := rs.filter (fun r => rcKind r == 1)
def splitRecs (rs : List (BitVec 512)) : List (BitVec 512) := rs.filter (fun r => rcKind r == 2)

/-- The staged records at a DPA, none when one reads poisoned. -/
def readRecords (e : Env) (w : Work) (base n : Nat) : Option (List (BitVec 512)) :=
  match n with
  | 0 => some []
  | k + 1 =>
    match p0Read e w base 64, readRecords e w (base + 64) k with
    | some v, some rs => some (BitVec.ofNat 512 v :: rs)
    | _, _ => none

/-! ### Writing entries -/

/-- The live Cadastre entry of a parcel and its image in parcel 0 (R70). -/
def setCad (e : Env) (w : Work) (p : Nat) (x : BitVec 512) : Work :=
  p0Write e { w with pool := { w.pool with cad := mset w.pool.cad p x } } (p0Base e + 64 * p) 64 x.toNat

def writeSheet (e : Env) (w : Work) (p i s : Nat) : Work :=
  if i < eSize (cadEntry w p) then p0Write e w (eSheet (cadEntry w p) + 16 * i) 16 s else w

/-- A split entry, in the table that the Sheet entry points to. -/
def writeSplit (e : Env) (w : Work) (p i page q : Nat) : Work :=
  match sheetEntry e w (cadEntry w p) i with
  | some s => if i < eSize (cadEntry w p) ∧ sValid s = true ∧ sSplit s = true then p0Write e w (sSplitPtr s + 16 * page) 16 q else w
  | none => w

/-- The entry that a CADASTRE record leaves: revoke_frame is Klohal's, stamped with `frame` on REVOKING (R90). -/
def stagedEntry (w : Work) (frame : Nat) (r : BitVec 512) : BitVec 512 :=
  let old := cadEntry w (rcParcel r)
  setEf (rcCad r) 303 256 (if eState (rcCad r) = stRevoking ∧ eState old ≠ stRevoking then frame else eRevoke old)

/-- Entries, Sheets and split tables after the records (R74: CADASTRE, then SHEET, then SPLIT). -/
def applyRecords (e : Env) (w : Work) (frame : Nat) (rs : List (BitVec 512)) : Work :=
  let w := (cadRecs rs).foldl (fun w r => setCad e w (rcParcel r) (stagedEntry w frame r)) w
  let w := (sheetRecs rs).foldl (fun w r => writeSheet e w (rcParcel r) (rcIndex r) (rcEntry r)) w
  (splitRecs rs).foldl (fun w r => writeSplit e w (rcParcel r) (rcIndex r) (rcPage r) (rcEntry r)) w

/-! ### Plots (R77, R722) -/

/-- A plot of this device: its tract and tract-local number, of a plot number DPA[47:21]. -/
def plotAt (w : Work) (plot : Nat) : Nat × Nat := (tractOf w (2 ^ 21 * plot), tractAddr (2 ^ 21 * plot) / 2 ^ 21)

/-- The plots of this device that a Sheet entry owns (R722). -/
def ownedPlots (e : Env) (w : Work) (x : BitVec 512) (s : Nat) : List (Nat × Nat) :=
  if !sValid s || sSplit s then []
  else
    (if sPriDev s ≠ e.board then []
     else if eClass x = 1 then (List.range 10).map (fun i => ((plotAt w (sPriPlot s)).1, (plotAt w (sPriPlot s)).2 + i))
     else [plotAt w (sPriPlot s)]) ++
    (if sSecDev s = e.board ∧ (sSecValid s = true ∨ (eClass x = 3 ∧ namesSec s (sSecPlot s) = true)) then
      [plotAt w (sSecPlot s)] else [])

def mapEntry (e : Env) (w : Work) (t n : Nat) : Nat := (p0Read e w (plotMapAddr e t n) 4).getD 0

def setMapEntry (e : Env) (w : Work) (t n v : Nat) : Work := p0Write e w (plotMapAddr e t n) 4 v

/-- Parcels that leave FREE in the commit; `w'` is the state with the records applied. -/
def leavesFree (w w' : Work) (p : Nat) : Bool := eState (cadEntry w p) == stFree && eState (cadEntry w' p) != stFree

/-- Parcels of the records. -/
def recParcels (rs : List (BitVec 512)) : List Nat := rs.foldl (fun l r => sadd l (rcParcel r)) []

/-- Sheet entries under the placement checks (R736), as (parcel, index). -/
def placed (w w' : Work) (rs : List (BitVec 512)) : List (Nat × Nat) :=
  (recParcels rs).flatMap (fun p =>
    if eState (cadEntry w' p) = stFree then []
    else
      let staged := ((sheetRecs rs).filter (fun r => rcParcel r == p)).map rcIndex
      let size := eSize (cadEntry w' p)
      (if leavesFree w w' p then List.range size ++ staged.filter (fun i => decide (size ≤ i)) else staged).map (fun i => (p, i)))

def entryAt (e : Env) (w : Work) (p i : Nat) : Nat :=
  if i < eSize (cadEntry w p) then (sheetEntry e w (cadEntry w p) i).getD 0 else 0

/-- Plots that the checked entries claim after the commit, as (parcel, tract, number). -/
def claims (e : Env) (w w' : Work) (rs : List (BitVec 512)) : List (Nat × Nat × Nat) :=
  (placed w w' rs).flatMap (fun x => (ownedPlots e w' (cadEntry w' x.1) (entryAt e w' x.1 x.2)).map (fun y => (x.1, y.1, y.2)))

/-- Plots that the SHEET records of a parcel that is not FREE give up. -/
def givenUp (e : Env) (w w' : Work) (rs : List (BitVec 512)) : List (Nat × Nat × Nat) :=
  (sheetRecs rs).flatMap (fun r =>
    let p := rcParcel r
    if eState (cadEntry w' p) = stFree ∨ sSplit (rcEntry r) = true then []
    else (ownedPlots e w (cadEntry w p) (entryAt e w p (rcIndex r))).map (fun y => (p, y.1, y.2)))

/-- A claimed plot is owned by another parcel that is not FREE (0x0101). -/
def overlaps (e : Env) (w w' : Work) (rs : List (BitVec 512)) : Bool :=
  let cs := claims e w w' rs
  let gs := givenUp e w w' rs
  cs.any (fun c =>
    let m := mapEntry e w c.2.1 c.2.2
    let q := bitsOf m 15 0
    cs.any (fun d => d.2 == c.2 && d.1 != c.1) ||
    (bitAt m 31 && q != c.1 && eState (cadEntry w' q) != stFree && !leavesFree w w' q && !gs.contains (q, c.2)))

/-- The map entries that name a parcel, as addresses in parcel 0, among those that are not zero. -/
def mapNames (e : Env) (w : Work) (p : Nat) : List Nat :=
  (w.pool.mem.map (·.1)).filter (fun a =>
    decide (plotMapAddr e 0 0 + 3 ≤ a) && decide (a < plotMapAddr e 8 0) && (a - plotMapAddr e 0 0) % 4 == 3 &&
    p0Read e w (a - 3) 4 == some (2 ^ 31 + p))

/-- A parcel that leaves FREE owns the plots that its entries now name (R722), and none that it owned before. -/
def clearMap (e : Env) (w : Work) (p : Nat) : Work := (mapNames e w p).foldl (fun w a => p0Write e w (a - 3) 4 0) w

/-- The plot map after the commit (R77). -/
def updateMap (e : Env) (w w' : Work) (rs : List (BitVec 512)) : Work :=
  let w2 := (givenUp e w w' rs).foldl (fun v g =>
    if mapEntry e v g.2.1 g.2.2 = 2 ^ 31 + g.1 then setMapEntry e v g.2.1 g.2.2 0 else v)
    (((recParcels rs).filter (leavesFree w w')).foldl (clearMap e) w')
  (claims e w w' rs).foldl (fun v c => setMapEntry e v c.2.1 c.2.2 (2 ^ 31 + c.1)) w2

/-! ### The checks of Table 3-6 -/

/-- Transitions that a commit makes (Table 3-4). -/
def transitionOk (old new : Nat) : Bool :=
  (old == stFree && (new == stAssigned || new == stFree)) || (old == stAssigned && (new == stAssigned || new == stRevoking)) ||
  (old == stScrubbing && new == stFree)

/-- Two records of one kind for one entry or page. -/
def duplicates (rs : List (BitVec 512)) : Bool :=
  match rs with
  | [] => false
  | r :: t => t.any (fun q => rcKind q == rcKind r && rcParcel q == rcParcel r &&
      (rcKind r == 0 || rcIndex q == rcIndex r) && (rcKind r != 2 || rcPage q == rcPage r)) || duplicates t

/-- A reserved field is non-zero, or a kind is reserved (0x0108). -/
def reservedSet (r : BitVec 512) : Bool :=
  if rcKind r = 0 then
    ef r 503 384 != 0 || ef r 383 368 != 0 || ef r 319 304 != 0 || ef r 127 96 != 0 || ef r 95 90 != 0 || ef r 63 56 != 0 ||
    ef r 47 47 != 0 || decide (eKind r ≥ 4)
  else if rcKind r = 1 then
    ef r 503 256 != 0 || ef r 127 51 != 0 || rcPage r != 0 || bitsOf (rcEntry r) 127 100 != 0 || bitsOf (rcEntry r) 63 62 != 0 ||
    bitAt (rcEntry r) 7
  else if rcKind r = 2 then
    ef r 503 256 != 0 || ef r 127 51 != 0 || bitsOf (rcEntry r) 127 100 != 0 || bitsOf (rcEntry r) 63 44 != 0 ||
    bitAt (rcEntry r) 7 || bitAt (rcEntry r) 1
  else true

/-- The secondary place that a leaf names (R722): with sec_valid = 1 in any class, and for TWIN while it is staged. -/
def leafSec (x : BitVec 512) (l : Leaf) (unit : Nat) : List (Nat × Nat) :=
  if sSecValid l.bits ∨ (eClass x = 3 ∧ namesSec l.bits l.sec = true) then [(sSecDev l.bits, l.sec * unit)] else []

/-- Places that a leaf names, as (device, DPA), with `pri` its primary page or plot. -/
def leafPlaces (x : BitVec 512) (l : Leaf) (unit pri : Nat) : List (Nat × Nat) := (sPriDev l.bits, pri * unit) :: leafSec x l unit

/-- The leaves of a Sheet entry with their primary page or plot and its unit. -/
def placedLeaves (e : Env) (w : Work) (s : Nat) : List (Leaf × Nat × Nat) :=
  (leavesOf e w s).map (fun l => if sSplit s then (l, 2 ^ 12, qPriPage l.bits) else (l, 2 ^ 21, sPriPlot l.bits))

/-- A place outside the parcel's devices, unpopulated, or outside its tracts (0x0104). -/
def badPlace (e : Env) (w : Work) (x : BitVec 512) (d : Nat × Nat) : Bool :=
  !bitAt (eDevSet x) d.1 || (d.1 == e.board && (!populated w d.2 || !bitAt (eTracts x) (tractOf w d.2)))

/-- A place at or above its tract's initialisation mark (0x0116). -/
def aboveMark (e : Env) (w : Work) (d : Nat × Nat) : Bool :=
  d.1 == e.board && decide (tractAddr d.2 / 2 ^ 21 ≥ w.reg (aSpargeInitMark (tractOf w d.2)))

/-- The raw plots of a STRIPE entry as places; a leaf's places otherwise. -/
def entryPlaces (e : Env) (w : Work) (x : BitVec 512) (s : Nat) : List (Nat × Nat) :=
  if eClass x = 1 ∧ sValid s = true then
    (List.range 10).map (fun i => (sPriDev s, dpaOf w (plotAt w (sPriPlot s)).1 (2 ^ 21 * ((plotAt w (sPriPlot s)).2 + i)))) ++
      leafSec x ⟨s, sSecPlot s⟩ (2 ^ 21)
  else (placedLeaves e w s).flatMap (fun y => leafPlaces x y.1 y.2.1 y.2.2)

/-- A STRIPE entry that breaks R79: split, an unaligned base, or a group whose entries differ. -/
def stripeEntryBad (e : Env) (w : Work) (p i s : Nat) : Bool :=
  sValid s && (sSplit s || (plotAt w (sPriPlot s)).2 % 10 != 0 ||
    (List.range 9).any (fun k => let q := entryAt e w p (i / 9 * 9 + k); sValid q && sPriPlot q != sPriPlot s))

/-- A Cadastre entry with a disallowed combination (0x0105). -/
def comboBad (x : BitVec 512) : Bool :=
  let n := (members (eDevSet x)).length
  (eSpread x && eClass x == 3) || (eSpread x && (n == 0 || eSize x % n != 0)) ||
  (eClass x == 1 && (if eSpread x then eSize x / max 1 n % 9 != 0 else eSize x % 9 != 0)) ||
  ((eKind x == 1 || eKind x == 2) && eHostCache x)

/-- In PARTITIONED mode, holders in two partitions or tracts outside the partition's (0x0111, 11 R461). -/
def partitionBad (w : Work) (x : BitVec 512) : Bool :=
  let ps := (bitList (eHolders x) 64).map (partOf w)
  match ps with
  | [] => false
  | p :: t => t.any (fun q => q != p) || (eTracts x &&& w.livF (aQosPartTracts p) 7 0) != eTracts x

/-- A split table misplaced (0x010A). -/
def splitBad (e : Env) (s : Nat) : Bool := sValid s && sSplit s && (sSplitPtr s % 8192 != 0 || !inP0 e (sSplitPtr s) 8192)

/-- The first failing code of Table 3-6, in the order of the codes; `again` for the second check of 19 R701, which leaves
the effective frame out. -/
def cadCheck (e : Env) (w : Work) (rs : List (BitVec 512)) (frame : Nat) (again : Bool) : Nat :=
  let w' := applyRecords e w frame rs
  let cs := cadRecs rs
  let ps := placed w w' rs
  let ent (x : Nat × Nat) : Nat := entryAt e w' x.1 x.2
  let cad (p : Nat) : BitVec 512 := cadEntry w' p
  let old (r : BitVec 512) : BitVec 512 := cadEntry w (rcParcel r)
  if overlaps e w w' rs then 0x0101
  else if cs.any (fun r => eState r == stScrubbing || !transitionOk (eState (old r)) (eState r)) then 0x0102
  else if rs.any (fun r => decide (rcKind r < 3) && rcParcel r == 0) || duplicates rs then 0x0103
  else if ps.any (fun x => decide (x.2 ≥ eSize (cad x.1)) || (entryPlaces e w' (cad x.1) (ent x)).any (badPlace e w' (cad x.1))) ||
      (splitRecs rs).any (fun r => eState (cad (rcParcel r)) != stFree && (decide (rcIndex r ≥ eSize (cad (rcParcel r))) ||
        !(sValid (ent (rcParcel r, rcIndex r)) && sSplit (ent (rcParcel r, rcIndex r))) ||
        (sValid (rcEntry r) &&
          (leafPlaces (cad (rcParcel r)) ⟨rcEntry r, qSecPage (rcEntry r)⟩ (2 ^ 12) (qPriPage (rcEntry r))).any
            (badPlace e w' (cad (rcParcel r)))))) then 0x0104
  else if cs.any (fun r => comboBad r) || ps.any (fun x => eClass (cad x.1) == 1 && stripeEntryBad e w' x.1 x.2 (ent x)) then 0x0105
  else if cs.any (fun r =>
      (eState (old r) == stScrubbing && eState r == stFree &&
        eGen r != (if eGen (old r) = 0xFFFF then 1 else eGen (old r) + 1)) ||
      (eState r == stAssigned && eGen r == 0)) then 0x0106
  else if cs.any (fun r => (eWriters r &&& eHolders r) != eWriters r) then 0x0107
  else if rs.any reservedSet then 0x0108
  else if !again && decide (frame < e.clk.frame + 2) then 0x0109
  else if cs.any (fun r => eSheet r % 4096 != 0 || !inP0 e (eSheet r) (16 * eSize r)) ||
      ps.any (fun x => splitBad e (ent x)) then 0x010A
  else if ps.any (fun x => (placedLeaves e w' (ent x)).any (fun y =>
        leafBreaks w' (cad x.1) y.1 (sSplit (ent x)) y.2.2)) ||
      (splitRecs rs).any (fun r => eState (cad (rcParcel r)) != stFree && sValid (rcEntry r) &&
        leafBreaks w' (cad (rcParcel r)) ⟨rcEntry r, qSecPage (rcEntry r)⟩ true (qPriPage (rcEntry r))) then 0x010C
  else if cs.any (fun r => eState r == stAssigned && eHostCache r &&
      (List.range 8).any (fun t => bitAt (eTracts r) t && !gazOn w (t / 4))) then 0x0110
  else if partitioned w && cs.any (fun r => partitionBad w r) then 0x0111
  else if cs.any (fun r => eState (old r) == stScrubbing && eState r == stFree && !w.pool.zeroed.contains (rcParcel r)) then 0x0115
  else if ps.any (fun x => (entryPlaces e w' (cad x.1) (ent x)).any (aboveMark e w')) ||
      (splitRecs rs).any (fun r => eState (cad (rcParcel r)) != stFree && sValid (rcEntry r) &&
        (leafPlaces (cad (rcParcel r)) ⟨rcEntry r, qSecPage (rcEntry r)⟩ (2 ^ 12) (qPriPage (rcEntry r))).any (aboveMark e w')) then 0x0116
  else 0

/-! ### The commit (R73, R75) -/

def cadCount (w : Work) : Nat := w.fld aCadastreCtl 8 0
def cadStage (w : Work) : Nat := w.reg2 aCadastreStageBase
def cadFrame (w : Work) : Nat := bitsOf (w.reg2 aCadastreEffectiveFrame) 47 0

/-- Write the reason and the pending bit of CADASTRE.STATUS. -/
def cadStatus (w : Work) (code : Nat) : Work :=
  w.setReg aCadastreStatus (code + (if w.pool.cadPending.isSome then 2 ^ 16 else 0))

/-- Check records and, if they pass, hold them for their frame; an earlier pending commit is replaced (R75). -/
def stageRecords (e : Env) (w : Work) (p : CadPending) : Nat × Work :=
  let code := cadCheck e w p.records p.frame false
  if code = 0 then (0, cadStatus { w with pool := { w.pool with cadPending := some p } } 0)
  else (code, cadStatus w code)

/-- A write of CADASTRE.CTL: the count, and on commit the check. -/
def cadCtlWrite (e : Env) (w : Work) (v : Nat) : Work :=
  let w := w.setReg aCadastreCtl (bitsOf v 8 0)
  if !bitAt v 31 then w
  else if cadCount w = 0 ∨ cadCount w > 256 then
    cadStatus w (if cadFrame w < e.clk.frame + 2 then 0x0109 else 0x010B)
  else match readRecords e w (cadStage w) (cadCount w) with
    | none => cadStatus w 0x0100
    | some rs => (stageRecords e w { frame := cadFrame w, records := rs }).2

def execCadastreCommit (v : Word) (s : State) : Host.Outcome State Fault Refusal :=
  traffic s (fun e w => cadCtlWrite e w v.toNat)

/-! ### Application at the boundary (R75, R87, R89, R90; 15 R426 of 10) -/

/-- A CXL Dynamic Capacity event record (12 Table 12-6): 0 Add Capacity, 1 Release Capacity, 2 Forced Capacity Release. -/
def evAdd : Nat := 0
def evRelease : Nat := 1
def evForced : Nat := 2

/-- The interrupt of an event log or mailbox uses entry 0 in this model's numbering of `Out.msix` sources (log 17). -/
def sendMsix (w : Work) (a v : Nat) : Work :=
  let l := w.ld a
  if headUp w a && l.unmasked.contains v then w.emit (.msix a v) else w.setLd a { l with msix := sadd l.msix v }

def dcEvent (w : Work) (a kind lda parcel : Nat) : Work := sendMsix (w.emit (.event a kind lda parcel)) a 0

/-- Every held or saved waiter on objects of a revoked parcel completes with PARCEL_REVOKED (10 R426). -/
def revokeWaiters (e : Env) (w : Work) (p : Nat) : Work :=
  w.sync.waiters.foldl (fun w x =>
    match ownerOf e w x.line with
    | some o => if o.parcel = p ∧ (x.st = .held ∨ x.st = .saved) then revokeWaiter e w ⟨p, o.off, x.line⟩ x else w
    | none => w) w

/-- What one CADASTRE record changes besides its entry, with `old` the entry before. -/
def afterEntry (e : Env) (frame : Nat) (w : Work) (p : Nat) (old new : BitVec 512) : Work :=
  let w := if eState new = stRevoking ∧ eState old ≠ stRevoking then revokeWaiters e w p else w
  let gone := (bitList (eHolders old) 64).filter (fun a => !bitAt (eHolders new) a)
  let w := if eState old = stAssigned ∧ eState new = stAssigned then
      { w with pool := { w.pool with removals := w.pool.removals ++ gone.map (fun a => (p, a, frame)) } } else w
  if eState new = stFree ∧ eState old = stScrubbing then
    { w with ports := { w.ports with lds := w.ports.lds.map (fun x =>
        (x.1, { x.2 with extents := x.2.extents.filter (fun y => y.parcel != p) })) } }
  else w

/-- Install an extent, and raise Add Capacity (R87). -/
def installExtent (e : Env) (w : Work) (a : Nat) (x : Extent) : Work :=
  let l := w.ld a
  if l.extents.length ≥ 4096 then w
  else
    let w := w.setLd a { l with extents := x :: l.extents, offers := l.offers ++ [(x.lda, e.clk.frame)] }
    dcEvent w a evAdd x.lda x.parcel

/-- Forget promoted-view notes of parcels whose entries no longer name a lost device as primary (04 R130). -/
def endPromotion (e : Env) (w : Work) (p : Nat) : Work :=
  if (parcelLeaves e w (cadEntry w p)).any (fun l => w.home.promoted.contains (sPriDev l.bits)) then w
  else { w with pool := { w.pool with cut := w.pool.cut.filter (fun x => x.parcel != p), recovered := w.pool.recovered.filter (· != p) } }

/-- Apply an accepted commit (R75). -/
def applyCommit (e : Env) (w : Work) (p : CadPending) : Work :=
  let w1 := { w with pool := { w.pool with cadPending := none } }
  let code := cadCheck e w1 p.records p.frame true
  if code ≠ 0 then cadStatus w1 code
  else
    let w2 := updateMap e w1 (applyRecords e w1 p.frame p.records) p.records
    let w3 := (cadRecs p.records).foldl (fun v r =>
      afterEntry e p.frame v (rcParcel r) (cadEntry w1 (rcParcel r)) (cadEntry w2 (rcParcel r))) w2
    let w4 := p.adds.foldl (fun v a => installExtent e v a.1 a.2) w3
    let w5 := p.forced.foldl (fun v f => dcEvent v f.2 evForced
      ((((v.ld f.2).extents.filter (fun x => x.parcel == f.1)).map (·.lda)).headD 0) f.1) w4
    cadStatus (idleSlots e ((recParcels p.records).foldl (endPromotion e) w5)) 0

/-- The pending commit applies at the boundary that begins its frame. -/
def applyCadastre (e : Env) (w : Work) : Work :=
  match w.pool.cadPending with
  | some p => if p.frame ≤ e.clk.frame then applyCommit e w p else w
  | none => w

/-! ### Drains (R89, R92) -/

/-- Requests that count for a parcel, of one agent of this device or of all: hosts', and tiles' of contexts bound to it. -/
def countsFor (e : Env) (p : Nat) (agent : Option Nat) (r : Req) : Bool :=
  r.parcel == p && r.ans != .mute && (match r.hostOf e, agent with
    | some a, some b => a == b
    | some _, none => true
    | none, _ => false)

/-- At the 4th boundary after revoke_frame: what is still counted is completed by the isolation wrapper (R92). -/
def forceDrain (e : Env) (w : Work) (p : Nat) (agent : Option Nat) (host : Option Nat) : Work :=
  let (n, w) := wrapperAnswer e w (countsFor e p agent)
  raise e w { ty := 0x3005, sev := 1, parcel := p, dev := e.board, agent := agent.getD 0, count := max 1 n, host := host }

/-- A parcel enters SCRUBBING; its zeroed mark is cleared (17 R650). -/
def toScrubbing (e : Env) (w : Work) (p : Nat) : Work :=
  let w := setCad e w p (setEf (cadEntry w p) 33 32 stScrubbing)
  { w with pool := { w.pool with zeroed := w.pool.zeroed.filter (· != p) } }

/-- REVOKING parcels at a boundary (R92). -/
def revokeStep (e : Env) (w : Work) (p : Nat) : Work :=
  let x := cadEntry w p
  if eState x ≠ stRevoking then w
  else if !(allReqs w).any (countsFor e p none) then toScrubbing e w p
  else if e.clk.frame ≥ eRevoke x + 4 then toScrubbing e (forceDrain e w p none none) p
  else w

/-- Removed holders at a boundary (R89); the extent goes with the drain. -/
def removalStep (e : Env) (w : Work) (x : Nat × Nat × Nat) : Work :=
  let done (w : Work) : Work :=
    let w := { w with pool := { w.pool with removals := w.pool.removals.filter (· != x) } }
    w.setLd x.2.1 { w.ld x.2.1 with extents := (w.ld x.2.1).extents.filter (fun y => y.parcel != x.1) }
  if e.clk.frame < x.2.2 + 4 then w
  else if (allReqs w).any (countsFor e x.1 (some x.2.1)) then done (forceDrain e w x.1 (some x.2.1) (some x.2.1))
  else done w

/-- Drains at a boundary. -/
def drains (e : Env) (w : Work) : Work :=
  let w := (w.pool.cad.map (·.1)).foldl (revokeStep e) w
  w.pool.removals.foldl (removalStep e) w

/-- REVOKE_DRAIN_FORCED for a parcel whose 4th boundary has come (R92). -/
def execRevokeDrainForced (parcel : Nat) (s : State) : Host.Outcome State Fault Refusal :=
  traffic s (fun e w =>
    let x := cadEntry w parcel
    if eState x = stRevoking ∧ e.clk.frame ≥ eRevoke x + 4 then revokeStep e w parcel else w)

/-- The same for a removed holder (R89). -/
def execHolderRemovalDrainForced (parcel agent : Nat) (s : State) : Host.Outcome State Fault Refusal :=
  traffic s (fun e w =>
    match w.pool.removals.find? (fun x => x.1 == parcel && x.2.1 == agent) with
    | some x => removalStep e w x
    | none => w)

/-! ### The slot map (11 R460) -/

def vSlotMap (v : Nat → Nat) : Nat := v aQosSlotMapBase + 2 ^ 32 * bitsOf (v (aQosSlotMapBase + 4)) 15 0

/-- The 4,096 bytes of a slot map (R460), none where a line of it cannot be read. -/
def slotMap (e : Env) (w : Work) (base : Nat) : Option (List Nat) :=
  (List.range 64).foldr (fun k acc =>
    match p0Read e w (base + 64 * k) 64, acc with
    | some v, some l => some ((List.range 64).map (fun i => bitsOf v (8 * i + 7) (8 * i)) ++ l)
    | _, _ => none) (some [])

/-- The ceiling of a host in lines; 0xFFFFFF sets none (11 Table 11-1). -/
def hostMax (w : Work) (a : Nat) : Nat := bitsOf (w.liv (aQosHostMax a)) 23 0

/-- In PARTITIONED mode a calendar slot serves the partition that owns it (R460). -/
def slotOwned (e : Env) (w : Work) (slot a : Nat) : Bool :=
  !partitioned w || (match slotMap e w (vSlotMap w.liv) with
    | some l => l.getD slot 0xFF == partOf w a
    | none => false)

/-- The calendar slot of an instant of the frame (R446). -/
def slotAt (e : Env) (t : Nat) : Nat := 4096 * (t - e.clk.start) / max 1 e.period

end Sys2Proof.Machine
end

