-- ==== Sys2Proof/Machine/Sparge.lean ====
section
/-! DEFINITION. Maintenance of the pool: Sparge zeroing and the patrol scrub (17 R648-R652), page moves (03 R96-R99),
and the enables of the address map (03 R68) and of the Gazetteer slices (05 R183, R184). -/

namespace Sys2Proof.Machine

/-! ### Zeroing (17 R648-R651) -/

def zeroState (w : Work) : Nat := w.fld aSpargeStatus 18 16

/-- The check of SPARGE.ZERO_CTL.go (Table 17-6). -/
def zeroCheck (e : Env) (w : Work) (p rate : Nat) : Nat :=
  let x := cadEntry w p
  if eState x ≠ stScrubbing ∨ bitAt (eDevSet x) e.board = false then 0x0112
  else if zeroState w = 1 then 0x0113
  else if rate < 1 ∨ rate > 400 then 0x0114
  else 0

/-- A write of SPARGE.ZERO_CTL: the rate, and on go the check. -/
def zeroCtlWrite (e : Env) (w : Work) (v : Nat) : Work :=
  let w := w.setReg aSpargeZeroCtl (bitsOf v 15 0)
  if !bitAt v 31 then w
  else
    let p := w.fld aSpargeZeroParcel 15 0
    let code := zeroCheck e w p (bitsOf v 15 0)
    let w := w.setFld aSpargeStatus 15 0 code
    if code = 0 then w.queue (.zero p) else w

/-- SPARGE.ZERO_CTL with go. -/
def execSpargeZero (v : Word) (s : State) : Host.Outcome State Fault Refusal :=
  traffic s (fun e w => zeroCtlWrite e w (putBits v.toNat 31 31 1))

/-- SPARGE.ZERO_CTL without go: the rate, in force from the next latch on (R648). -/
def execSpargeRateWrite (v : Word) (s : State) : Host.Outcome State Fault Refusal :=
  traffic s (fun e w => zeroCtlWrite e w (putBits v.toNat 31 31 0))

/-- Zeroing starts at its boundary, after a second check (19 R701). -/
def applyZero (e : Env) (w : Work) (p : Nat) : Work :=
  let code := zeroCheck e w p (max 1 (min 400 (w.fld aSpargeZeroCtl 15 0)))
  if code ≠ 0 then w.setFld aSpargeStatus 15 0 code
  else
    let w := (w.setFld aSpargeStatus 18 16 1).setReg aSpargeZeroMark 0
    { w with pool := { w.pool with zero := some (p, 0) } }

/-- The zero image for a secondary copy that this device holds of a line homed elsewhere. -/
def zeroSecondary (e : Env) (w : Work) (p : Nat) (l : Loc) : Work :=
  match l with
  | .copies _ (some s) _ _ _ => if s.dev = e.board then zeroLine e w p acctBg (s.dpa / 64) else w
  | .copies _ none (some s) _ _ => if s.dev = e.board then zeroLine e w p acctBg (s.dpa / 64) else w
  | _ => w

/-- The zero image for the line at a parcel offset, as agent 0x7E through its home, or to a secondary copy. A line that does not
resolve raises its record (03 R723). -/
def zeroOffset (e : Env) (w : Work) (p off : Nat) : Work :=
  let c := accessCheck e w .own p off true
  let r (dpa : Nat) : Req := { ownReq e w (.wr .i ⟨0, false⟩ (BitVec.allOnes 64) true) p off (dpa / 64) with agent := 0x7E, acct := acctBg }
  let w := sheetLook e w (r 0) c
  match c with
  | .served l => (match l.primary w with
    | some q => if q.dev = e.board then toHome e w (r q.dpa) else zeroSecondary e w p l
    | none => w)
  | c => raiseRefusal e w c p off e.board 0x7E none

/-- Lines of a parcel's offsets. -/
def parcelLines (w : Work) (p : Nat) : Nat := 32768 * eSize (cadEntry w p)

/-- The Sparge engine writes the next lines (R649), within the background allotment of their plan. -/
def execSpargeZeroStep (lines : Nat) (s : State) : Host.Outcome State Fault Refusal :=
  traffic s (fun e w =>
    match w.pool.zero with
    | none => w
    | some (p, done) =>
      if bgOpen w (parcelPart w p) = false then w
      else
        let n := min lines (parcelLines w p - done)
        let w := (List.range n).foldl (fun w i => zeroOffset e w p (64 * (done + i))) (bgDraw w (parcelPart w p) (64 * n))
        let w := { w with pool := { w.pool with zero := some (p, done + n) } }
        w.setReg aSpargeZeroMark ((done + n) / 32768))

/-- Zeroing is DONE once every line is written: the zeroed mark (R650). -/
def execZeroingDone (s : State) : Host.Outcome State Fault Refusal :=
  traffic s (fun _ w =>
    match w.pool.zero with
    | none => w
    | some (p, done) =>
      if done < parcelLines w p ∨ (allReqs w).any (fun r => r.agent == 0x7E && r.parcel == p) = true then w
      else
        let w := w.setFld aSpargeStatus 18 16 2
        { w with pool := { w.pool with zero := none, zeroed := sadd w.pool.zeroed p } })

/-! ### The patrol scrub (R652, 04 R111) -/

/-- The patrol reads line `x` of a channel. -/
def patrolLine (e : Env) (errs : List (Nat × Image)) (x : Nat) (w : Work) (c : Nat) : Work :=
  let line := lineOnChannel w c x
  if x < moduleBytes w (c / 10) / 64 ∧ serving w line = true then
    readReturn e (bgDraw (memRead w acctBg line 1) (bgPart w (c / 10)) 64) line (((errs.find? (fun y => y.1 == line)).map (·.2)).getD 0)
  else w

/-- The parity that the patrol finds for a stripe does not match its data lines: every line of it serves, and the data lines have been
read. -/
def parityOff (e : Env) (w : Work) (q : Stripe) : Bool :=
  (match plotOwner e w (stripeLine w q 0) with | some p => eClass (cadEntry w p) == 1 | none => false) &&
  (stripeMissing w q).isEmpty && (dataSlots q).all (fun j => !stripeBad w q j) &&
  (stripeBad w q q.parity || slotLine w q q.parity != (parityOf w q).1 || flagsOf w q != (parityOf w q).2)

/-- The parity of a stripe that does not match its data is rewritten (R111), on a BACKGROUND Tun of the tract's die (07 R286, R287). -/
def patrolStripe (e : Env) (x : Nat) (w : Work) (t : Nat) : Work :=
  let (q, _) := stripeAt w (lineOnChannel w (10 * t) x)
  if x < moduleBytes w t / 64 ∧ parityOff e w q = true ∧ tractTun w t = true then
    let pl := stripeLine w q q.parity
    raise e (memWrite (setParity w q (parityOf w q)) acctBg pl 1) { ty := 0x2002, addr := 64 * pl }
  else w

/-- Channel lines of the largest module. -/
def patrolEnd (w : Work) : Nat := (List.range 8).foldl (fun m t => max m (moduleBytes w t / 64)) 0

/-- A pass is complete: the pass count, and the ECS counters (R652, R550). -/
def patrolPass (e : Env) (w : Work) : Work :=
  let w := w.setFld aSpargeStatus 31 19 (satAdd 13 (w.fld aSpargeStatus 31 19) 1)
  let w := { w with pool := { w.pool with patrol := 0 } }
  (List.range 80).foldl (fun w c =>
    if chanState w c = chOnline then raise e w { ty := 0x100B, unit := dramUnit c 0 0 0 } else w) w

/-- Every tract with a module has something left of the background allotment of its plan. -/
def patrolOpen (w : Work) : Bool := (List.range 8).all (fun t => moduleBytes w t == 0 || bgOpen w (bgPart w t))

/-- The patrol reads the next line of every channel, with the errors that some come back with (R652). -/
def execPatrolRead (errs : List (Nat × Image)) (s : State) : Host.Outcome State Fault Refusal :=
  traffic s (fun e w =>
    if w.fld aSpargePatrol 31 31 = 0 ∨ patrolOpen w = false then w
    else
      let x := w.pool.patrol
      let w := (List.range 80).foldl (patrolLine e errs x) w
      let w := (List.range 8).foldl (patrolStripe e x) w
      if x + 1 ≥ patrolEnd w then patrolPass e w else { w with pool := { w.pool with patrol := x + 1 } })

/-! ### Page moves (03 R97-R99) -/

/-- SHEET_MOVE.TARGET: device and page. -/
def moveTarget (w : Work) : Nat × Nat := (bitsOf (w.reg2 aSheetMoveTarget) 41 40, bitsOf (w.reg2 aSheetMoveTarget) 35 0)

/-- The places (device, plot) that a Sheet entry names. -/
def namedPlots (x : BitVec 512) (s : Nat) : List (Nat × Nat) :=
  if !sValid s || sSplit s then []
  else (sPriDev s, sPriPlot s) :: (if namesSec s (sSecPlot s) then [(sSecDev s, sSecPlot s)] else []) ++
    (if eClass x = 1 then (List.range 9).map (fun i => (sPriDev s, sPriPlot s + i + 1)) else [])

/-- A FIRMWARE parcel holds the page. The plot map knows the owners of this device's plots; of another device's, the Sheets do (log 18). -/
def firmwarePage (e : Env) (w : Work) (d page : Nat) : Bool :=
  if d = e.board then
    (match plotOwner e w (page * 64) with | some q => eKind (cadEntry w q) == 3 | none => false)
  else w.pool.cad.any (fun x => eKind x.2 == 3 && eState x.2 != stFree &&
    (List.range (eSize x.2)).any (fun i => (namedPlots x.2 ((sheetEntry e w x.2 i).getD 0)).contains (d, page / 512)))

/-- The move is refused at once (R97). -/
def moveRefused (e : Env) (w : Work) (p i : Nat) : Bool :=
  let (d, page) := moveTarget w
  let s := entryAt e w p i
  !(sValid s && sSplit s) || eClass (cadEntry w p) == 1 || !firmwarePage e w d page

/-- A write of SHEET_MOVE.CTL: its fields, and on go the start of a move. -/
def sheetMoveWrite (e : Env) (w : Work) (v : Nat) : Work :=
  let w := w.setReg aSheetMoveCtl (2 ^ 28 * bitsOf v 28 28 + bitsOf v 8 0)
  if !bitAt v 31 || w.pool.move.isSome then w
  else
    let p := w.fld aSheetMoveParcel 15 0
    let i := w.fld aSheetMovePlot 25 0
    if moveRefused e w p i then w.setReg aSheetMoveStatus 4
    else
      let (d, page) := moveTarget w
      let m : PageMove := { parcel := p, plot := i, page := bitsOf v 8 0, copy := bitsOf v 28 28, tdev := d, tpage := page, frame := e.clk.frame }
      ({ w with pool := { w.pool with move := some m } }).setReg aSheetMoveStatus 1

def execPageMove (v : Word) (s : State) : Host.Outcome State Fault Refusal :=
  traffic s (fun e w => sheetMoveWrite e w (putBits v.toNat 31 31 1))

/-- The split entry of the page. -/
def moveEntry (e : Env) (w : Work) (m : PageMove) : Option Nat :=
  let s := entryAt e w m.parcel m.plot
  if sValid s && sSplit s then p0Read e w (sSplitPtr s + 16 * m.page) 16 else none

/-- The lines of a page of this device, at its home. -/
def pageLines (page : Nat) : List Nat := (List.range 64).map (fun i => page * 64 + i)

/-- A line of the page has yet to be recalled: it has an entry, or its set is lost and it was not recalled in this move (05 R180). -/
def heldLine (w : Work) (m : PageMove) (l : Nat) : Bool := (dirGet w l).inUse || (setLost w l && !m.recalled.contains l)

/-- Recall every line of the page that is held (step 3): one recall a line, as for a store-way eviction. -/
def recallPage (e : Env) (w : Work) (m : PageMove) (lines : List Nat) : Work :=
  let ls := lines.filter (fun l => heldLine w m l && (findTxn w l).isNone)
  let w := { w with pool := { w.pool with move := some { m with recalled := m.recalled ++ ls } } }
  ls.foldl (fun w l => settle e (openReq e w (ownReq e w .recall m.parcel 0 l) none) 16) w

/-- What a line of the copy that moves holds; a poisoned line stays poisoned (step 4). -/
def moveData (e : Env) (w : Work) (m : PageMove) (primary : Bool) (other : Option Place) (l : Nat) : Payload :=
  match (if primary then ncGet w e.board l else none) with
  | some n => ⟨n.data, n.poison⟩
  | none =>
    match (if serving w l then rawRead w (keyOf e w m.parcel) l else none) with
    | some p => p
    | none => match other with
      | some o => (localCopy e w (keyOf e w m.parcel) o).getD ⟨0, true⟩
      | none => ⟨0, true⟩

/-- A line of the page goes to its target, on this device or on another (log 18). -/
def moveLine (e : Env) (w : Work) (m : PageMove) (from_ i : Nat) (d : Payload) : Work :=
  let w := memRead w acctDev from_ 1
  if m.tdev = e.board then rawWrite (memWrite w acctDev (m.tpage * 64 + i) 1) (keyOf e w m.parcel) (m.tpage * 64 + i) d
  else (carryToPeer e w acctDev .request m.tdev from_ true).emit
    (.peer { op := 0x32, dev := m.tdev, line := m.tpage * 64 + i, data := some d })

/-- The device and page of the copy that moves, and of the other one, by the page's split entry. -/
def oldPlace (m : PageMove) (q : Nat) : Nat × Nat := if m.copy = 0 then (sPriDev q, qPriPage q) else (sSecDev q, qSecPage q)
def awayPlace (m : PageMove) (q : Nat) : Nat × Nat := if m.copy = 0 then (sSecDev q, qSecPage q) else (sPriDev q, qPriPage q)

/-- Steps 4 and 5: the 64 lines to the target from the device that holds them, and the new split entry; the plot map is unchanged. -/
def copyPage (e : Env) (w : Work) (m : PageMove) (q : Nat) : Work :=
  let (odev, old) := oldPlace m q
  let (adev, away) := awayPlace m q
  let w := if odev ≠ e.board then w else (List.range 64).foldl (fun w i =>
    let other : Option Place := if eClass (cadEntry w m.parcel) ≥ 2 ∧ sSecValid q = true then some ⟨adev, 4096 * away + 64 * i⟩ else none
    let d := moveData e w m (m.copy == 0) other (old * 64 + i)
    moveLine e (if m.copy = 0 then ncDrop w e.board (old * 64 + i) else w) m (old * 64 + i) i d) w
  let q' := if m.copy = 0 then putBits (putBits q 43 8 m.tpage) 3 2 m.tdev else putBits (putBits q 99 64 m.tpage) 5 4 m.tdev
  let w := sheetSettle e (writeSplit e w m.parcel m.plot m.page q')
  { w with pool := { w.pool with move := w.pool.move.map (fun x => { x with copied := true }) } }

/-- B(f+2) + 3P/4 has not passed (R98). -/
def moveInTime (e : Env) (w : Work) (m : PageMove) : Bool :=
  decide (e.clk.frame < m.frame + 2) ||
  (e.clk.frame == m.frame + 2 && w.kiln.next.isNone && decide (e.clk.now ≤ e.clk.start + 3 * e.period / 4))

/-- Steps 3 to 5 (R97): the page is recalled; once nothing of it is held or in progress, it is copied. -/
def execPageMoveCopy (s : State) : Host.Outcome State Fault Refusal :=
  traffic s (fun e w =>
    match w.pool.move with
    | none => w
    | some m =>
      if m.copied ∨ e.clk.frame < m.frame + 1 ∨ moveInTime e w m = false then w
      else match moveEntry e w m with
        | none => w
        | some q =>
          let home := if sPriDev q = e.board then pageLines (qPriPage q) else []
          let w := recallPage e w m home
          if home.any (fun l => (findTxn w l).isSome || heldLine w (w.pool.move.getD m) l) then w else copyPage e w m q)

/-- Release the held requests under the entry that stands (step 6). -/
def endMove (e : Env) (w : Work) (st : Nat) : Work :=
  let held := w.home.held
  let w := { w with pool := { w.pool with move := none }, home := { w.home with held := [] } }
  held.foldl (reresolve e) (w.setReg aSheetMoveStatus st)

/-- B(f+3) of a move that was copied. -/
def execPageMoveDone (s : State) : Host.Outcome State Fault Refusal :=
  traffic s (fun e w => match w.pool.move with
    | some m => if m.copied ∧ e.clk.frame ≥ m.frame + 3 then endMove e w 2 else w
    | none => w)

/-- B(f+3) of a move that was abandoned (R98). -/
def execPageMoveAbort (s : State) : Host.Outcome State Fault Refusal :=
  traffic s (fun e w => match w.pool.move with
    | some m => if m.copied = false ∧ e.clk.frame ≥ m.frame + 3 then endMove e w 3 else w
    | none => w)

/-! ### MEMMAP and the Gazetteer (03 R68, 05 R184) -/

/-- The masks of the address map: TRACT_XOR[0-2], then each tract's six. -/
def allMasks (w : Work) : List Nat :=
  (List.range 3).map (fun i => bitsOf (w.reg2 (aMemmapTractXor i)) 47 0) ++
  (List.range 8).flatMap (fun t => [w.reg2 (aTractXorSub t), w.reg2 (aTractXorBg t 0), w.reg2 (aTractXorBg t 1),
    w.reg2 (aTractXorBg t 2), w.reg2 (aTractXorBank t 0), w.reg2 (aTractXorBank t 1)])

/-- The masks of a tract select a bit below its row_lsb. -/
def lowMask (w : Work) (t : Nat) : Bool :=
  [aTractXorSub t, aTractXorBg t 0, aTractXorBg t 1, aTractXorBg t 2, aTractXorBank t 0, aTractXorBank t 1].any
    (fun a => w.reg2 a % 2 ^ w.fld (aTractGeometry t) 5 0 != 0)

/-- The check of MEMMAP.CTL.enable (Table 3-2). -/
def memmapCheck (w : Work) : Nat :=
  if (List.range 3).any (fun i => w.reg2 (aMemmapTractXor i) % 2 ^ 24 != 0) then 0x0201
  else if (List.range 8).any (lowMask w) then 0x0202
  else if (List.range 80).any (fun c => match (w.chan c).mod with | some m => !matchesTract w c m | none => false) then 0x0203
  else if (match w.pool.maskRec with | some l => l != allMasks w | none => false) &&
      w.pool.cad.any (fun x => x.1 != 0 && eState x.2 != stFree) then 0x0204
  else 0

/-- A write of MEMMAP.CTL: only a 1 to a clear enable acts. -/
def memmapWrite (w : Work) (v : Nat) : Work :=
  if !bitAt v 31 || w.fld aMemmapCtl 31 31 == 1 then w
  else
    let code := memmapCheck w
    let w := w.setReg aMemmapStatus code
    if code ≠ 0 then w
    else ({ w with pool := { w.pool with maskRec := some (allMasks w) } }).setReg aMemmapCtl (2 ^ 31)

def execMemmapEnable (v : Word) (s : State) : Host.Outcome State Fault Refusal := traffic s (fun _ w => memmapWrite w v.toNat)

/-- The check of GAZ[d].CTL.enable (Table 5-4). -/
def gazCheck (e : Env) (w : Work) (d : Nat) : Nat :=
  let k := gazK w d
  let p := w.fld (aGazCtl d) 15 0
  let x := cadEntry w p
  if k < 22 ∨ k > 26 then 0x0209
  else if eState x ≠ stAssigned ∨ eKind x ≠ 3 ∨ eClass x ≠ 2 ∨ eSpread x = true ∨ eDevSet x ≠ 2 ^ e.board then 0x020A
  else if eSize x < (4096 + (2 ^ 21 - 1) + 2 ^ k * 64) / 2 ^ 21 then 0x020B
  else if gazOn w (1 - d) = true ∧ w.fld (aGazCtl (1 - d)) 15 0 = p then 0x020C
  else if headerRead e w p k % 32 ≠ 0 ∧ headerRead e w p k ≠ k + 32 * d then 0x020D
  else 0

/-- A header whose k field is zero is new: it is initialised, and its store holds no entry (R183). -/
def headerNew (e : Env) (w : Work) (d : Nat) : Work :=
  if headerRead e w (storeParcel w d) (gazK w d) % 32 ≠ 0 then w
  else headerWrite e { w with dir := { w.dir with store := w.dir.store.filter (fun x => x.1 / 8 / 2 ^ 26 != d) } } d

/-- A write of GAZ[d].CTL: its RWL fields while the slice is disabled, and on enable the check; a new header is
initialised (R183). -/
def gazWrite (e : Env) (w : Work) (d v : Nat) : Work :=
  if gazOn w d then w
  else
    let w := w.setReg (aGazCtl d) (bitsOf v 20 0)
    if !bitAt v 31 then w
    else
      let code := gazCheck e w d
      let w := w.setFld (aGazStatus d) 15 0 code
      if code ≠ 0 then w
      else
        (showLost (headerNew e w d) d).setFld (aGazCtl d) 31 31 1

def execGazEnable (d : Nat) (v : Word) (s : State) : Host.Outcome State Fault Refusal :=
  traffic s (fun e w => gazWrite e w d v.toNat)

end Sys2Proof.Machine
end

