-- ==== Sys2Proof/Machine/Faults.lean ====
section
/-! DEFINITION. The fault rings (15 R589-R600, R734) and the near-cache sweep of lost tags (15 R579). -/

namespace Sys2Proof.Machine

/-! ### Records (R589, Table 15-6) -/

/-- The 64 B of a record as number `seq` of a ring of `entries`. -/
def recordLine (r : FaultRec) (seq entries : Nat) : Line :=
  BitVec.ofNat 512 (
    r.ty % 2 ^ 16 + 2 ^ 16 * (r.sev % 4) + 2 ^ 20 * ((seq / entries + 1) % 2) + 2 ^ 22 * (r.agent % 2 ^ 8) + 2 ^ 30 * (r.dev % 4) +
    2 ^ 32 * (r.parcel % 2 ^ 16) + 2 ^ 48 * ((r.ctx.getD 0) % 2 ^ 12) + (if r.ctx.isSome then 2 ^ 62 else 0) +
    (if r.addrCva then 2 ^ 63 else 0) + 2 ^ 64 * (r.addr % 2 ^ 64) + 2 ^ 128 * (r.frame % 2 ^ 48) +
    2 ^ 192 * min r.count (2 ^ 32 - 1) + 2 ^ 224 * (seq % 2 ^ 32) + 2 ^ 256 * (r.unit % 2 ^ 32) + 2 ^ 288 * (r.agent2 % 2 ^ 16) +
    2 ^ 320 * (r.detail2 % 2 ^ 64) + 2 ^ 384 * (r.specific % 2 ^ 128))

/-- An OVERFLOW record of drop counts (R596). -/
def overflowRec (drops : List Nat) (first : Nat) : FaultRec :=
  { ty := 0x800A, sev := 1, frame := first, count := drops.foldl (· + ·) 0
    specific := drops.foldr (fun d acc => 2 ^ 16 * acc + min d 0xFFFF) 0 }

def noDrops : List Nat := [0, 0, 0, 0, 0, 0, 0, 0]

/-! ### Host copies (R592, R599) -/

def hostEntries (w : Work) (a : Nat) : Nat := 2 ^ w.hfld a hFaultHostCtl 4 0
def hostTail (w : Work) (a : Nat) : Nat := w.hreg a hFaultHostTail
def hostFull (w : Work) (a : Nat) : Bool :=
  (2 ^ 32 + hostTail w a - w.hreg a hFaultHostHead) % 2 ^ 32 == hostEntries w a

/-- Write a record at the host ring's TAIL, as a Mash access bound to the host under the recorded generation; a refused
write disables the ring and sets its error bit, and its own record has no host copy. -/
def hostPut (e : Env) (w : Work) (a : Nat) (r : FaultRec) : Work :=
  let p := w.hfld a hFaultHostParcel 15 0
  let g := mgetD w.flt.hostGen a 0
  let seq := hostTail w a
  let off := w.hreg2 a hFaultHostOffset + 64 * (seq % hostEntries w a)
  match accessCheck e w (.host a g) p off true with
  | .served l =>
    let q : Req := { op := .mashWr ⟨recordLine r seq (hostEntries w a), false⟩ (BitVec.allOnes 64) true, dev := e.board, agent := 0x7F,
                     tag := seq % 2 ^ 16, frame := e.clk.frame, parcel := p, gen := g, off := off, line := 0 }
    let w := w.setHreg a hFaultHostTail (seq + 1)
    match l.primary w with
    | some c => resolved e w q c
    | none => w
  | c =>
    let w := (w.setHfld a hFaultHostCtl 31 31 0).setHfld a hFaultHostCtl 30 30 1
    raiseRefusal e w c p off e.board a none

/-- The host copy of a record, or a drop of it when the ring is full. -/
def hostCopy (e : Env) (w : Work) (r : FaultRec) : Work :=
  match hostRing w r with
  | none => w
  | some a => if hostFull w a then dropHostCopy e.clk.frame w r else hostPut e w a r

/-- An OVERFLOW record to a host ring once it has space (R599). -/
def hostOverflow (e : Env) (w : Work) (a : Nat) : Work :=
  match mget w.flt.hostDrops a with
  | none => w
  | some l =>
    if hostFull w a ∨ w.hfld a hFaultHostCtl 31 31 = 0 then w
    else
      let w := hostPut e w a (overflowRec l (mgetD w.flt.hostFirst a 0))
      { w with flt := { w.flt with hostDrops := mdel w.flt.hostDrops a, hostFirst := mdel w.flt.hostFirst a } }

/-! ### The firmware ring (R592-R597) -/

/-- Write a record at the firmware ring's TAIL as agent 0x7F: one full-line write. -/
def fwPut (e : Env) (w : Work) (r : FaultRec) : Work :=
  let seq := w.reg aFaultFwTail
  let dpa := w.reg2 aFaultFwBase + 64 * (seq % fwEntries w)
  let w := w.setReg aFaultFwTail (seq + 1)
  fwAccess e w (.datumWr ⟨recordLine r seq (fwEntries w), false⟩) seq (dpa / 64)

/-- Held records, oldest first, while the ring has space (R596). -/
def fwHeld (e : Env) (w : Work) (fuel : Nat) : Work :=
  match fuel, w.flt.hold with
  | n + 1, r :: t => if fwFull w then w else fwHeld e (fwPut e { w with flt := { w.flt with hold := t } } r) n
  | _, _ => w

/-- One OVERFLOW record, if any record has been dropped since the last one. -/
def fwOverflow (e : Env) (w : Work) : Work :=
  match w.flt.firstDrop with
  | none => w
  | some f =>
    if fwFull w || !w.flt.hold.isEmpty then w
    else
      let r := overflowRec w.flt.drops f
      fwPut e { w with flt := { w.flt with drops := noDrops, firstDrop := none } } r

/-- Two records of one source (R591): a channel, the agent of requests, or an agent and a unit. -/
def sameSource (x y : FaultRec) : Bool :=
  if x.cls = 1 ∧ y.cls = 1 then x.unit % 128 == y.unit % 128
  else x.dev == y.dev && x.agent == y.agent && (x.req && y.req || x.unit == y.unit)

/-- A record that stays until its frame has ended (R591). -/
def stays (e : Env) (x : FaultRec) : Bool := (x.coal || x.run) && x.frame == e.clk.frame

/-- The record that leaves the FIFO next, with the rest; `all` for the warm-reset flush. -/
def takeRec (e : Env) (all : Bool) (before l : List FaultRec) : Option (FaultRec × List FaultRec) :=
  match l with
  | [] => none
  | x :: t =>
    if all || (!stays e x && !before.any (sameSource x)) then some (x, before ++ t) else takeRec e all (before ++ [x]) t

/-- Place a record that has left the FIFO (R592, R593, R595). -/
def placeRec (e : Env) (w : Work) (r : FaultRec) : Work :=
  if !fwFull w then fwPut e (hostCopy e w r) r
  else if r.sev = 1 then
    (if holdRoom w w.flt.hold r then
      let w := hostCopy e w r
      { w with flt := { w.flt with hold := w.flt.hold ++ [r] } }
     else dropHostCopy e.clk.frame (dropRec e.clk.frame w r) r)
  else dropRec e.clk.frame (hostCopy e w r) r

/-- Host copies of records that entered the holding table directly (R592). -/
def owedCopies (e : Env) (w : Work) : Work :=
  let l := w.flt.hold.filter (fun r => r.owed)
  l.foldl (hostCopy e) { w with flt := { w.flt with hold := w.flt.hold.map (fun r => { r with owed := false }) } }

/-- Records leave the FIFO while `fuel` lasts. -/
def writeRecs (e : Env) (w : Work) (all : Bool) (fuel : Nat) : Work :=
  match fuel with
  | 0 => w
  | n + 1 =>
    match takeRec e all [] w.flt.fifo with
    | some (r, l) => writeRecs e (placeRec e { w with flt := { w.flt with fifo := l } } r) all n
    | none => w

/-- The ring writer takes a record from the FIFO (R592, R734). -/
def execFaultRecordWrite (s : State) : Host.Outcome State Fault Refusal :=
  traffic s (fun e w => if fwRingOn w then writeRecs e (owedCopies e w) false 1 else w)

/-- A write of FAULT.FW_HEAD: freed space takes held records, an OVERFLOW record, and the FIFO (R596). -/
def fwHeadWrite (e : Env) (w : Work) (v : Nat) : Work :=
  let w := w.setReg aFaultFwHead v
  if fwRingOn w && !fwFull w then writeRecs e (fwOverflow e (fwHeld e (owedCopies e w) 64)) false 256 else w

def execFaultFwHead (v : Word) (s : State) : Host.Outcome State Fault Refusal :=
  traffic s (fun e w => fwHeadWrite e w v.toNat)

/-- A write of FAULT_HOST.HEAD (R599). -/
def hostHeadWrite (e : Env) (w : Work) (a v : Nat) : Work := hostOverflow e (w.setHreg a hFaultHostHead v) a

def execFaultHostHead (agent : Nat) (v : Word) (s : State) : Host.Outcome State Fault Refusal :=
  traffic s (fun e w => barIn e w agent (fun w => hostHeadWrite e w agent v.toNat))

/-! ### Enables (R600) -/

/-- `n` bytes of device memory from `dpa` lie in one ASSIGNED FIRMWARE parcel. -/
def inFirmware (e : Env) (w : Work) (dpa n : Nat) : Bool :=
  match plotOwner e w (dpa / 64) with
  | none => false
  | some p => eState (cadEntry w p) == stAssigned && eKind (cadEntry w p) == 3 &&
    (List.range ((dpa + n - 1) / 2 ^ 21 - dpa / 2 ^ 21 + 1)).all (fun i => plotOwner e w (2 ^ 15 * (dpa / 2 ^ 21 + i)) == some p)

/-- The check of FAULT.FW_CTL.enable (0x061E). -/
def fwCheck (e : Env) (w : Work) : Nat :=
  let k := w.fld aFaultFwCtl 4 0
  let b := w.reg2 aFaultFwBase
  if k < 8 ∨ k > 20 ∨ b % 4096 ≠ 0 ∨ inFirmware e w b (64 * 2 ^ k) = false then 0x061E else 0

/-- The firmware ring starts: HEAD and TAIL at zero, or at the TAIL that a warm reset preserved (R597, log 19); held
records and an OVERFLOW record go first. -/
def fwStart (e : Env) (w : Work) : Work :=
  let t := w.flt.keepTail.getD 0
  let w := ((w.setReg aFaultFwTail t).setReg aFaultFwHead t).setFld aFaultFwCtl 31 31 1
  fwOverflow e (fwHeld e (owedCopies e { w with flt := { w.flt with keepTail := none } }) 64)

/-- A write of FAULT.FW_CTL. -/
def fwCtlWrite (e : Env) (w : Work) (v : Nat) : Work :=
  if fwRingOn w then (if bitAt v 31 then w else w.setFld aFaultFwCtl 31 31 0)
  else
    let w := w.setReg aFaultFwCtl (bitsOf v 4 0)
    if !bitAt v 31 then w
    else
      let code := fwCheck e w
      let w := w.setFld aFaultStatus 15 0 code
      if code = 0 then fwStart e w else w

def execFaultFwEnable (v : Word) (s : State) : Host.Outcome State Fault Refusal :=
  traffic s (fun e w => fwCtlWrite e w (putBits v.toNat 31 31 1))

/-- A write of 0 to the enable: the writer stops at once (R734). -/
def execFaultFwDisable (v : Word) (s : State) : Host.Outcome State Fault Refusal :=
  traffic s (fun e w => fwCtlWrite e w (putBits v.toNat 31 31 0))

/-- The ring conditions of 08 R299 for `n` bytes at a parcel offset: one ASSIGNED MEMORY parcel, held by the owner, aligned,
and written by the owner where `writer` asks it. -/
def ringRegion (w : Work) (owner p off n : Nat) (writer : Bool) : Bool :=
  let x := cadEntry w p
  eState x == stAssigned && eKind x == 0 && bitAt (eHolders x) owner && (!writer || bitAt (eWriters x) owner) &&
  off % 4096 == 0 && decide ((off + n + (2 ^ 21 - 1)) / 2 ^ 21 ≤ eSize x)

/-- The check of FAULT_HOST.CTL.enable (0x061F). -/
def hostRingCheck (w : Work) (a : Nat) : Nat :=
  let k := w.hfld a hFaultHostCtl 4 0
  if k < 8 ∨ k > 16 ∨ ringRegion w a (w.hfld a hFaultHostParcel 15 0) (w.hreg2 a hFaultHostOffset) (64 * 2 ^ k) true = false then 0x061F
  else 0

/-- A write of FAULT_HOST.CTL by its logical device. -/
def hostCtlWrite (w : Work) (a v : Nat) : Work :=
  if w.hfld a hFaultHostCtl 31 31 = 1 then (if bitAt v 31 then w else w.setHfld a hFaultHostCtl 31 31 0)
  else
    let w := w.setHfld a hFaultHostCtl 4 0 (bitsOf v 4 0)
    if !bitAt v 31 then w
    else
      let code := hostRingCheck w a
      let w := w.setHreg a hFaultHostStatus code
      if code ≠ 0 then w
      else
        let w := ((w.setHreg a hFaultHostHead 0).setHreg a hFaultHostTail 0).setHreg a hFaultHostCtl
          (2 ^ 31 + w.hfld a hFaultHostCtl 4 0)
        { w with flt := { w.flt with
            hostGen := mset w.flt.hostGen a (eGen (cadEntry w (w.hfld a hFaultHostParcel 15 0)))
            hostDrops := mdel w.flt.hostDrops a
            hostFirst := mdel w.flt.hostFirst a } }

def execFaultHostEnable (agent : Nat) (v : Word) (s : State) : Host.Outcome State Fault Refusal :=
  traffic s (fun e w => barIn e w agent (fun w => hostCtlWrite w agent (putBits v.toNat 31 31 1)))

def execFaultHostDisable (agent : Nat) (v : Word) (s : State) : Host.Outcome State Fault Refusal :=
  traffic s (fun e w => barIn e w agent (fun w => hostCtlWrite w agent (putBits v.toNat 31 31 0)))

/-! ### The sweep of a near-cache set (R579, Table 15-2) -/

/-- Lines of a tract that the directory records Exclusive. -/
def exclusiveLines (w : Work) (t : Nat) : List Nat :=
  sweepLines w (fun d => d.st == .exclusive) |>.filter (fun l => tractOf w (64 * l) == t)

/-- The lines of a near-cache set, as (device, line). -/
def setLines (w : Work) (tract set : Nat) : List (Nat × Nat) :=
  (w.pool.nc.map (fun x => (x.1 / 2 ^ 42, x.1 % 2 ^ 42))).filter (fun x => ncSet x.2 == set && tractOf w (64 * x.2) == tract)

/-- A line of a set whose tags are lost leaves the near cache: one whose last write-back is not recorded becomes poison, at its home on a
peer by a poisoned write-back. -/
def sweepLine (e : Env) (w : Work) (x : Nat × Nat) : Work :=
  match ncGet w x.1 x.2 with
  | none => w
  | some n =>
    if x.1 ≠ e.board then proxyDrop e (ncPut w x.1 x.2 { n with poison := n.poison || n.dirty }) x.1 x.2
    else if n.dirty then poisonLine e w n.parcel x.2
    else ncDrop w e.board x.2

/-- A word of the tags or the state of a near-cache set is uncorrectable, in `both` copies or in one. In one, it is taken from the other
(R578). In both, the tags of the set are lost: its lines are invalidated, those with a write-back not recorded poisoned, and its tract's Exclusive
lines recalled. The set's count of dirty lines is that of its dirty lines held. -/
def execNearCacheSetSweep (tract set : Nat) (both : Bool) (s : State) : Host.Outcome State Fault Refusal :=
  traffic s (fun e w =>
    if !both then w else
    let w := raise e w { ty := 0x8005, sev := 1, unit := 9 * 2 ^ 24 + tract }
    let w := (setLines w tract set).foldl (sweepLine e) w
    (exclusiveLines w tract).foldl (fun w l =>
      if (findTxn w l).isSome then w
      else settle e (openReq e w { op := .recall, dev := e.board, agent := 0x7F, tag := l % 2 ^ 16, frame := e.clk.frame,
                                   parcel := (dirGet w l).parcel, gen := eGen (cadEntry w (dirGet w l).parcel), off := 0, line := l } none) 16) w)

end Sys2Proof.Machine
end

