-- ==== Sys2Proof/Machine/Meridian.lean ====
section
/-! DEFINITION. The Meridian (02): commits, MERIDIAN_SYNC edges, alignment to the source, and the entry of a device-wide reset
(18 R661, R664). -/

namespace Sys2Proof.Machine

/-! ### A device-wide reset begins (18 R661, R664) -/

/-- A reset source with its cause: word 5 takes the cause, READY goes low, entry begins at `t`; a source that arrives in entry
changes nothing (R664). -/
def startEntry (e : Env) (cause t : Nat) : Env :=
  match e.rst.phase with
  | .off | .entry | .held => e
  | _ =>
    let e := e.setBackup 5 cause
    { e with rst := { e.rst with phase := .entry, t0 := t, step := 0, bound := e.clk.frame + 2, ready := false, stopped := false } }

/-! ### Commits (R58, R61; 19 R690) -/

/-- The snapshot region of a commit is valid (R690). -/
def snapOk (e : Env) (w : Work) (p : MerPending) : Bool :=
  decide (p.interval ≤ 256) &&
  (p.interval == 0 || (p.slots != 0 && p.base % 4096 == 0 && inFirmware e w p.base (16384 * p.slots)))

/-- Table 2-4, in the order of its codes; `again` for the second check of 19 R701. -/
def merCheck (e : Env) (w : Work) (p : MerPending) (again : Bool) : Nat :=
  if p.period < 0x04 ∨ p.period > 0x80 then 0x0701
  else if !again && decide (p.frame < e.clk.frame + 2) then 0x0702
  else if p.mode = 3 then 0x0703
  else if !present e w p.src then 0x0704
  else if !snapOk e w p then 0x0705
  else 0

/-- The staged configuration. -/
def merStaged (w : Work) : MerPending :=
  { frame := bitsOf (w.reg2 aMeridianEffectiveFrame) 47 0
    period := w.fld aMeridianCtl 7 0
    mode := w.fld aMeridianCtl 27 26
    src := w.fld aMeridianCtl 25 24
    interval := w.fld aMeridianSnapInterval 8 0
    slots := w.fld aMeridianSnapSlots 15 0
    base := bitsOf (w.reg2 aMeridianSnapBase) 47 0 }

/-- A write of MERIDIAN.CTL. -/
def merCtlWrite (e : Env) (w : Work) (v : Nat) : Env × Work :=
  let w := w.setMask aMeridianCtl 0x0F0000FF v
  if !bitAt v 31 then (e, w)
  else
    let p := merStaged w
    let code := merCheck e w p false
    let w := w.setFld aMeridianStatus 15 0 code
    if code = 0 then (e.setMerPending (some p), w) else (e, w)

def execMeridianCommit (v : Word) (s : State) : Host.Outcome State Fault Refusal :=
  whole s (fun e w => if mainRuns e then merCtlWrite e w v.toNat else (e, w))

/-- The live word that a commit leaves, in the layout of MERIDIAN.CTL. -/
def merPack (p : MerPending) : Nat := p.period + 2 ^ 24 * p.src + 2 ^ 26 * p.mode

/-- The pending commit applies at the boundary that begins its frame (R58, 19 R690, R701). A target phase lasts only while
CAPTURE does. -/
def applyMeridian (e : Env) (w : Work) : Env × Work :=
  match e.merPending with
  | none => (e, w)
  | some p =>
    if e.clk.frame < p.frame then (e, w)
    else
      let e := e.setMerPending none
      let code := merCheck e w p true
      if code ≠ 0 then (e, w.setFld aMeridianStatus 15 0 code)
      else
        let clk := { e.clk with
          srcOverride := none
          srcNext := none
          returned := false
          noFlit := 0
          aligned := e.clk.aligned && p.src == meridianSource e w
          phi := if p.mode = 2 then e.clk.phi else 0 }
        ({ e with
          clk := clk
          mer := { e.mer with live := triOf (merPack p), interval := p.interval, slots := p.slots, base := p.base, slot := 0 } }, w)

/-! ### MERIDIAN_SYNC (R46-R51) -/

/-- How a rising edge is taken: accepted before the next boundary, accepted after the last one, a second edge of its window, or
outside every window. -/
inductive Edge where
  | early | late | again | outside
  deriving DecidableEq, Repr

/-- An edge at instant `t` of the frame in progress: the window of the nearer boundary is tried first. The window in which an edge
has been accepted ends where it did before that edge moved its boundary. -/
def edgeKind (e : Env) (t : Nat) : Edge :=
  let a := t - e.clk.start
  let b := e.clk.next - t
  let inA := decide (8 * a ≤ e.clk.lastPeriod)
  let inB := decide (8 * b ≤ e.period)
  if (match e.clk.taken with | some x => decide (t ≤ x) | none => false) then .again
  else if !inA && !inB then .outside
  else if inB && (!inA || decide (b < a)) then .early
  else .late

/-- In CAPTURE, the frame in progress is adjusted by min(|phi remaining|, P/8), once (R51). -/
def slew (e : Env) (w : Work) : Env × Work :=
  if e.clk.phi = 0 ∨ e.clk.slewing = true then (e, w)
  else
    let n := min e.clk.phi.natAbs (e.period / 8)
    let up := decide (0 < e.clk.phi)
    let clk := { e.clk with
      slewing := true
      next := if up then e.clk.next + n else e.clk.next - n
      phi := if up then e.clk.phi - n else e.clk.phi + n }
    ({ e with clk := clk }, w.inc aMeridianSlewFrames 1)

/-- The phase of an edge from the nearest scheduled boundary, in (-P/2, P/2]. -/
def edgePhase (e : Env) (t : Nat) : Int :=
  let a := t - e.clk.start
  let b := e.clk.next - t
  let x : Int := if a ≤ b then (a : Int) else -(b : Int)
  if (e.period : Int) < 2 * x then x - e.period else if 2 * x ≤ -(e.period : Int) then x + e.period else x

/-- What the frame in progress already carries of a phase measured from its start: how far its end has moved. -/
def carried (e : Env) (t : Nat) : Int :=
  if t - e.clk.start ≤ e.clk.next - t then (e.clk.next : Int) - ((e.clk.start : Int) + e.period) else 0

/-- A rising edge that this device samples (R46, R50). -/
def edgeSeen (e : Env) (w : Work) (t highNs : Nat) : Bool :=
  mainRuns e && isSource e w && e.syncMode != 0 && decide (20 ≤ highNs) && decide (e.clk.start ≤ t) && decide (t ≤ e.clk.next)

/-- A rising edge on MERIDIAN_SYNC; the flag tells that the frame in progress ends at once (R48). An accepted edge leaves what
remains of a target phase as it is (log 149). -/
def syncEdge (e : Env) (w : Work) (t highNs : Nat) : Bool × Env × Work :=
  if !edgeSeen e w t highNs then (false, e, w)
  else
    let clk := { e.clk with now := t }
    match edgeKind e t with
    | .early =>
      let clk := { clk with taken := some (e.clk.next + e.period / 8), next := t }
      (decide (t < e.clk.next), { e with clk := clk }, w.inc aMeridianSyncAccepted 1)
    | .late =>
      let clk := { clk with
        taken := some (e.clk.start + e.clk.lastPeriod / 8)
        next := if t = e.clk.start then e.clk.next else t + e.period }
      (false, { e with clk := clk }, w.inc aMeridianSyncAccepted 1)
    | .again => (false, { e with clk := clk }, w.inc aMeridianSyncIgnored 1)
    | .outside =>
      let w := w.inc aMeridianSyncIgnored 1
      if e.syncMode = 2 then (false, slew { e with clk := { clk with phi := edgePhase e t - carried e t } } w)
      else (false, { e with clk := clk }, w)

/-! ### Alignment (R52-R57) -/

/-- The distance of this device's next boundary from the nearest boundary of the source, later ones positive, with the number
of source periods between the two named boundaries. -/
def offSource (next boundary p : Nat) : Int × Nat :=
  let x : Int := (next : Int) - (boundary : Int)
  let k := (2 * x + p) / (2 * (p : Int))
  (x - k * p, k.toNat)

/-- A TIMING flit of the source: its frame, period code, board number and the instant of its boundary on this device's clock.
The next boundary moves once a frame by at most P/8 (R53); frame and period are taken at that boundary (R54). -/
def timingFlit (e : Env) (w : Work) (frame code src boundary : Nat) : Env × Work :=
  if isSource e w || (src != meridianSource e w && !e.clk.returned) || decide (code < 0x04) || decide (0x80 < code) then (e, w)
  else
    let e := if e.clk.returned then { e with clk := { e.clk with returned := false, srcOverride := some src } } else e
    let (d, k) := offSource e.clk.next boundary (500000 * code)
    let n := min d.natAbs (e.period / 8)
    let moved := if e.clk.slewing then 0 else n
    let rest := d.natAbs - moved
    let clk := { e.clk with
      noFlit := 0
      slewing := true
      next := if 0 < d then e.clk.next - moved else e.clk.next + moved
      follow := some (frame + k, code, src)
      aligned := decide (rest ≤ 20000) }
    ({ e with clk := clk }, w)

def execTimingFlitReceive (frame code src boundary : Nat) (s : State) : Host.Outcome State Fault Refusal :=
  whole s (fun e w => if mainRuns e then timingFlit e w frame code src boundary else (e, w))

/-- A follower declares the source lost after 4 frames without a flit, counted as boundaries since the last one (log 150); the
surviving device with the lowest number is chosen for the next boundary (R56). -/
def execMeridianSourceLost (s : State) : Host.Outcome State Fault Refusal :=
  whole s (fun e w =>
    if mainRuns e && !isSource e w && decide (4 ≤ e.clk.noFlit) then
      let left := (presentDevs e w).filter (fun d => d != meridianSource e w && !isLost w d)
      ({ e with clk := { e.clk with srcNext := some (left.headD e.board) } }, w)
    else (e, w))

/-- The choice of R56 takes effect at a boundary: the new source keeps its frame and period and writes the record. -/
def applySource (e : Env) (w : Work) : Env × Work :=
  match e.clk.srcNext with
  | none => (e, w)
  | some d =>
    let e := { e with clk := { e.clk with srcNext := none, srcOverride := some d, noFlit := 0, returned := false, aligned := false } }
    if d = e.board then (e, raise e w { ty := 0x8002, sev := 1, dev := e.board, agent := 0x7F }) else (e, w)

end Sys2Proof.Machine
end

