-- ==== Sys2Proof/Machine/Qos.lean ====
section
/-! DEFINITION. Bandwidth: the commits of QOS.CTL and QOS.HOST[a].CTL (11 R449-R464, R733), the calendar shaper (R446-R448), and
the latency registers (R454, R455). -/

namespace Sys2Proof.Machine

/-! ### Commits -/

/-- The registers that a commit of QOS.CTL takes (Table 11-2). -/
def qosAddrs : List Nat :=
  [aQosCtl, aQosCapacity, aQosSlotMapBase, aQosSlotMapBase + 4] ++
  (List.range 8).flatMap (fun p => [aQosPartTracts p, aQosPartNcWays p, aQosPartDirWays p, aQosPartXlatWays p, aQosPartTuns p,
    aQosPartEnergy p])

/-- The registers that a commit of QOS.HOST[a].CTL takes (Table 11-1). -/
def qosHostAddrs (a : Nat) : List Nat := [aQosHostCtl a, aQosHostMin a, aQosHostMax a, aQosHostQueue a]

/-- The value that a check judges (R733): the commit's own staged value, an accepted one that is pending, the live one. -/
def qosView (w : Work) (own : List Nat) (a : Nat) : Nat :=
  if own.contains a then w.reg a
  else match mget w.qos.pend a with
    | some v => v.toNat
    | none => w.liv a

/-- What follows the pending values where there are any. -/
def qosAhead (w : Work) : Nat → Nat := qosView w []

def vEnabled (v : Nat → Nat) (a : Nat) : Bool := bitAt (v (aQosHostCtl a)) 30
def vPart (v : Nat → Nat) (a : Nat) : Nat := bitsOf (v (aQosHostCtl a)) 29 27
def vPrio (v : Nat → Nat) (a : Nat) : Nat := bitsOf (v (aQosHostCtl a)) 17 16
def vMin (v : Nat → Nat) (a : Nat) : Nat := bitsOf (v (aQosHostMin a)) 23 0
def vMax (v : Nat → Nat) (a : Nat) : Nat := bitsOf (v (aQosHostMax a)) 23 0
def vCapacity (v : Nat → Nat) : Nat := bitsOf (v aQosCapacity) 23 0
def vPartitioned (v : Nat → Nat) : Bool := bitAt (v aQosCtl) 16
def vTracts (v : Nat → Nat) (p : Nat) : Nat := bitsOf (v (aQosPartTracts p)) 7 0

/-- Hosts in the plan. -/
def vHosts (v : Nat → Nat) : List Nat := (List.range 64).filter (vEnabled v)

def sumOf (l : List Nat) (f : Nat → Nat) : Nat := l.foldl (fun n a => n + f a) 0

/-- The capacity of a partition in lines (R461). -/
def partCapacity (e : Env) (w : Work) (v : Nat → Nat) (p : Nat) : Nat :=
  let owned := match slotMap e w (vSlotMap v) with
    | some l => (l.filter (· == p)).length
    | none => 0
  min (popcount (vTracts v p) 8 * vCapacity v / 8) (owned * vCapacity v / 4096)

/-- Two partitions share a bit of a register, or the energy shares exceed 256 (0x0305). -/
def partsClash (v : Nat → Nat) : Bool :=
  (List.range 8).any (fun p => (List.range 8).any (fun q => decide (p < q) &&
    ((vTracts v p &&& vTracts v q) != 0 || (v (aQosPartNcWays p) &&& v (aQosPartNcWays q)) != 0 ||
     (v (aQosPartDirWays p) &&& v (aQosPartDirWays q)) != 0 || (v (aQosPartXlatWays p) &&& v (aQosPartXlatWays q)) != 0 ||
     (v (aQosPartTuns p) &&& v (aQosPartTuns q)) != 0))) ||
  decide (sumOf (List.range 8) (fun p => bitsOf (v (aQosPartEnergy p)) 7 0) > 256)

/-- A parcel with holders in two partitions, or tracts outside its partition's (0x0306). -/
def parcelSpans (v : Nat → Nat) (x : BitVec 512) : Bool :=
  match (bitList (eHolders x) 64).map (vPart v) with
  | [] => false
  | p :: t => t.any (fun q => q != p) || (eTracts x &&& vTracts v p) != eTracts x

/-- The slot map is misplaced or holds an illegal byte (0x0307). -/
def slotMapBad (e : Env) (w : Work) (v : Nat → Nat) : Bool :=
  vSlotMap v % 4096 != 0 || !inP0 e (vSlotMap v) 4096 ||
  (match slotMap e w (vSlotMap v) with
   | some l => l.any (fun b => decide (b > 7) && b != 0xFF)
   | none => true)

/-- The check of Table 11-3 over the configuration `v`, for a commit of host `own` or of QOS.CTL. -/
def qosCheck (e : Env) (w : Work) (v : Nat → Nat) (own : Option Nat) : Nat :=
  let hs := vHosts v
  if sumOf hs (vMin v) > vCapacity v ∨
     (vPartitioned v = true ∧ (List.range 8).any (fun p =>
        decide (sumOf (hs.filter (fun a => vPart v a == p)) (vMin v) > partCapacity e w v p)) = true) then 0x0301
  else if own.any (fun a => decide (vMin v a > vMax v a)) then 0x0302
  else if own.any (fun a => decide (bitsOf (v (aQosHostQueue a)) 9 0 < 16) || decide (bitsOf (v (aQosHostQueue a)) 9 0 > 512)) then 0x0303
  else if vPartitioned v ∧ (own.toList ++ hs).any (fun a => vTracts v (vPart v a) == 0) then 0x0304
  else if vPartitioned v ∧ partsClash v then 0x0305
  else if vPartitioned v ∧ w.pool.cad.any (fun x => eState x.2 == stAssigned && parcelSpans v x.2) then 0x0306
  else if own = none ∧ slotMapBad e w v then 0x0307
  else 0

def qosStatus (w : Work) (code : Nat) : Work := w.setFld aQosStatus 15 0 code

def qosAccept (w : Work) (as : List Nat) : Work :=
  { w with qos := { w.qos with pend := as.foldl (fun m a => mset m a (BitVec.ofNat 32 (w.reg a))) w.qos.pend } }

/-- A write of QOS.CTL. -/
def qosCtlWrite (e : Env) (w : Work) (v : Nat) : Work :=
  let w := w.setReg aQosCtl (v &&& 0x10000)
  if !bitAt v 31 then w
  else
    let code := qosCheck e w (qosView w qosAddrs) none
    if code = 0 then qosStatus (qosAccept w qosAddrs) 0 else qosStatus w code

/-- A write of QOS.HOST[a].CTL. -/
def qosHostWrite (e : Env) (w : Work) (a v : Nat) : Work :=
  let w := w.setReg (aQosHostCtl a) (v &&& 0x7C03FFFF)
  if !bitAt v 31 then w
  else
    let code := qosCheck e w (qosView w (qosHostAddrs a)) (some a)
    if code = 0 then qosStatus (qosAccept w (qosHostAddrs a)) 0 else qosStatus w code

def execQosCommit (v : Word) (s : State) : Host.Outcome State Fault Refusal := traffic s (fun e w => qosCtlWrite e w v.toNat)

def execQosHostCommit (a : Nat) (v : Word) (s : State) : Host.Outcome State Fault Refusal :=
  traffic s (fun e w => qosHostWrite e w a v.toNat)

/-! ### Step 4 of Table 2-1 (R449, R464, 19 R700, R701) -/

/-- The pending values of some registers come into force. -/
def qosInForce (w : Work) (as : List Nat) : Work :=
  let w' := as.foldl (fun w a => match mget w.qos.pend a with | some v => w.setLiv a v.toNat | none => w) w
  { w' with qos := { w'.qos with pend := as.foldl (fun m a => mdel m a) w'.qos.pend } }

def qosDrop (w : Work) (as : List Nat) : Work := { w with qos := { w.qos with pend := as.foldl (fun m a => mdel m a) w.qos.pend } }

def applyQosHost (e : Env) (w : Work) (a : Nat) : Work :=
  if !mhas w.qos.pend (aQosHostCtl a) then w
  else
    let code := qosCheck e w (qosAhead w) (some a)
    if code ≠ 0 then qosStatus (qosDrop w (qosHostAddrs a)) code
    else
      let w := qosInForce w (qosHostAddrs a)
      { w with qos := { w.qos with elig := mset w.qos.elig a 0, admitted := mdel w.qos.admitted a } }

def applyQos (e : Env) (w : Work) : Work :=
  let w := if !mhas w.qos.pend aQosCtl then w
    else
      let code := qosCheck e w (qosAhead w) none
      if code ≠ 0 then qosStatus (qosDrop w qosAddrs) code else qosInForce w qosAddrs
  (List.range 64).foldl (applyQosHost e) w

/-! ### The calendar shaper (R446-R448, 16 R614) -/

def lineGrant (w : Work) (a : Nat) : Nat := mgetD w.qos.grants a 0
def admittedOf (w : Work) (a : Nat) : Nat := mgetD w.qos.admitted a 0
def eligOf (w : Work) (a : Nat) : Int := mgetD w.qos.elig a 0
/-- The spacing of a host in 2^-16 slots. -/
def spacing (g : Nat) : Int := Int.ofNat (4096 * 65536 / g)
def burstOf (w : Work) (a : Nat) : Nat := w.livF (aQosHostCtl a) 15 0
/-- The host die of an agent (01: ports 0-15 on H0, 16-31 on H1). -/
def hostDie (a : Nat) : Nat := a / 32

/-- An eligible time clamped to the burst allowance at slot time `t`; without a grant there is no spacing. -/
def clampElig (w : Work) (a : Nat) (x t : Int) : Int :=
  if lineGrant w a = 0 then x else max x (t - Int.ofNat (burstOf w a) * spacing (lineGrant w a))

/-- Admit one line of a host at slot time `t`. -/
def admitLine (w : Work) (a : Nat) (t : Int) : Work :=
  { w with qos := { w.qos with
      admitted := mset w.qos.admitted a (admittedOf w a + 1)
      elig := if lineGrant w a = 0 then w.qos.elig else mset w.qos.elig a (clampElig w a (eligOf w a) t + spacing (lineGrant w a)) } }

/-- R446. -/
def eligible (w : Work) (a : Nat) (t : Int) : Bool := lineGrant w a != 0 && decide (eligOf w a ≤ t)

/-- Hosts that share a host's plan: all, or those of its partition. -/
def planHosts (w : Work) (a : Nat) : List Nat :=
  (List.range 64).filter (fun b => !partitioned w || partOf w b == partOf w a)

/-- The lines at which a die stops borrowing (16 R614); unstated where no host has a grant. -/
def dieShare (w : Work) (a : Nat) : Nat :=
  let hs := planHosts w a
  let g := sumOf hs (lineGrant w)
  let spare := (mgetD w.kiln.parts (if partitioned w then partOf w a else 0) {}).spare
  if g = 0 then Config.unstated 20 (hostDie a)
  else (g + spare) * sumOf (hs.filter (fun b => hostDie b == hostDie a)) (lineGrant w) / g

def dieAdmitted (w : Work) (a : Nat) : Nat :=
  sumOf ((planHosts w a).filter (fun b => hostDie b == hostDie a)) (admittedOf w)

/-- The host that comes first by eligible time, ties by the lower agent. -/
def firstElig (w : Work) (l : List Nat) : Option Nat :=
  l.foldl (fun b a => match b with
    | none => some a
    | some c => if eligOf w a < eligOf w c ∨ (eligOf w a = eligOf w c ∧ a < c) then some a else some c) none

/-- The host whose line is admitted next (R447). -/
def nextAdmitted (w : Work) (t : Int) (q : AMap Nat) : Option Nat :=
  let waiting := (q.filter (fun x => x.2 != 0)).map (·.1)
  match firstElig w (waiting.filter (fun a => eligible w a t && decide (admittedOf w a < lineGrant w a))) with
  | some a => some a
  | none =>
    let l := waiting.filter (fun a => !eligible w a t && (hostMax w a == 0xFFFFFF || decide (admittedOf w a < hostMax w a)) &&
      decide (dieAdmitted w a < dieShare w a))
    let top := l.foldl (fun m a => max m (w.livF (aQosHostCtl a) 17 16)) 0
    firstElig w (l.filter (fun a => w.livF (aQosHostCtl a) 17 16 == top))

/-- Admit lines while there is room. -/
def admitLines (w : Work) (t : Int) (q : AMap Nat) (room : Nat) : AMap Nat × Work :=
  match room with
  | 0 => (q, w)
  | k + 1 =>
    match nextAdmitted w t q with
    | none => (q, w)
    | some a => admitLines (admitLine w a t) t (mset q a (mgetD q a 0 - 1)) k

/-- Whether a host is served in a slot. -/
def inSlot (e : Env) (w : Work) (slot a : Nat) : Bool := w.livF (aQosHostCtl a) 30 30 == 1 && slotOwned e w slot a

/-- A calendar slot of a host die with room for `room` lines, `queued` the lines that wait by host. -/
def calendarSlot (e : Env) (w : Work) (die slot room : Nat) (queued : List (Nat × Nat)) : Work :=
  if slot ≥ 4096 then w
  else
    let all : AMap Nat := (queued.filter (fun x => decide (x.1 < 64) && hostDie x.1 == die)).foldl (fun m x => mset m x.1 x.2) []
    let (left, w) := admitLines w (Int.ofNat (65536 * slot)) (all.filter (fun x => inSlot e w slot x.1)) room
    let now := (all ++ left).foldl (fun m x => mset m x.1 x.2) w.qos.queued
    { w with qos := { w.qos with queued := now } }

def execCalendarSlot (die slot room : Nat) (queued : List (Nat × Nat)) (s : State) : Host.Outcome State Fault Refusal :=
  traffic s (fun e w => calendarSlot e w die slot room queued)

/-- Eligible times are carried into the new frame (R448), clamped against the new grants. -/
def carryElig (w : Work) : Work :=
  { w with qos := { w.qos with elig := w.qos.elig.map (fun x => (x.1, clampElig w x.1 (x.2 - 4096 * 65536) 0)) } }

/-! ### Latency registers (R454, R455) -/

def latHwmRead (w : Work) (a c : Nat) : Work :=
  (w.emit (.read a (0x30000 + hLatHwm c) (w.hreg a (hLatHwm c)))).setHreg a (hLatHwm c) 0

def execLatHwmRead (a c : Nat) (s : State) : Host.Outcome State Fault Refusal :=
  traffic s (fun e w => barIn e w a (fun w => latHwmRead w a c))

def latClear (w : Work) (a c : Nat) : Work := (List.range 16).foldl (fun w i => w.setHreg a (hLatHist c i) 0) w

def execLatClear (a c : Nat) (v : Word) (s : State) : Host.Outcome State Fault Refusal :=
  traffic s (fun e w => barIn e w a (fun w => if bitAt v.toNat 0 then latClear w a c else w))

end Sys2Proof.Machine
end

