-- ==== Sys2Proof/Machine/Xlat.lean ====
section
/-! DEFINITION. Address translation for Mash contexts (09): contexts, the walk of the host's tables, stage 2, the
translation caches, and invalidation. -/

namespace Sys2Proof.Machine

/-! ### Context entries (Table 9-1) -/

def xRoot (x : BitVec 512) : Nat := ef x 127 76
def xMsb (x : BitVec 512) : Nat := ef x 75 70
def xAway (x : BitVec 512) : Nat := ef x 69 64
def xLeaf (x : BitVec 512) : Nat := ef x 63 58
def xWrite (x : BitVec 512) : Nat := ef x 57 52
def xPresent (x : BitVec 512) : Nat := ef x 51 46
def xPol (x : BitVec 512) : Bool := ef x 45 45 == 1
def x1g (x : BitVec 512) : Bool := ef x 44 44 == 1
def x2m (x : BitVec 512) : Bool := ef x 43 43 == 1
def xLevels (x : BitVec 512) : Nat := 4 + ef x 42 42
def xFaultMode (x : BitVec 512) : Nat := ef x 41 41
def xPrefetch (x : BitVec 512) : Nat := ef x 40 36
def xHost (x : BitVec 512) : Nat := ef x 29 24
def xEnable (x : BitVec 512) : Bool := ef x 16 16 == 1
def xContext (x : BitVec 512) : Nat := ef x 11 0

def getCtx (w : Work) (c : Nat) : Option Ctx := mget w.xlat.ctxs c

/-- The context is enabled (08 R314). -/
def ctxOn (w : Work) (c : Nat) : Bool := match getCtx w c with | some x => x.on | none => false

/-- The host that a loaded context is bound to. -/
def ctxHost (w : Work) (c : Nat) : Option Nat := (getCtx w c).map (fun x => xHost x.entry)

/-! ### LOAD and DISABLE (R358-R361, Table 9-3) -/

def ctxBase (w : Work) : Nat := w.reg2 aXlatCtxBase

def ctxReserved (x : BitVec 512) : Bool :=
  ef x 511 128 != 0 || ef x 35 30 != 0 || ef x 23 17 != 0 || ef x 15 12 != 0

/-- The checks of an entry that a LOAD reads. -/
def ctxEntryCheck (w : Work) (c : Nat) (x : BitVec 512) : Nat :=
  let ps := [xPresent x, xWrite x, xLeaf x, xAway x]
  if xContext x ≠ c ∨ ctxReserved x = true then 0x0612
  else if ¬(xHost x < 64 ∧ ldExists w (xHost x) = true) then 0x0613
  else if xMsb x < 31 ∨ ps.eraseDups.length ≠ 4 ∨ ps.any (fun p => decide (12 ≤ p) && decide (p ≤ xMsb x)) = true then 0x0614
  else if xPrefetch x > 16 then 0x0615
  else match ctxHost w c with
    | some a => if a ≠ xHost x ∧ (w.mash.descs.any (fun d => dCtx d.2.img == c) = true ∨ mhas w.sync.saved c = true) then 0x0616 else 0
    | none => 0

/-- The entry of context `c` as it stands in the table. -/
def ctxEntry (e : Env) (w : Work) (c : Nat) : Option (BitVec 512) :=
  (p0Read e w (ctxBase w + 64 * c) 64).map (BitVec.ofNat 512)

/-- The check of a command, given the entry that a LOAD has read. -/
def ctxCode (e : Env) (w : Work) (op c : Nat) (x : Option (BitVec 512)) : Nat :=
  if op = 0 ∨ op = 3 ∨ ctxBase w % 2 ^ 18 ≠ 0 ∨ inP0 e (ctxBase w) (2 ^ 18) = false then 0x0611
  else if op = 2 then 0
  else match x with
    | none => 0x0612
    | some x => ctxEntryCheck w c x

def ctxCheck (e : Env) (w : Work) (op c : Nat) : Nat := ctxCode e w op c (ctxEntry e w c)

/-- A write of XLAT.CTX_CMD (R360, R361). A LOAD takes effect with the entry that it reads here: later writes of the table have no
effect until the next one (log 147). -/
def ctxCmdWrite (e : Env) (w : Work) (v : Nat) : Work :=
  let op := bitsOf v 27 26
  let c := bitsOf v 11 0
  let w := w.setReg aXlatCtxCmd (2 ^ 26 * op + c)
  if bitAt v 31 then
    let code := ctxCheck e w op c
    let w := w.setFld aXlatStatus 15 0 code
    if code = 0 then
      { w with xlat := { w.xlat with cmds := w.xlat.cmds.filter (fun x => x.1 != c) ++ [(c, op, (ctxEntry e w c).getD 0)] } }
    else w
  else w

def execContextLoad (v : Word) (s : State) : Host.Outcome State Fault Refusal := traffic s (fun e w => ctxCmdWrite e w v.toNat)
def execContextDisable (v : Word) (s : State) : Host.Outcome State Fault Refusal := traffic s (fun e w => ctxCmdWrite e w v.toNat)

/-! ### Stage 2 (R369) -/

/-- What stage 2 gives for an HPA: the parcel, its generation and the parcel offset, no decoder or extent, or a refusal of
Table 3-5. -/
inductive Stage2 where
  | ok (parcel gen off : Nat)
  | noExtent
  | refused (c : Chk) (parcel off : Nat)
  deriving DecidableEq, Repr

/-- The LDA of an HPA under the LD's decoders (12 R475). -/
def hpaToLda (l : Ld) (hpa : Nat) : Option Nat :=
  (l.hdm.find? (fun x => decide (x.2.1 ≤ hpa) && decide (hpa < x.2.1 + x.2.2.1))).map (fun x => hpa - x.2.1 + x.2.2.2)

def stage2 (e : Env) (w : Work) (a hpa : Nat) (write : Bool) : Stage2 :=
  match hpaToLda (w.ld a) hpa with
  | none => .noExtent
  | some lda =>
    match extentOf (w.ld a) lda with
    | none => .noExtent
    | some x =>
      match accessCheck e w (.host a x.gen) x.parcel (lda - x.lda) write with
      | .served _ => .ok x.parcel x.gen (lda - x.lda)
      | c => .refused c x.parcel (lda - x.lda)

/-! ### The translation caches (R372-R375; set and replacement: log 20) -/

/-- Bits of a page or table entry below its tag: 12, 21, 30, ... -/
def levelSpan (lvl : Nat) : Nat := 12 + 9 * (lvl - 1)

def l2Of (die : Nat) : Nat := 32 + die

/-- Ways of a set that a context's entries may take: 16, or in PARTITIONED mode its partition's ways of the L2. -/
def cacheWaysOf (w : Work) (cache c : Nat) : Nat :=
  if cache < 32 ∨ partitioned w = false then 16
  else match ctxHost w c with
    | some a => popcount (bitsOf (w.liv (aQosPartXlatWays (partOf w a))) 31 16) 16
    | none => 16

def cacheSet (x : XEnt) : Nat := x.tagv % (if x.cache < 32 then 128 else 4096)

def sameEnt (x y : XEnt) : Bool :=
  x.cache == y.cache && x.ctx == y.ctx && x.level == y.level && x.tagv == y.tagv && x.leaf == y.leaf

/-- Insert an entry in the place of the same entry or of the least recently used one of its set. -/
def putEnt (w : Work) (x : XEnt) : Work :=
  let x := { x with stamp := w.xlat.stamp }
  let rest := w.xlat.ents.filter (fun y => !sameEnt x y)
  let mates := rest.filter (fun y => y.cache == x.cache && cacheSet y == cacheSet x &&
    (!partitioned w || (ctxHost w y.ctx).map (partOf w) == (ctxHost w x.ctx).map (partOf w)))
  let keep := if mates.length < cacheWaysOf w x.cache x.ctx then rest
    else match mates.foldl (fun (b : Option XEnt) y => match b with
      | none => some y
      | some z => if y.stamp < z.stamp then some y else some z) none with
      | some old => rest.filter (fun y => !sameEnt old y)
      | none => rest
  { w with xlat := { w.xlat with
      ents := if cacheWaysOf w x.cache x.ctx = 0 then keep else keep ++ [x], stamp := w.xlat.stamp + 1 } }

/-- A leaf of the context for a CVA in one cache. -/
def leafIn (w : Work) (cache c cva : Nat) : Option XEnt :=
  w.xlat.ents.find? (fun x => x.cache == cache && x.ctx == c && x.leaf && x.tagv == cva / 2 ^ levelSpan x.level)

/-- A cached translation for a Tun: its L1, else its die's L2, which fills the L1. A leaf without a write grant does not
serve a need to write (R374). -/
def lookup (w : Work) (tun c cva : Nat) (write : Bool) : Option Nat × Work :=
  let hpa (x : XEnt) : Nat := x.addr + cva % 2 ^ levelSpan x.level
  match leafIn w tun c cva with
  | some x => if write && !x.wok then (none, w) else (some (hpa x), putEnt w x)
  | none =>
    match leafIn w (l2Of (tunDie tun)) c cva with
    | some x => if write && !x.wok then (none, w) else (some (hpa x), putEnt (putEnt w x) { x with cache := tun })
    | none => (none, w)

/-- The deepest table of the context that the L2 knows for a CVA: (level that it is read at, base, grant). A walk for a write
starts at none that lacks the grant, so that it finds a grant given since (R374). -/
def tableIn (w : Work) (die c cva : Nat) (write : Bool) : Option (Nat × Nat × Bool) :=
  (w.xlat.ents.filter (fun x =>
    x.cache == l2Of die && x.ctx == c && !x.leaf && x.tagv == cva / 2 ^ levelSpan x.level && (!write || x.wok))).foldl
    (fun b x => match b with
      | some (l, _, _) => if x.level - 1 < l then some (x.level - 1, x.addr, x.wok) else b
      | none => some (x.level - 1, x.addr, x.wok)) none

/-- A table that the L2 gives a walk is the most recently used of its set (R372). -/
def touchTable (w : Work) (k : Walk) (l : Nat) : Work :=
  match w.xlat.ents.find? (fun x => x.cache == l2Of (tunDie k.tun) && x.ctx == k.ctx && !x.leaf && x.level == l + 1 &&
      x.tagv == k.cva / 2 ^ levelSpan x.level) with
  | some x => putEnt w x
  | none => w

/-! ### The walk (R365-R368) -/

/-- How a walk stands: waiting for an entry, ended with a leaf (page span, address, grant), with a stage-1 fault or a stage-2
one, of Table 9-7. -/
inductive WalkEnd where
  | waiting
  | leaf (level addr : Nat) (wok : Bool)
  | fault (ty : Nat)
  | refused (c : Chk) (parcel off : Nat)
  deriving DecidableEq, Repr

/-- The staging name of an entry read. -/
def walkRef (id : Nat) : TileRef := ⟨2 ^ 16, id, 0, 0⟩

/-- Issue the read of one table entry (R366); the walk then waits for it. -/
def walkRead (e : Env) (w : Work) (k : Walk) (x : BitVec 512) : Walk × WalkEnd × Work :=
  let hpa := k.base + 8 * bitsOf k.cva (levelSpan k.level + 8) (levelSpan k.level)
  match stage2 e w (xHost x) hpa false with
  | .noExtent => (k, .fault 0x5006, w)
  | .refused c p o => (k, .refused c p o, w)
  | .ok p g o =>
    let k := { k with reading := true, id := w.xlat.next }
    let w := { w with xlat := { w.xlat with next := w.xlat.next + 1 } }
    let w := tunAccess e w {
      op := .mashRd, dev := e.board, agent := 0x50 + k.tun, tag := 0, frame := e.clk.frame, parcel := p, gen := g,
      off := o / 64 * 64, line := 0, tile := some (walkRef k.id), acct := acctCtx k.ctx, host := some (xHost x) }
    (k, .waiting, w)

/-- Act on an entry that has been read. -/
def walkEntry (k : Walk) (x : BitVec 512) (v : Nat) : Walk × Option WalkEnd :=
  if !bitAt v (xPresent x) then (k, some (.fault (if bitAt v (xAway x) then 0x5004 else 0x5001)))
  else
    let wok := k.wok && (bitAt v (xWrite x) == xPol x)
    let a := 2 ^ 12 * bitsOf v (xMsb x) 12
    if k.level = 1 ∨ bitAt v (xLeaf x) = true then
      if k.level > 3 ∨ (k.level = 3 ∧ x1g x = false) ∨ (k.level = 2 ∧ x2m x = false) then (k, some (.fault 0x5003))
      else if k.write ∧ wok = false then (k, some (.fault 0x5002))
      else (k, some (.leaf k.level (a / 2 ^ levelSpan k.level * 2 ^ levelSpan k.level) wok))
    else ({ k with level := k.level - 1, base := a, wok := wok, seen := k.seen ++ [(k.level, a, wok)] }, none)

/-- The walk from where it stands, as far as the entries that have come let it go. -/
def walkRun (e : Env) (w : Work) (k : Walk) (x : BitVec 512) (fuel : Nat) : Walk × WalkEnd × Work :=
  match fuel with
  | 0 => (k, .waiting, w)
  | n + 1 =>
    if k.level = 0 then
      if k.cva / 2 ^ (12 + 9 * xLevels x) ≠ 0 then (k, .fault 0x5003, w)
      else match tableIn w (tunDie k.tun) k.ctx k.cva k.write with
        | some (l, b, ok) => walkRun e (touchTable w k l) { k with level := l, base := b, wok := ok } x n
        | none => walkRun e w { k with level := xLevels x, base := 2 ^ 12 * xRoot x } x n
    else if !k.reading then
      match walkRead e w k x with
      | (k, .waiting, w) => walkRun e w k x n
      | r => r
    else
      match w.home.staged.find? (fun s => s.1 == walkRef k.id) with
      | none => (k, .waiting, w)
      | some (_, p) =>
        let w := dropStaged w (2 ^ 16) k.id 0
        let k := { k with reading := false }
        if p.poison then (k, .fault 0x5005, w)
        else
          let i := bitsOf k.cva (levelSpan k.level + 8) (levelSpan k.level)
          match walkEntry k x (bitsOf p.data.toNat (64 * (i % 8) + 63) (64 * (i % 8))) with
          | (k, some r) => (k, r, w)
          | (k, none) => walkRun e w k x n

/-- Leaves that a walk's result replaces (R374): those of its context for its CVA, in its L1 and L2. -/
def dropLeaves (w : Work) (k : Walk) : Work :=
  { w with xlat := { w.xlat with ents := w.xlat.ents.filter (fun x =>
      !((x.cache == k.tun || x.cache == l2Of (tunDie k.tun)) && x.ctx == k.ctx && x.leaf &&
        x.tagv == k.cva / 2 ^ levelSpan x.level)) } }

/-- Fill the caches from a walk that ended in a leaf: its tables and the leaf in the L2, the leaf in the L1 (R372, R373). -/
def fillCaches (w : Work) (k : Walk) (level addr : Nat) (wok : Bool) : Work :=
  if k.stale.isSome then w
  else
    let l2 := l2Of (tunDie k.tun)
    let ent (c l a : Nat) (ok lf : Bool) : XEnt := ⟨c, k.ctx, l, k.cva / 2 ^ levelSpan l, a, ok, lf, 0⟩
    let w := k.seen.foldl (fun w s => putEnt w (ent l2 s.1 s.2.1 s.2.2 false)) (dropLeaves w k)
    putEnt (putEnt w (ent l2 level addr wok true)) (ent k.tun level addr wok true)

def sameWalk (a b : Walk) : Bool := a.tun == b.tun && a.ctx == b.ctx && a.cva / 4096 == b.cva / 4096 && a.write == b.write && a.pre == b.pre

/-- The same walk, asked for in the same frame. -/
def oneWalk (a b : Walk) : Bool := sameWalk a b && a.born == b.born

def dropWalk (w : Work) (k : Walk) : Work :=
  { w with xlat := { w.xlat with walks := w.xlat.walks.filter (fun x => !oneWalk x k) } }

def keepWalk (w : Work) (k : Walk) : Work :=
  { w with xlat := { w.xlat with walks := w.xlat.walks.filter (fun x => !oneWalk x k) ++ [k] } }

/-- Walks of a die that are under way. -/
def busyWalks (w : Work) (die : Nat) (pre : Bool) : Nat :=
  (w.xlat.walks.filter (fun k => tunDie k.tun == die && k.reading && (!pre || k.pre))).length

/-- Walkers that a context's walks may use on a die: 48, or 6 in PARTITIONED mode (R376, 11 Table 11-6). -/
def walkersOf (w : Work) : Nat := if partitioned w then 6 else 48

/-! ### Removal of translations (R362, R378) -/

/-- Remove every translation of a context, and start its walks anew under the entry now loaded. -/
def purgeCtx (w : Work) (c : Nat) : Work :=
  { w with xlat := { w.xlat with
      ents := w.xlat.ents.filter (fun x => x.ctx != c)
      walks := w.xlat.walks.map (fun k => if k.ctx = c then { k with level := 0, reading := false, seen := [], wok := true, stale := none } else k) } }

/-- Step 1 of Table 9-5: leaves that overlap the range, and every non-leaf entry, of the named contexts; their walks
that have begun fill no cache (step 2). -/
def purgeRange (w : Work) (v : Inval) : Work :=
  let hit (x : XEnt) : Bool := v.ctxs.contains x.ctx && (!x.leaf || (match v.pages with
    | none => true
    | some (p, n) =>
      let lo := x.tagv * 2 ^ (levelSpan x.level - 12)
      decide (lo < p + n) && decide (p < lo + 2 ^ (levelSpan x.level - 12))))
  { w with xlat := { w.xlat with
      ents := w.xlat.ents.filter (fun x => !hit x)
      walks := w.xlat.walks.map (fun k => if v.ctxs.contains k.ctx && k.level != 0 && k.stale.isNone then { k with stale := some (v.frame + 1) } else k) } }

/-- A write of INVAL.CTL in the page of host `a` (R377, R378). -/
def invalWrite (e : Env) (w : Work) (a v : Nat) : Work :=
  let w := w.setHreg a hInvalCtl (2 ^ 24 * bitsOf v 25 24 + bitsOf v 11 0)
  if !bitAt v 31 || w.hfld a hInvalStatus 0 0 == 0 then w
  else
    let scope := bitsOf v 25 24
    let c := bitsOf v 11 0
    let bound := ctxHost w c == some a
    if scope = 3 ∨ (scope ≠ 2 ∧ bound = false) ∨ (scope = 1 ∧ w.hreg a hInvalPages = 0) then w.setHfld a hInvalStatus 1 0 3
    else
      let cs := if scope = 2 then (w.xlat.ctxs.filter (fun x => xHost x.2.entry == a)).map (·.1) else [c]
      let r := if scope = 1 then some (w.hreg2 a hInvalBase / 4096, w.hreg a hInvalPages) else none
      { w.setHfld a hInvalStatus 1 0 0 with xlat := { w.xlat with invals := mset w.xlat.invals a ⟨cs, r, e.clk.frame⟩ } }

def execInvalContext (agent : Nat) (v : Word) (s : State) : Host.Outcome State Fault Refusal :=
  traffic s (fun e w => barIn e w agent (fun w => invalWrite e w agent v.toNat))
def execInvalPages (agent : Nat) (v : Word) (s : State) : Host.Outcome State Fault Refusal :=
  traffic s (fun e w => barIn e w agent (fun w => invalWrite e w agent v.toNat))
def execInvalLdContexts (agent : Nat) (v : Word) (s : State) : Host.Outcome State Fault Refusal :=
  traffic s (fun e w => barIn e w agent (fun w => invalWrite e w agent v.toNat))

/-- Tiles of the contexts that an invalidation names, translated before its first boundary (Table 9-5). -/
def invalTiles (w : Work) (v : Inval) : List Tile :=
  w.mash.tiles.filter (fun t => (match getDesc w t.ring t.n with
    | some d => v.ctxs.contains (dCtx d.img)
    | none => false) && (t.st == .reading || t.st == .computed || t.st == .passed || t.st == .sent) && decide (t.xframe ≤ v.frame))

/-- Step 3 of Table 9-5. -/
def execInvalTileAbandon (agent : Nat) (s : State) : Host.Outcome State Fault Refusal :=
  traffic s (fun e w =>
    match mget w.xlat.invals agent with
    | none => w
    | some v =>
      if v.frame + 2 ≤ e.clk.frame then
        (invalTiles w v).foldl (fun w t => if t.st = .sent then w else
          match getTile w t.ring t.n t.idx with
          | some t => abandonTile w t
          | none => w) w
      else w)

/-- Steps 4 and 5 of Table 9-5: done once no such tile is left, at B(f+4) with what its isolation wrappers answer. -/
def endInval (e : Env) (w : Work) (a : Nat) (v : Inval) : Work :=
  let late := decide (v.frame + 4 ≤ e.clk.frame)
  let ts := invalTiles w v
  let w := if late then (wrapperAnswer e w (fun r => match r.tile with
      | some x => ts.any (fun t => sameTile t x.ring x.n x.idx)
      | none => false)).2 else w
  if v.frame + 1 ≤ e.clk.frame ∧ (late = true ∨ ts.isEmpty = true) then
    { w.setHfld a hInvalStatus 0 0 1 with xlat := { w.xlat with invals := mdel w.xlat.invals a } }
  else w

def execInvalDone (agent : Nat) (s : State) : Host.Outcome State Fault Refusal :=
  traffic s (fun e w => match mget w.xlat.invals agent with | none => w | some v => endInval e w agent v)

/-- Step 4 of Table 2-1 for the invalidations under way (R378): step 1 of Table 9-5 for those accepted in the frame before, and
step 5, which comes no later than B(f+4). -/
def applyInvals (e : Env) (w : Work) : Work :=
  w.xlat.invals.foldl (fun w x =>
    if x.2.frame + 1 = e.clk.frame then purgeRange w x.2
    else if x.2.frame + 4 ≤ e.clk.frame then endInval e w x.1 x.2 else w) w

/-- A tile that an invalidation has overtaken, which sends no write from B(f+2) on (step 3 of Table 9-5). -/
def overtaken (e : Env) (w : Work) (t : Tile) : Bool :=
  t.st != .sent && w.xlat.invals.any (fun x => decide (x.2.frame + 2 ≤ e.clk.frame) && (invalTiles w x.2).any (fun u => u == t))

end Sys2Proof.Machine
end

