-- ==== Sys2Proof/Machine/Compute.lean ====
section
/-! DEFINITION. What a Mash core computes for one tile (07, 08 R320-R339): the operand streams as they were staged, and the
items that the tile writes. -/

namespace Sys2Proof.Machine

/-! ### Staged input -/

/-- Lines of a tile as they were staged: CVA line and data. -/
abbrev TileMem := List (Nat × Payload)

def tmLine (m : TileMem) (l : Nat) : Payload :=
  match m.find? (fun x => x.1 == l) with
  | some x => x.2
  | none => ⟨0, true⟩

/-- `n` bytes from CVA `a`, little-endian (00 R2). -/
def tmNat (m : TileMem) (a n : Nat) : Nat :=
  match n with
  | 0 => 0
  | k + 1 => bitsOf (tmLine m (a / 64)).data.toNat (8 * (a % 64) + 7) (8 * (a % 64)) + 256 * tmNat m (a + 1) k

/-- A byte of the range lies in a poisoned line. -/
def tmPoison (m : TileMem) (a n : Nat) : Bool :=
  (List.range ((a + n - 1) / 64 + 1 - a / 64)).any (fun i => (tmLine m (a / 64 + i)).poison) && n != 0

/-- A value with its poison. -/
abbrev PVal := Val × Bool

/-- Element i of a stream of `count` elements (07 R257-R260). -/
def elVal (m : TileMem) (s : Strm) (count i : Nat) : PVal :=
  if isMx s.fmt then
    let b := s.base + i / 32 * mxBytes s.fmt
    let sc := scaleBase s.base s.fmt count + i / 32
    let v := tmNat m b (mxBytes s.fmt)
    let n := elBits s.fmt
    (mxValue s.fmt (tmNat m sc 1) (bitsOf v (n * (i % 32) + n - 1) (n * (i % 32))),
     tmPoison m b (mxBytes s.fmt) || tmPoison m sc 1)
  else
    let a := s.base + i * elBytes s.fmt
    (decodeCode s.fmt (tmNat m a (elBytes s.fmt)), tmPoison m a (elBytes s.fmt))

/-! ### Output items -/

/-- Bytes to be written: first CVA, count, value, poison. -/
structure Item where
  a : Nat
  n : Nat
  v : Nat
  poison : Bool
  deriving DecidableEq, Repr

/-- The part of line `l` that an item covers, added to its data, mask and poison. -/
def itemLine (l : Nat) (acc : Nat × Nat × Bool) (it : Item) : Nat × Nat × Bool :=
  let lo := max it.a (64 * l)
  let hi := min (it.a + it.n) (64 * l + 64)
  if hi ≤ lo then acc
  else
    (putBits acc.1 (8 * (hi - 64 * l) - 1) (8 * (lo - 64 * l)) (it.v / 2 ^ (8 * (lo - it.a))),
     putBits acc.2.1 (hi - 64 * l - 1) (lo - 64 * l) (2 ^ (hi - lo) - 1), acc.2.2 || it.poison)

/-- The line writes of a list of items, in the order of their first bytes. -/
def itemWrites (its : List Item) : List TWrite :=
  let ls := its.foldl (fun l it =>
    (List.range (if it.n = 0 then 0 else (it.a + it.n - 1) / 64 + 1 - it.a / 64)).foldl (fun l i =>
      if l.contains (it.a / 64 + i) then l else l ++ [it.a / 64 + i]) l) []
  ls.map (fun l =>
    let (d, k, p) := its.foldl (itemLine l) (0, 0, false)
    { line := l, byte := 0, op := .mashWr ⟨BitVec.ofNat 512 d, p⟩ (BitVec.ofNat 64 k) (k == 2 ^ 64 - 1) })

/-- Rounding of element i of output stream k (07 R268, R269). -/
def rndOf (x k i : Nat) : Rnd := if dRnd x then .stochastic (srDraw (dSeed x) k i) else .nearest

/-- A list in chunks of 32. -/
def blocks32 (l : List PVal) (fuel : Nat) : List (List PVal) :=
  match fuel with
  | 0 => []
  | n + 1 => if l.isEmpty then [] else l.take 32 :: blocks32 (l.drop 32) n

/-- The items of elements i0, i0 + 1, ... of an output stream: elements, or blocks with their scales (07 R262, R268). -/
def outItems (x : Nat) (s : Strm) (i0 : Nat) (vs : List PVal) : List Item :=
  if isMx s.fmt then
    ((blocks32 vs vs.length).zipIdx.map (fun bj =>
      let b := i0 / 32 + bj.2
      let sc := mxScale s.fmt (bj.1.map (·.1))
      let codes := mxEncode s.fmt sc (bj.1.zipIdx.map (fun v => (v.1.1, rndOf x s.k (32 * b + v.2))))
      let p := bj.1.any (·.2)
      let packed := codes.foldr (fun c acc => c + 2 ^ elBits s.fmt * acc) 0
      [⟨s.base + b * mxBytes s.fmt, mxBytes s.fmt, packed, p⟩, (⟨scaleBase s.base s.fmt (dCount x) + b, 1, sc, p⟩ : Item)])).flatten
  else
    vs.zipIdx.map (fun v => ⟨s.base + (i0 + v.2) * elBytes s.fmt, elBytes s.fmt,
      encodeCode s.fmt v.1.1 (rndOf x s.k (i0 + v.2)) (dSat x), v.1.2⟩)

/-! ### Elementwise operations (R321-R323) -/

/-- Round to the accumulator format. -/
def rA (x : Nat) (v : Val) : Val := roundCode (dAcc x) v

/-- One accumulator add (07 R263). -/
def aAdd (x : Nat) (acc v : Val) : Val := rA x (vadd acc v)

def fp32Val (n : Nat) : Val := fp32.decode n
def fp64Val (n : Nat) : Val := fp64.decode n

/-- REDUCE of the values of one element, dst first where it takes part (R322). -/
def reduceVals (x : Nat) (vs : List PVal) : PVal :=
  let p := vs.any (·.2)
  let ns := vs.map (·.1)
  let v := if redKind x = 0 then ns.foldl (aAdd x) vzero
    else match ns with
      | [] => vzero
      | a :: r => r.foldl (fun acc b => if redKind x = 1 then vmax acc b else vmin acc b) a
  (v, p)

/-- AXPBY of one element (R323). -/
def axpbyVal (x : Nat) (vs : List PVal) : PVal :=
  let al := rA x (fp64Val (dArea x 0 8))
  let be := rA x (fp64Val (dArea x 8 8))
  match vs with
  | [] => (vzero, false)
  | [a] => (aAdd x vzero (vmul al a.1), a.2)
  | a :: b :: _ => (aAdd x (aAdd x vzero (vmul al a.1)) (vmul be b.1), a.2 || b.2)

/-! ### OPT_STEP (R330, R331) -/

/-- v^t, exactly. -/
def vpow (v : Val) (t : Nat) : Val :=
  match v with
  | .fin n m e => .fin (n && t % 2 == 1) (m ^ t) (e * t)
  | .inf n => if t = 0 then .fin false 1 0 else .inf (n && t % 2 == 1)
  | .nan => if t = 0 then .fin false 1 0 else .nan

def vone : Val := .fin false 1 0
def vsub (a b : Val) : Val := vadd a (vneg b)

/-- 1 - b^t, in FP64, rounded to acc_fmt (log 21). -/
def biasTerm (x : Nat) (b : Val) (t : Nat) : Val :=
  rA x (roundCode 0 (vsub vone (roundCode 0 (vpow b t))))

/-- The new w, m and v of one element: its w, g, m and v before. -/
def optVals (x : Nat) (w g m v : Val) : Val × Val × Val :=
  let r := rA x
  let sc (k : Nat) : Val := fp32Val (dArea x (8 + 4 * k) 4)
  let mul (a b : Val) : Val := r (vmul a b)
  let add (a b : Val) : Val := r (vadd a b)
  let sub (a b : Val) : Val := r (vsub a b)
  let div (a b : Val) : Val := r (vdiv a b)
  if dArea x 0 1 = 0 then
    let g := add (mul (sc 1) g) (mul (sc 2) w)
    let m := add (mul (sc 3) m) (mul (sub vone (sc 4)) g)
    let u := if bitAt (dArea x 1 1) 0 then add g (mul (sc 3) m) else m
    (sub w (mul (sc 0) u), m, v)
  else
    let c1 := biasTerm x (sc 3) (dArea x 4 4)
    let c2 := biasTerm x (sc 4) (dArea x 4 4)
    let g := mul (sc 1) g
    let m := add (mul (sc 3) m) (mul (sub vone (sc 3)) g)
    let v := add (mul (sc 4) v) (mul (mul (sub vone (sc 4)) g) g)
    (sub w (mul (sc 0) (add (div (div m c1) (add (r (vsqrt (div v c2))) (sc 5))) (mul (sc 2) w))), m, v)

/-! ### Recipes (R336-R338) -/

/-- floor(a / b) of two finite values with b > 0, at least 0. -/
def vfloorDiv (a b : Val) : Nat :=
  match a, b with
  | .fin false m e, .fin _ n f => if n = 0 then 0 else if f ≤ e then m * 2 ^ (e - f).toNat / n else m / (n * 2 ^ (f - e).toNat)
  | _, _ => 0

def isFin (v : Val) : Bool := match v with | .fin _ _ _ => true | _ => false

/-- FREE VALUE: a result that the spec does not state, in a format (log 9). -/
def unstatedVal (fmt k n : Nat) : Val := decodeCode fmt (Config.unstated k n % 2 ^ elBits fmt)

/-- table(v) of R338, before the stage's rounding; `t` are the table's words. -/
def actVal (acc : Nat) (t : List Nat) (v : Val) : Val :=
  let f (i : Nat) : Val := fp32Val (t.getD i 0)
  let q := t.getD 6 0
  let n := 2 ^ q + 1
  let lo := f 0
  let hi := f 1
  if v = .nan then .nan
  else if vlt v lo then vadd (vmul (f 2) v) (f 3)
  else if vlt hi v then vadd (vmul (f 4) v) (f 5)
  else
    let w := vsub hi lo
    if !(isFin lo && isFin hi && vlt lo hi && decide (4 ≤ q) && decide (q ≤ 9)) then unstatedVal acc 10 (valToNat v)
    else
      let num := vmul (vsub v lo) (.fin false (n - 1) 0)
      let j := min (vfloorDiv num w) (n - 2)
      let frac := vsub num (vmul (.fin false j 0) w)
      vdiv (vadd (vmul (f (8 + j)) w) (vmul frac (vsub (f (9 + j)) (f (8 + j))))) w

/-- One element through the stages: the value, its poison, and what each STORE writes (selector, format, value). -/
structure RunSt where
  v : Val
  p : Bool
  outs : List (Nat × Nat × PVal)

/-- The operand of ADD and MUL. -/
def stageOp (m : TileMem) (x i : Nat) (s : Stage) : PVal :=
  if s.sel = 15 then (fp32Val s.c, false) else elVal m ⟨selBase x s.sel, s.fmt, true, false, 0⟩ (dCount x) i

def runStage (m : TileMem) (x i : Nat) (act : List Nat) (actP : Bool) (r : RunSt) (sj : Stage × Nat) : RunSt :=
  let s := sj.1
  let o := stageOp m x i s
  if s.code = 1 then { r with v := rA x o.1, p := o.2 }
  else if s.code = 2 then
    let u : Rnd := if dRnd x then .stochastic (Config.unstated (16 + sj.2) (2 ^ 40 * dSeed x + i) % 2 ^ 16) else .nearest
    { r with v := decodeCode s.fmt (encodeCode s.fmt r.v u (dSat x)) }
  else if s.code = 3 then { r with v := rA x (vmul r.v (fp32Val s.c)) }
  else if s.code = 4 then { r with v := rA x (vadd r.v o.1), p := r.p || o.2 }
  else if s.code = 5 then { r with v := rA x (vmul r.v o.1), p := r.p || o.2 }
  else if s.code = 6 then { r with v := rA x (if s.opt then vmin r.v (fp32Val s.c) else vmax r.v (fp32Val s.c)) }
  else if s.code = 7 then { r with v := rA x (actVal (dAcc x) act r.v), p := r.p || actP }
  else { r with outs := r.outs ++ [(s.sel, s.fmt, (r.v, r.p))] }

def runRecipe (m : TileMem) (x i : Nat) (act : List Nat) (actP : Bool) : List (Nat × Nat × PVal) :=
  ((stagesOf x).zipIdx.foldl (runStage m x i act actP) ⟨vzero, false, []⟩).outs

/-! ### DOT and CHECKSUM (R324, R332) -/

/-- The partial result of a tile of DOT: per element, or per block pair of MX operands (07 R266). -/
def dotPart (m : TileMem) (x i0 i1 : Nat) : Val :=
  let sx : Strm := ⟨dSrc x 0, dIn x, true, false, 0⟩
  let sy : Strm := ⟨dSrc x 1, dIn x, true, false, 0⟩
  let kind := dArea x 0 1
  let el (i : Nat) : Val := (elVal m sx (dCount x) i).1
  let prod (i : Nat) : Val := vmul (el i) (if kind = 0 then (elVal m sy (dCount x) i).1 else el i)
  if kind = 3 then (List.range (i1 - i0)).foldl (fun a j => vmax a (vabs (el (i0 + j)))) vzero
  else if isMx (dIn x) then
    (List.range ((i1 - i0) / 32)).foldl (fun a b =>
      aAdd x a ((List.range 32).foldl (fun s j => vadd s (prod (i0 + 32 * b + j))) vzero)) vzero
  else (List.range (i1 - i0)).foldl (fun a j => aAdd x a (prod (i0 + j))) vzero

/-- A partial result joins the descriptor's accumulator. -/
def dotJoin (x : Nat) (acc part : Val) : Val := if dArea x 0 1 = 3 then vmax acc part else aAdd x acc part

/-- The scalar that DOT writes. -/
def dotResult (x : Nat) (acc : Val) : Nat :=
  encodeCode (dAcc x) (if dArea x 0 1 = 2 then vsqrt acc else acc) .nearest false

/-- One bit of CRC-64/XZ, reflected. -/
def crcBit (r : Nat) : Nat := if r % 2 = 1 then (r / 2) ^^^ 0xC96C5795D7870F42 else r / 2

def crcByte (r b : Nat) : Nat := (List.range 8).foldl (fun r _ => crcBit r) (r ^^^ b)

/-- The register after `n` bytes from CVA `a`. -/
def crcRun (m : TileMem) (r a n : Nat) : Nat := (List.range n).foldl (fun r i => crcByte r (tmNat m (a + i) 1)) r

def crcMask : Nat := 2 ^ 64 - 1

/-! ### GATHER_SUM and SCATTER_ADD (R325-R329) -/

/-- An index of the index stream; from a poisoned line a free row of the table (log 9). -/
def indexAt (m : TileMem) (x k : Nat) : Nat :=
  let a := dSrc x 1 + 4 * k
  if tmPoison m a 4 then Config.unstated 6 a % max 1 (gsRows x) else tmNat m a 4

/-- The offset of bag b; from a poisoned line a free one (log 9). -/
def bagOffset (m : TileMem) (x b : Nat) : Nat :=
  let a := dSrc x 2 + 4 * b
  if tmPoison m a 4 then Config.unstated 5 a % 2 ^ 32 else tmNat m a 4

/-- The weight of index k. -/
def weightAt (m : TileMem) (x k : Nat) : PVal :=
  if dSrc x 3 = 0 then (vone, false) else (fp32Val (tmNat m (dSrc x 3 + 4 * k) 4), tmPoison m (dSrc x 3 + 4 * k) 4)

/-- Offsets of the bags b0 to b1 decrease somewhere (R328). -/
def decreasing (m : TileMem) (x b0 b1 : Nat) : Bool :=
  (List.range (b1 - b0)).any (fun i => decide (bagOffset m x (b0 + i + 1) < bagOffset m x (b0 + i)))

/-- The cut of a GATHER_SUM tile once its offsets are staged (R283, R327): as many whole bags as fit the tile size, or a part of
one bag whose rows exceed it. -/
def gatherCut (m : TileMem) (x size b0 : Nat) (start : Option Nat) : Cut :=
  let row := gsD x * elBytes (dIn x)
  let fit := max 1 (min (size / max 1 row) (size / 4))
  let k0 := start.getD (bagOffset m x b0)
  let rows (b : Nat) : Nat := bagOffset m x (b + 1) - k0
  if rows b0 > fit then ⟨b0, b0, k0, k0 + fit, true, start.isSome⟩
  else if start.isSome then ⟨b0, b0 + 1, k0, bagOffset m x (b0 + 1), false, true⟩
  else
    let n := (List.range (gatherBags x size b0)).foldl (fun n i => if n = i ∧ rows (b0 + i) ≤ fit then i + 1 else n) 0
    ⟨b0, b0 + n, k0, bagOffset m x (b0 + n), false, false⟩

/-- One element of a bag's sum or maximum over its indices k0 to k1, going on from a value. -/
def bagFold (m : TileMem) (x k0 k1 el : Nat) (from_ : Option Val) : Option Val :=
  let s (k : Nat) : Strm := ⟨dSrc x 0 + indexAt m x k * gsStride x, dIn x, true, false, 0⟩
  (List.range (k1 - k0)).foldl (fun acc j =>
    let k := k0 + j
    let t := vmul (weightAt m x k).1 (elVal m (s k) (gsD x) el).1
    match acc with
    | none => some (if gsMode x = 2 then t else aAdd x vzero t)
    | some a => some (if gsMode x = 2 then vmax a t else aAdd x a t)) from_

/-- Some row, weight or index of k0 to k1 is poisoned. -/
def bagPoison (m : TileMem) (x k0 k1 : Nat) : Bool :=
  (List.range (k1 - k0)).any (fun j =>
    let k := k0 + j
    (weightAt m x k).2 || tmPoison m (dSrc x 1 + 4 * k) 4 ||
    tmPoison m (dSrc x 0 + indexAt m x k * gsStride x) (gsD x * elBytes (dIn x)))

/-- The finished element of a bag of n indices (R326). -/
def bagEnd (x n : Nat) (v : Option Val) : Val :=
  match v with
  | none => vzero
  | some a => if gsMode x = 1 then rA x (vdiv a (.fin false n 0)) else rA x a

end Sys2Proof.Machine
end

