-- ==== Sys2Proof/Machine/SyncCmd.lean ====
section
/-! DEFINITION. Sync objects from outside the rings (10): host commands, the debug write, expiries, saving and restoring a
context's waits, and the debug view. -/

namespace Sys2Proof.Machine

/-! ### Host commands (R400, R403, R404) -/

/-- A host's write of exactly the command word of a line. -/
def cmdWrite (e : Env) (w : Work) (q : HostReq) (op : Nat) (cmd : BitVec 64) : Work :=
  if bitsOf cmd.toNat 63 56 = op then
    hostIn e w q (.wr .i ⟨BitVec.ofNat 512 (2 ^ 448 * cmd.toNat), false⟩ cmdMask false)
  else w

def execArrive (q : HostReq) (cmd : BitVec 64) (s : State) : Host.Outcome State Fault Refusal :=
  traffic s (fun e w => cmdWrite e w q 0x01 cmd)
def execSignal (q : HostReq) (cmd : BitVec 64) (s : State) : Host.Outcome State Fault Refusal :=
  traffic s (fun e w => cmdWrite e w q 0x02 cmd)
def execBroadcast (q : HostReq) (cmd : BitVec 64) (s : State) : Host.Outcome State Fault Refusal :=
  traffic s (fun e w => cmdWrite e w q 0x03 cmd)
def execDisarm (q : HostReq) (cmd : BitVec 64) (s : State) : Host.Outcome State Fault Refusal :=
  traffic s (fun e w => cmdWrite e w q 0x0F cmd)

/-! ### The debug write (R402): only while a session grants the SYNC_WRITE scope (17 Table 17-10) -/

/-- The object at a line of this device, when the line belongs to a SYNC parcel. -/
def objAt (e : Env) (w : Work) (line : Nat) : Option Obj :=
  match ownerOf e w line with
  | some o => if eKind (cadEntry w o.parcel) = 2 then some ⟨o.parcel, o.off, line⟩ else none
  | none => none

def execSyncDebugWrite (line : Nat) (d : Line) (mask : BitVec 64) (s : State) : Host.Outcome State Fault Refusal :=
  traffic s (fun e w =>
    match objAt e w line with
    | none => if (ownerOf e w line).isNone then raiseCheck e w .sheet ((plotOwner e w line).getD 0) e.board 0x7F none else w
    | some o =>
      let (v?, w) := objRead e w o
      let armed := match v? with
        | some v => oKind v == kBarrier || oKind v == kGate
        | none => mask == BitVec.allOnes 64
      if armed && debugScope e 3 then
        raise e (objWrite e w o (bitsOf (mergeLine (BitVec.ofNat 512 (v?.getD 0)) d mask).toNat 447 0))
          { ty := 0x6002, parcel := o.parcel, dev := e.board, agent := 0x7F, addr := 64 * line }
      else w)

/-! ### Expiry (R417-R419) -/

def execSyncTimeout (die start value ctx : Nat) (s : State) : Host.Outcome State Fault Refusal :=
  traffic s (fun e w =>
    match w.sync.waiters.find? (fun x => expired e x && dieOf w x.line == die && x.start == start && x.value == value && x.ctx == ctx) with
    | none => w
    | some x =>
      match objAt e w x.line with
      | none => w
      | some o => expireWaiter e w o x)

/-! ### Save and restore (R430-R435) -/

def waitCode (s : WaitSt) : Nat := match s with | .held => 0 | .saved => 1 | .abandoned => 2 | .void => 3

/-- A waiter entry of Table 10-9. -/
def waiterWord (x : Waiter) : Nat :=
  (if x.gate then 2 ^ 11 else 0) + 2 ^ 12 * waitCode x.st + 2 ^ 14 * (x.agent % 256) + 2 ^ 22 * x.dev + 2 ^ 36 * x.ctx +
  2 ^ 48 * (x.value % 2 ^ 32) + 2 ^ 80 * (x.start % 2 ^ 48)

/-- A save entry of Table 10-7. -/
def saveEntry (e : Env) (w : Work) (x : Waiter) : Nat :=
  let tag := match getDesc w x.ring x.n with | some d => dTag d.img | none => 0
  let left := match x.expiry with | some f => min (f - e.clk.frame) (2 ^ 32 - 1) | none => 0
  waiterWord { x with st := .saved } + 2 ^ 128 * (x.line % 2 ^ 42) + 2 ^ 176 * x.ring + 2 ^ 192 * left + 2 ^ 224 * tag

def saveBase (w : Work) : Nat := w.reg2 aSyncSaveBase
def saveLen (w : Work) : Nat := w.fld aSyncSaveLen 16 0

/-- The check of SYNC.CTX_CMD (Table 10-11). -/
def syncCmdCheck (e : Env) (w : Work) (op c : Nat) : Nat :=
  if op = 0 ∨ op = 3 ∨ mhas w.xlat.ctxs c = false then 0x0617
  else if (op = 1 ∧ mhas w.sync.saved c = true) ∨ (op = 2 ∧ mhas w.sync.saved c = false) then 0x0618
  else if saveBase w % 4096 ≠ 0 ∨ saveLen w = 0 ∨ saveLen w > 32768 ∨ inP0 e (saveBase w) (32 * saveLen w) = false then 0x0619
  else if w.sync.op.isSome then 0x061A
  else 0

/-- A write of SYNC.CTX_CMD (R431, R437). -/
def syncCmdWrite (e : Env) (w : Work) (v : Nat) : Work :=
  let op := bitsOf v 27 26
  let c := bitsOf v 11 0
  let w := w.setReg aSyncCtxCmd (2 ^ 26 * op + c)
  if !bitAt v 31 then w
  else
    let code := syncCmdCheck e w op c
    if code = 0 then
      { w.setReg aSyncStatus 0 with sync := { w.sync with op := some ⟨c, op == 2, saveBase w, saveLen w⟩ } }
    else w.setFld aSyncStatus 15 0 code

def execSyncCtxSave (v : Word) (s : State) : Host.Outcome State Fault Refusal := traffic s (fun e w => syncCmdWrite e w v.toNat)
def execSyncCtxRestore (v : Word) (s : State) : Host.Outcome State Fault Refusal := traffic s (fun e w => syncCmdWrite e w v.toNat)

/-- SAVE at its boundary (R432). -/
def applySave (e : Env) (w : Work) (o : SaveOp) : Work :=
  let mine (x : Waiter) : Bool := x.ctx == o.ctx && x.dev == e.board && x.st == .held
  let w := (w.sync.waiters.filter (fun x => mine x && expired e x)).foldl (fun w x => match objAt e w x.line with
    | some o => expireWaiter e w o x
    | none => w) w
  let xs := w.sync.waiters.filter mine
  if xs.length > o.len then (w.setFld aSyncStatus 15 0 0x061B).setFld aSyncStatus 17 17 1
  else
    let w := (xs.zipIdx).foldl (fun w x => p0Write e w (o.base + 32 * x.2) 32 (saveEntry e w x.1)) w
    let w := { w with sync := { w.sync with
      waiters := w.sync.waiters.map (fun x => if mine x then { x with st := .saved, expiry := none } else x)
      saved := mset w.sync.saved o.ctx (o.base, xs.length) } }
    (w.setReg aSyncSaveCount xs.length).setFld aSyncStatus 16 16 1

/-- The object's held count and, for a gate ticket not yet served, its abandoned count after a saved wait is gone. -/
def leaveObject (e : Env) (w : Work) (o : Obj) (gate : Bool) (value drop : Nat) : Work :=
  let (v?, w) := objRead e w o
  match v? with
  | none => w
  | some v =>
    let live := gate && oKind v == kGate && !passed (oGen v) value
    let v := if live then putBits v 127 96 (satAdd 32 (oOver v) 1) else v
    let w := if live then abandonTicket w o.line value else w
    objWrite e w o (putBits v 143 128 (oHeld v - drop))

/-- One entry of the save area at its restore (Table 10-8). -/
def restoreEntry (e : Env) (c : Nat) (w : Work) (x : Nat) : Work :=
  let line := bitsOf x 169 128
  let ring := bitsOf x 185 176
  let tag := bitsOf x 255 224
  let left := bitsOf x 223 192
  let value := bitsOf x 79 48
  let gate := bitAt x 11
  let res := if gate then value else 0
  match w.mash.descs.find? (fun d => d.2.ring == ring && dTag d.2.img == tag && dCtx d.2.img == c && d.2.phase == .held) with
  | none => w
  | some (_, d) =>
    let place := w.sync.waiters.find? (fun y => (y.st == .saved || y.st == .void) && y.ctx == c && y.ring == ring && y.n == d.n && y.line == line)
    let cut := match place with | some y => y.st == .void | none => false
    match objAt e w line with
    | none => finishDesc w ring d.n stCancelled res 0
    | some o =>
      let (v?, w) := objRead e w o
      let v := v?.getD 0
      let drop := if place.isSome && !cut then 1 else 0
      let gone (w : Work) : Work := match place with | some y => dropWaiter w y | none => w
      let bad := cut || v?.isNone || oStale v || oKind v != (if gate then kGate else kBarrier)
      let served := if gate then passed (oGen v) value else reached (oGen v) value
      if bad then
        let w := gone w
        finishDesc (if v?.isSome && drop == 1 then objWrite e w o (putBits v 143 128 (oHeld v - 1)) else w) ring d.n stCancelled res 0
      else if served then
        let w := gone w
        finishDesc (if drop = 1 then objWrite e w o (putBits v 143 128 (oHeld v - 1)) else w) ring d.n stOk res 0
      else match place with
        | none =>
          let w := leaveObject e w o gate value 0
          finishDesc (syncRecord e w 0x6001 0 o ⟨e.board, ringOwner w ring, some c, ring, d.n, 0⟩ 1) ring d.n stCancelled res 0
        | some y =>
          { w with sync := { w.sync with waiters := w.sync.waiters.map (fun z =>
              if z = y then { y with st := .held, expiry := if left = 0 then none else some (e.clk.frame + left) } else z) } }

/-- RESTORE at its boundary (R433). -/
def applyRestore (e : Env) (w : Work) (o : SaveOp) : Work :=
  let n := (mgetD w.sync.saved o.ctx (0, 0)).2
  let w := (List.range n).foldl (fun w i => match p0Read e w (o.base + 32 * i) 32 with
    | some x => if bitsOf x 13 12 = 1 then restoreEntry e o.ctx w x else w
    | none => w) w
  { w with sync := { w.sync with saved := mdel w.sync.saved o.ctx } }.setFld aSyncStatus 16 16 1

/-- The command that an accepted go has started. -/
def applySyncOp (e : Env) (w : Work) : Work :=
  match w.sync.op with
  | none => w
  | some o =>
    let w := { w with sync := { w.sync with op := none } }
    if o.restore then applyRestore e w o else applySave e w o

/-- A saved wait whose ring stops or whose context is disabled: its entry becomes VOID, its placeholder goes, and its
descriptor completes with CANCELLED (R434). -/
def voidSaved (e : Env) (w : Work) (x : Waiter) : Work :=
  let (base, n) := mgetD w.sync.saved x.ctx (0, 0)
  let w := match (List.range n).find? (fun i => match p0Read e w (base + 32 * i) 32 with
      | some y => bitsOf y 13 12 == 1 && bitsOf y 185 176 == x.ring && bitsOf y 169 128 == x.line && bitsOf y 79 48 == x.value
      | none => false) with
    | some i => match p0Read e w (base + 32 * i) 32 with
      | some y => p0Write e w (base + 32 * i) 32 (putBits y 13 12 3)
      | none => w
    | none => w
  let w := match objAt e w x.line with
    | some o => removeWaiter e w x o.parcel o.off none
    | none => dropWaiter w x
  finishDesc w x.ring x.n stCancelled (if x.gate then x.value else 0) 0

/-- A held or saved sync descriptor is cancelled (R309, R423, R434): its waiter is removed. -/
def cancelHeld (e : Env) (w : Work) (ring n : Nat) : Work :=
  match w.sync.waiters.find? (fun x => x.dev == e.board && x.ring == ring && x.n == n) with
  | some x =>
    if x.st = .saved ∨ x.st = .void then voidSaved e w x
    else match objAt e w x.line with
      | some o => removeWaiter e w x o.parcel o.off (some stCancelled)
      | none => finishDesc (dropWaiter w x) ring n stCancelled 0 0
  | none => finishDesc w ring n stCancelled 0 0

/-! ### The debug view (R436, R437) -/

/-- A write as agent 0x7F to a line of a FIRMWARE parcel. -/
def fwWriteLine (e : Env) (w : Work) (line tag v : Nat) (mask : BitVec 64) (poison : Bool) : Work :=
  fwAccess e w (.mashWr ⟨BitVec.ofNat 512 v, poison⟩ mask (mask == BitVec.allOnes 64)) tag line

/-- Bytes from a 64 B aligned DPA, the last line as a partial write where they end within it; the first line may carry poison. -/
def fwWriteBytes (e : Env) (w : Work) (dpa v bytes : Nat) (poison : Bool) : Work :=
  (List.range ((bytes + 63) / 64)).foldl (fun w i =>
    fwWriteLine e w (dpa / 64 + i) i (bitsOf v (512 * i + 511) (512 * i)) (BitVec.ofNat 64 (2 ^ min 64 (bytes - 64 * i) - 1)) (poison && i == 0)) w

def viewObj (w : Work) (d : Nat) : Nat := bitsOf (w.reg2 (aSyncDieViewObj d)) 41 0
def viewBuf (w : Work) (d : Nat) : Nat := w.reg2 (aSyncDieViewBuf d)

/-- Put a waiter in its place by arrival. -/
def placeWaiter (l : List Waiter) (x : Waiter) : List Waiter :=
  l.takeWhile (fun y => decide (y.seq ≤ x.seq)) ++ x :: l.dropWhile (fun y => decide (y.seq ≤ x.seq))

/-- Waiters of an object in arrival order, those abandoned in this frame included. -/
def viewWaiters (w : Work) (line : Nat) : List Waiter :=
  ((w.sync.recent ++ w.sync.waiters).filter (fun x => x.line == line && x.st != .void)).foldl placeWaiter []

/-- The check of a view (Table 10-11). -/
def viewCheck (e : Env) (w : Work) (d n : Nat) : Nat :=
  if n = 0 ∨ n > 16384 ∨ viewBuf w d % 64 ≠ 0 ∨ inFirmware e w (viewBuf w d) (64 + 16 * n) = false then 0x061C
  else if dieOf w (viewObj w d) ≠ d ∨ (objAt e w (viewObj w d)).isNone = true then 0x061D
  else 0

/-- A write of SYNC[d].VIEW_CTL. -/
def viewWrite (e : Env) (w : Work) (d v : Nat) : Work :=
  let n := bitsOf v 15 0
  let w := w.setReg (aSyncDieViewCtl d) n
  if !bitAt v 31 then w
  else
    let code := viewCheck e w d n
    let w := w.setReg (aSyncDieViewStatus d) code
    if code ≠ 0 then w
    else match objAt e w (viewObj w d) with
      | none => w
      | some o =>
        let (v?, w) := objRead e w o
        let xs := (viewWaiters w o.line).take n
        let head := bitsOf (v?.getD 0) 447 0 + 2 ^ 448 * (e.clk.frame % 2 ^ 48) + 2 ^ 496 * xs.length
        let body := xs.foldr (fun x acc => waiterWord x + 2 ^ 128 * acc) 0
        (fwWriteBytes e w (viewBuf w d) (head + 2 ^ 512 * body) (64 + 16 * xs.length) v?.isNone).setFld (aSyncDieViewStatus d) 16 16 1

def execSyncView (d : Nat) (v : Word) (s : State) : Host.Outcome State Fault Refusal := traffic s (fun e w => viewWrite e w d v.toNat)

end Sys2Proof.Machine
end

