-- ==== Sys2Proof/Machine/Settle.lean ====
section
/-! DEFINITION. From a tile's last access to its descriptor's end (08 R306, R317-R318, R333, R341-R345): tiles settle in order,
and a descriptor ends with them. -/

namespace Sys2Proof.Machine

/-! ### Rings (08 R298-R303) -/

def getRing (w : Work) (r : Nat) : Option Ring := mget w.mash.rings r
def putRing (w : Work) (r : Nat) (x : Ring) : Work := { w with mash := { w.mash with rings := mset w.mash.rings r x } }
def delRing (w : Work) (r : Nat) : Work := { w with mash := { w.mash with rings := mdel w.mash.rings r } }
def ringState (w : Work) (r : Nat) : Nat := w.fld (aRingStatus r) 18 16
def setRingState (w : Work) (r st : Nat) : Work := w.setFld (aRingStatus r) 18 16 st
def ringEntries (w : Work) (r : Nat) : Nat := 2 ^ w.fld (aRingCtl r) 12 8
/-- Descriptors of a ring whose records are not yet written. -/
def ringDescs (w : Work) (r : Nat) : List Desc := (w.mash.descs.map (·.2)).filter (fun d => d.ring == r)

/-- Tile size of a descriptor (Table 8-4, R340). -/
def sizeOf (w : Work) (d : Desc) : Nat := tileBytes (if dTile d.img = 0 then w.fld (aRingCtl d.ring) 27 25 else dTile d.img)

/-- The account of a descriptor's own work (16 R620). -/
def acctOf (d : Desc) : Nat := acctDesc (dCtx d.img) d.ring d.n

/-! ### Accesses of a tile -/

def rdRef (t : Tile) (k : Nat) : TileRef := ⟨t.ring, t.n, t.idx, k⟩
def wrRef (t : Tile) (k : Nat) : TileRef := ⟨t.ring, t.n, t.idx, 2 ^ 20 + k⟩

/-- Position of the compare-and-swap of COW_PAGE; the count's follows it. -/
def posSwap : Nat := 2 ^ 21

/-- Where a CVA of the tile stands: parcel, generation, offset. -/
def tilePlace (t : Tile) (cva : Nat) : Option (Nat × Nat × Nat) :=
  match t.pages.find? (fun p => p.page == cva / 4096) with
  | some p => p.place.map (fun q => (q.1, q.2.1, q.2.2 + cva % 4096))
  | none => none

/-- The agent of Tun t (01 Table 1-6). -/
def tunAgent (t : Nat) : Nat := 0x50 + t

/-- Issue one access of a tile, at its CVA. -/
def tileSend (e : Env) (w : Work) (t : Tile) (d : Desc) (pos cva : Nat) (op : HomeOp) : Work :=
  match tilePlace t cva with
  | none => w
  | some (p, g, o) =>
    tunAccess e w { op := op, dev := e.board, agent := tunAgent t.tun, tag := 0, frame := t.xframe, parcel := p, gen := g, off := o,
                    line := 0, tile := some ⟨t.ring, t.n, t.idx, pos⟩, acct := acctOf d, host := ctxHost w (dCtx d.img) }

def stagedAt (w : Work) (x : TileRef) : Option Payload := (w.home.staged.find? (fun s => s.1 == x)).map (·.2)

/-- A CVA of the tile lies in a WINDOW or SYNC parcel. -/
def inUnit (w : Work) (t : Tile) (cva : Nat) : Bool :=
  match tilePlace t cva with
  | some (p, _, _) => eKind (cadEntry w p) == 1 || eKind (cadEntry w p) == 2
  | none => false

/-- Every write of the tile has been answered by its home. -/
def tileSettled (w : Work) (t : Tile) : Bool :=
  t.st == .sent && (List.range t.writes.length).all (fun k => w.home.acked.contains (wrRef t k) || (stagedAt w (wrRef t k)).isSome)

/-- A plain write of the tile to a WINDOW or SYNC parcel has been refused (R350, 10 R400). -/
def unitRefused (w : Work) (t : Tile) : Bool :=
  (t.writes.zipIdx).any (fun x => (stagedAt w (wrRef t x.2)).isSome && inUnit w t (64 * x.1.line + x.1.byte) &&
    (match x.1.op with | .mashRmw _ => false | _ => true))

/-- A write that failed otherwise, or an addend that met a poisoned row (15 Table 15-5). -/
def writePoison (w : Work) (t : Tile) : Bool :=
  (t.writes.zipIdx).any (fun x => match stagedAt w (wrRef t x.2) with | some p => p.poison | none => false)

/-! ### Ends -/

/-- A descriptor ends at the start of tile `idx`: later tiles are discarded, earlier ones go on (R318, R342). -/
def endDesc (w : Work) (ring n idx status : Nat) : Work :=
  let w := dropFrom w ring n idx
  match getDesc w ring n with
  | none => w
  | some d =>
    match d.stop with
    | some (i, _) => if i ≤ idx then putDesc w { d with phase := .running } else putDesc w { d with phase := .running, stop := some (idx, status) }
    | none => putDesc w { d with phase := .running, stop := some (idx, status) }

/-- The first tile that has not been translated, or the next to be issued. -/
def restIdx (w : Work) (d : Desc) : Nat :=
  ((tilesOf w d.ring d.n).filter (fun t => t.st == .sentOut || t.st == .stale || t.st == .arrived || t.st == .walking)).foldl
    (fun m t => min m t.idx) d.issued

/-- The descriptor is done: its tiles are gone. -/
def closeDesc (w : Work) (d : Desc) (status result bytes : Nat) : Work :=
  finishDesc ((tilesOf w d.ring d.n).foldl dropTile w) d.ring d.n status result bytes

/-- Status of a descriptor whose tiles have all run (R279, R345). -/
def endStatus (d : Desc) : Nat := if d.poisoned then stPoisoned else if d.arith then stArith else stOk

/-! ### COW_PAGE's swap (R333) -/

def cowStep (e : Env) (w : Work) (d : Desc) : Option Work :=
  let x := d.img
  let full := prefixBytes d (sizeOf w d) d.completed
  match getTile w d.ring d.n (d.completed - 1) with
  | none => some (closeDesc w d (endStatus d) 0 full)
  | some t =>
    let at_ (k : Nat) : TileRef := rdRef t (posSwap + k)
    if d.cow = 0 then
      some (tileSend e (putDesc w { d with cow := 1 }) t d posSwap (dSrc x 1) (.mashRmw (.cas 8 (dArea x 0 8) (dArea x 8 8))))
    else if d.cow = 1 then
      match stagedAt w (at_ 0) with
      | none => none
      | some p =>
        if p.poison then
          some (closeDesc w d (if inUnit w t (dSrc x 1) then stPermission else stPoisoned) 0 full)
        else if p.data.toNat = dArea x 0 8 then
          (if dSrc x 2 = 0 then some (closeDesc w d (endStatus d) 1 full)
           else some (tileSend e (putDesc w { d with cow := 2 }) t d (posSwap + 1) (dSrc x 2) (.mashRmw (.fetchAdd 4 (2 ^ 32 - 1)))))
        else some (closeDesc w d (endStatus d) 0 full)
    else
      match stagedAt w (at_ 1) with
      | none => none
      | some p => some (closeDesc w d (if p.poison then stPoisoned else endStatus d) 1 full)

/-! ### Progress -/

/-- The tile at the front has settled: its blocks go, and a Tun that no longer serves lets its descriptor go on (07 R294). -/
def settleTile (w : Work) (d : Desc) (t : Tile) : Work :=
  if unitRefused w t then endDesc w d.ring d.n t.idx stPermission
  else
    let d := { d with poisoned := d.poisoned || writePoison w t, completed := d.completed + 1 }
    let w := putDesc w d
    if dOp d.img = opCow ∧ noTile d (sizeOf w d) d.completed = true then w
    else
      let w := dropTile w t
      match d.tun with
      | some u => if (tilesOf w d.ring d.n).isEmpty && tunRole w u != roleServe && !noTile d (sizeOf w d) d.completed then moveDesc w d u else w
      | none => w

/-- One step of a descriptor that runs on a Tun; none where it waits. -/
def stepDesc (e : Env) (w : Work) (d : Desc) : Option Work :=
  if !onTun (dOp d.img) || !(d.phase == .running || d.phase == .faulted) then none
  else
    match (tilesOf w d.ring d.n).find? (fun t => t.idx == d.completed && tileSettled w t) with
    | some t => some (settleTile w d t)
    | none =>
      if d.phase = .faulted then none
      else if noTile d (sizeOf w d) d.completed = true ∧ d.issued = d.completed then
        (if dOp d.img = opCow then cowStep e w d
         else some (closeDesc w d (endStatus d) 0 (prefixBytes d (sizeOf w d) d.completed)))
      else match d.stop with
        | some (i, st) => if i ≤ d.completed then some (closeDesc w d st 0 (prefixBytes d (sizeOf w d) d.completed)) else none
        | none => none

/-- An access of the descriptor was answered by a block's isolation wrapper: it ends with its prefix (18 R679). -/
def takeCancelled (w : Work) (ring n : Nat) : Work :=
  match w.home.cancelled.find? (fun x => x.ring == ring && x.n == n) with
  | none => w
  | some x =>
    endDesc { w with home := { w.home with cancelled := w.home.cancelled.filter (fun y => !(y.ring == ring && y.n == n)) } }
      ring n x.idx stCancelled

/-- A descriptor goes on as far as what its homes have answered lets it. -/
def settleDesc (e : Env) (w : Work) (ring n fuel : Nat) : Work :=
  match fuel with
  | 0 => w
  | k + 1 =>
    match getDesc w ring n with
    | none => w
    | some d =>
      if w.home.cancelled.any (fun x => x.ring == ring && x.n == n) then settleDesc e (takeCancelled w ring n) ring n k
      else match stepDesc e w d with
        | none => w
        | some w => settleDesc e w ring n k

/-- Steps that one event lets a descriptor take at most: 8 tiles, COW_PAGE's two and its end. -/
def settleFuel : Nat := 16

/-- Cancel a descriptor (R309, R363): at once where it has not started or waits, at its next tile boundary where it runs. -/
def cancelDesc (e : Env) (w : Work) (d : Desc) : Work :=
  match d.phase with
  | .fetched => closeDesc w d stCancelled 0 0
  | .schedHeld => closeDesc w d stCancelled 0 0
  | .held => cancelHeld e w d.ring d.n
  | .done => w
  | _ =>
    if onTun (dOp d.img) then settleDesc e (endDesc w d.ring d.n (restIdx w d) stCancelled) d.ring d.n settleFuel
    else closeDesc w d stCancelled 0 0

end Sys2Proof.Machine
end

