-- ==== Sys2Proof/Machine/Tiles.lean ====
section
/-! DEFINITION. A tile from its issue to its translation (02 R40-R42; 07 R283-R291; 08 R340-R344; 09 R376, R380-R390). -/

namespace Sys2Proof.Machine

/-! ### Issue (02 R40-R42, 07 R284, 08 R341, 11 R441) -/

/-- The partition whose plan a host's work draws on. -/
def planPart (w : Work) (a : Nat) : Nat := if partitioned w then partOf w a else 0

def planOf (w : Work) (a : Nat) : PartPlan := mgetD w.kiln.parts (planPart w a) {}

def putPlan (w : Work) (a : Nat) (p : PartPlan) : Work :=
  { w with kiln := { w.kiln with parts := mset w.kiln.parts (planPart w a) p } }

/-- What is left of the Mash allotment admits the tile. -/
def allotted (w : Work) (a bytes energy : Nat) : Bool :=
  decide (bytes ≤ (planOf w a).mash) && (match (planOf w a).mashE with | some x => decide (energy ≤ x) | none => true)

/-- Lines of host `a` counted in this frame, those of its Mash work included (R441). -/
def countedLines (w : Work) (a : Nat) : Nat := mgetD w.qos.counted a 0 + mgetD w.qos.mashLines a 0

def underCeiling (w : Work) (a bytes : Nat) : Bool :=
  hostMax w a == 0xFFFFFF || decide (countedLines w a + (bytes + 63) / 64 ≤ hostMax w a)

/-- Tiles of a Tun. -/
def tunTiles (w : Work) (u : Nat) : List Tile := w.mash.tiles.filter (fun t => t.tun == u && t.blocks != 0)

/-- The tile occupies a core: until its results are held. -/
def onCore (t : Tile) : Bool := !(t.st == .passed || t.st == .sent)

def blocksUsed (w : Work) (u : Nat) : Nat := (tunTiles w u).foldl (fun n t => n + t.blocks) 0

/-- The time fits (R40), or the tile is oversized and first on its Tun at the boundary itself (R41). A duration of exactly P never
fits: R40 asks for completion before the next boundary, and R41 takes only longer ones (log 151). -/
def timeFits (e : Env) (w : Work) (u t dur : Nat) : Bool :=
  if dur ≤ e.period then decide (t + dur < e.clk.start + e.period)
  else t == e.clk.start && !(tunTiles w u).any (fun x => x.frame == e.clk.frame)

/-- A GATHER_SUM tile is cut where the tile before it ended, and waits for it where that one left its bag unfinished
(08 R327). -/
def gatherReady (w : Work) (d : Desc) : Bool :=
  dOp d.img != opGather || (decide (d.cuts.length = d.issued) && (match d.cuts.getLast? with
    | some c => !c.more || (tilesOf w d.ring d.n).all (fun t => t.st == .sent)
    | none => true))

/-- A tile of the descriptor is still in flight after the first boundary that followed its issue, and the second has not come: the
next tile waits (02 R42). -/
def lateInFlight (e : Env) (w : Work) (d : Desc) : Bool :=
  (tilesOf w d.ring d.n).any (fun t =>
    t.st != .passed && t.st != .sent && t.frame != e.clk.frame && decide (e.clk.frame < t.frame + 2))

/-- The next tile of a descriptor may be issued. -/
def mayIssue (e : Env) (w : Work) (d : Desc) (u : Nat) : Bool :=
  d.phase == .running && d.stop.isNone && tunRole w u == roleServe && !blockHeld w 1 u &&
  decide (((tunTiles w u).filter onCore).length < (activeCores w u).length) &&
  !noTile d (sizeOf w d) d.issued && decide ((tilesOf w d.ring d.n).length < 8) && decide (d.notBefore ≤ e.clk.frame) &&
  !lateInFlight e w d && gatherReady w d && decide (blocksUsed w u + tileBlocks d (sizeOf w d) d.issued ≤ 992)

def tileIssue (e : Env) (w : Work) (ring n t dur bytes energy : Nat) : Work :=
  match getDesc w ring n with
  | none => w
  | some d =>
    match d.tun with
    | none => w
    | some u =>
      let a := ringOwner w ring
      if mayIssue e w d u && decide (e.clk.start ≤ t) && decide (t < e.clk.next) && timeFits e w u t dur && allotted w a bytes energy &&
         underCeiling w a bytes && slotOwned e w (slotAt e t) a then
        let p := planOf w a
        let w := putPlan w a { p with mash := p.mash - bytes, mashE := p.mashE.map (· - energy) }
        let w := { w with qos := { w.qos with mashLines := mmod w.qos.mashLines a 0 (· + (bytes + 63) / 64) } }
        let w := addTile w { ring := ring, n := n, idx := d.issued, tun := u, epoch := tunEpoch w u, frame := e.clk.frame,
                             blocks := tileBlocks d (sizeOf w d) d.issued }
        let w := putDesc w { d with issued := d.issued + 1, lastIssue := some e.clk.frame, deferred := 0 }
        w.emit (.work 0 ring n d.issued u)
      else w

def execTileIssue (ring n t dur bytes energy : Nat) (s : State) : Host.Outcome State Fault Refusal :=
  traffic s (fun e w => tileIssue e w ring n t dur bytes energy)

/-! ### Dispatch and its refusal (07 R289-R291) -/

/-- The lowest active core of a Tun that no tile occupies. -/
def idleCore (w : Work) (u : Nat) : Nat :=
  ((activeCores w u).find? (fun c => !(tunTiles w u).any (fun t => onCore t && t.core == c && t.st != .sentOut && t.st != .stale))).getD 0

def execTileDispatch (ring n idx epoch : Nat) (s : State) : Host.Outcome State Fault Refusal :=
  traffic s (fun _ w =>
    match getTile w ring n idx with
    | none => w
    | some t =>
      if t.st ≠ .sentOut ∨ t.epoch ≠ epoch then w
      else if epoch ≠ tunEpoch w t.tun then
        (countStale (putTile w { t with st := .stale }) t.tun).emit (.work 1 ring n idx t.tun)
      else putTile w { t with st := .arrived, core := idleCore w t.tun })

/-- The sender reads the role table again and sends the tile to a Tun that serves now (R291). -/
def execStaleRole (ring n idx tun : Nat) (s : State) : Host.Outcome State Fault Refusal :=
  traffic s (fun _ w =>
    match getTile w ring n idx, getDesc w ring n with
    | some t, some d =>
      if t.st = .stale ∧ tunDie tun = tunDie t.tun ∧
         ((d.tun = some tun ∧ tunRole w tun = roleServe) ∨ (d.tun ≠ some tun ∧ takesDesc w tun (ringOwner w ring) = true)) then
        (putDesc (putTile w { t with st := .sentOut, tun := tun, epoch := tunEpoch w tun }) { d with tun := some tun }).emit
          (.work 0 ring n idx tun)
      else w
    | _, _ => w)

/-! ### What a phase of a tile touches -/

/-- The staged input of a tile. -/
def tileMem (w : Work) (t : Tile) : TileMem :=
  t.lines.zipIdx.filterMap (fun x => (stagedAt w (rdRef t x.2)).map (fun p => (x.1, p)))

/-- Every read of the tile has come back. -/
def readsIn (w : Work) (t : Tile) : Bool := (List.range t.lines.length).all (fun k => (stagedAt w (rdRef t k)).isSome)

/-- The indices of a tile of GATHER_SUM or SCATTER_ADD. -/
def tileIdxs (w : Work) (d : Desc) (t : Tile) : List Nat :=
  let x := d.img
  let m := tileMem w t
  if dOp x = opGather then
    match d.cuts[t.idx]? with
    | some c => (List.range (c.k1 - c.k0)).map (fun j => indexAt m x (c.k0 + j))
    | none => []
  else if dOp x = opScatter then
    let r := tileRange x (sizeOf w d) t.idx
    (List.range (r.2 - r.1)).map (fun j => indexAt m x (r.1 + j))
  else []

/-- Word 6 of an activation table's header, once it is staged (R338). -/
def actQ (m : TileMem) (x : Nat) : Nat := match actStage x with | some s => tmNat m (selBase x s.sel + 24) 4 | none => 0

/-- The spans of the phase that a tile is in (09 Table 9-6). -/
def spansOf (w : Work) (d : Desc) (t : Tile) : List Span :=
  let x := d.img
  if isSync (dOp x) then [⟨dSrc x 0, 64, true, true, 0⟩]
  else if t.ph = 0 then phase1 d (sizeOf w d) t.idx
  else if t.ph = 1 then
    (if dOp x = opGather then (match d.cuts[t.idx]? with | some c => gatherPhase x c | none => []) else actPhase x (actQ (tileMem w t) x))
  else phase2 d (sizeOf w d) t.idx (tileIdxs w d t)

/-- The pages of the spans join those of the tile, with the permission they need. -/
def wantPages (ps : List TPage) (ss : List Span) : List TPage :=
  (pagesOf ss).foldl (fun l p =>
    match l.find? (fun y => y.page == p.1) with
    | none => l ++ [{ page := p.1, wr := p.2.1, stream := p.2.2 }]
    | some y => if p.2.1 && !y.wr then l.map (fun z => if z.page = p.1 then { z with wr := true, place := none } else z) else l) ps

/-! ### Pages (09 R369-R371, R374, R384) -/

/-- The page of an HPA as stage 2 resolves it, or the refusal. -/
def placePage (e : Env) (w : Work) (c : Nat) (p : TPage) (hpa : Nat) : TPage :=
  match ctxHost w c with
  | none => { p with fault := some 0x5006 }
  | some a =>
    match stage2 e w a (4096 * (hpa / 4096)) p.wr with
    | .ok q g o => { p with place := some (q, g, o) }
    | .noExtent => { p with fault := some 0x5006 }
    | .refused c q o => { p with
        fault := some (if c = .revoked then 0x3001 else if c = .permission then 0x3002 else 0x3003), place := some (q, 0, o) }

def pageDone (p : TPage) : Bool := p.place.isSome || p.fault.isSome

/-- Ask for a demand walk in frame `f`: the one under way, if its result may serve who asks then (09 Table 9-5 step 2), or a new
one. -/
def queueWalk (w : Work) (tun c cva : Nat) (write : Bool) (f : Nat) : Work :=
  let k : Walk := { tun := tun, ctx := c, cva := 4096 * (cva / 4096), write := write, born := f }
  if w.xlat.walks.any (fun x => sameWalk x k && x.stale.isNone) then w else keepWalk w k

/-- Translate one page from the caches, or queue its walk. -/
def tryPage (e : Env) (w : Work) (tun c : Nat) (p : TPage) : TPage × Work :=
  if pageDone p then (p, w)
  else match lookup w tun c (4096 * p.page) p.wr with
    | (some hpa, w) => (placePage e w c p hpa, w)
    | (none, w) => (p, queueWalk w tun c (4096 * p.page) p.wr e.clk.frame)

/-! ### Faults (09 R386-R390, Table 9-7) -/

/-- Kinds of fault that hold a descriptor under fault_mode 0. -/
def waits (ty : Nat) : Bool := ty == 0x5001 || ty == 0x5002 || ty == 0x5003 || ty == 0x5004

/-- The status that a fault completes a descriptor with. -/
def faultStatus (ty : Nat) : Nat :=
  if ty = 0x3001 then stRevokedParcel else if ty = 0x3002 then stPermission else stTranslation

/-- The records of a tile's faults: one for each run of consecutive pages of one kind in one stream, MIGRATION one per page. -/
def faultRecs (e : Env) (w : Work) (t : Tile) (c mode : Nat) (ps : List TPage) : List FaultRec :=
  ps.foldl (fun l p =>
    match p.fault with
    | none => l
    | some ty =>
      let (parcel, off) := match p.place with | some q => (q.1, q.2.2) | none => (0, 0)
      if ty < 0x4000 then
        l ++ [{ ty := ty, sev := if ty = 0x3003 then 1 else 0, parcel := parcel, ctx := some c, dev := e.board, agent := tunAgent t.tun,
                coal := ty != 0x3003, req := true, host := ctxHost w c }] ++
          (match ty == 0x3003, tableLost e w parcel off with | true, some a => [poisonRec e parcel a] | _, _ => [])
      else
        let r : FaultRec := {
          ty := ty, sev := if waits ty ∧ mode = 1 then 0 else 1, ctx := some c, dev := e.board, agent := tunAgent t.tun,
          addrCva := true, addr := 4096 * p.page, unit := p.stream, req := true, host := ctxHost w c }
        match l.getLast? with
        | some y =>
          if y.ty = ty ∧ ty ≠ 0x5004 ∧ y.unit = p.stream ∧ y.addr + 4096 * y.count = 4096 * p.page then l.dropLast ++ [{ y with count := y.count + 1 }]
          else l ++ [r]
        | none => l ++ [r]) []

/-- Raise the records in order; false where one of them finds no place (R390, 15 R595). -/
def raiseAll (e : Env) (w : Work) (rs : List FaultRec) : Bool × Work :=
  rs.foldl (fun a r =>
    if !a.1 then a
    else if r.req && noRoom a.2 r then (false, a.2)
    else (true, raise e a.2 { r with unit := 0 })) (true, w)

/-- The tile waits, from its start, and later ones are discarded (R386, R389). -/
def holdTile (e : Env) (w : Work) (d : Desc) (t : Tile) : Work :=
  let w := dropFrom w d.ring d.n (t.idx + 1)
  let w := dropStaged w d.ring d.n t.idx
  let w := putTile w { t with st := .arrived, ph := 0, pages := [], lines := [] }
  match getDesc w d.ring d.n with
  | some d => putDesc w { d with phase := .faulted, since := e.clk.frame, cuts := d.cuts.take t.idx }
  | none => w

/-- A sync descriptor and one that runs on a Tun end in the same way at the start of a tile. -/
def endAt (e : Env) (w : Work) (d : Desc) (idx status : Nat) : Work :=
  if onTun (dOp d.img) then settleDesc e (endDesc w d.ring d.n idx status) d.ring d.n settleFuel
  else closeDesc w d status 0 0

def faultTile (e : Env) (w : Work) (d : Desc) (t : Tile) (entry : BitVec 512) : Work :=
  let mode := xFaultMode entry
  let bad := t.pages.filterMap (·.fault)
  let (room, w) := raiseAll e w (faultRecs e w t (dCtx d.img) mode t.pages)
  if !room then endAt e w d t.idx stBackpressure
  else match bad.find? (fun ty => mode == 1 || !waits ty) with
    | some ty => endAt e w d t.idx (faultStatus ty)
    | none => holdTile e w d t

/-! ### Prefetch (R380, R382) -/

/-- Spans of a later tile whose addresses follow from the descriptor alone. -/
def aheadSpans (d : Desc) (size idx i : Nat) : List Span :=
  let x := d.img
  if dOp x = opGather then (if i = idx + 1 ∧ d.cuts.length = i then phase1 d size i else [])
  else if dOp x = opReduce ∧ redTable x = true then
    let r := tileRange x size i
    strmSpans ⟨dDst x, dOut x, redAccDst x, true, 0⟩ (dCount x) r.1 r.2 0
  else phase1 d size i ++ phase2 d size i []

def prefetch (w : Work) (d : Desc) (t : Tile) (p : Nat) : Work :=
  let size := sizeOf w d
  let c := dCtx d.img
  (List.range p).foldl (fun w i =>
    let j := t.idx + 1 + i
    if noTile d size j then w
    else (pagesOf (aheadSpans d size t.idx j)).foldl (fun w q =>
      if (leafIn w t.tun c (4096 * q.1)).isSome || w.xlat.pre.contains (t.tun, c, q.1) then w
      else { w with xlat := { w.xlat with pre := w.xlat.pre ++ [(t.tun, c, q.1)] } }) w) w

/-! ### The end of a phase's translation -/

/-- SCATTER_ADD whose table lies in a WINDOW or SYNC parcel (08 R329). -/
def scatterUnit (w : Work) (d : Desc) (t : Tile) : Bool :=
  dOp d.img == opScatter && t.pages.any (fun p => p.wr && inUnit w t (4096 * p.page))

/-- Issue the reads of the phase. -/
def issueReads (e : Env) (w : Work) (d : Desc) (t : Tile) : Work :=
  let new := if isSync (dOp d.img) then [] else (linesOf (spansOf w d t)).filter (fun l => !t.lines.contains l)
  let t' := { t with st := .reading, xframe := e.clk.frame, lines := t.lines ++ new }
  let w := putTile w t'
  (new.zipIdx).foldl (fun w x => tileSend e w t' d (t.lines.length + x.2) (64 * x.1) .mashRd) w

/-- All pages of the phase have been translated or have faulted. -/
def concludeTile (e : Env) (w : Work) (d : Desc) (t : Tile) (entry : BitVec 512) : Work :=
  if t.pages.any (fun p => p.fault.isSome) then faultTile e w d t entry
  else if t.ph = 2 ∧ scatterUnit w d t = true then endAt e w d t.idx stPermission
  else
    let w := issueReads e w d t
    if t.ph = 2 ∧ isSync (dOp d.img) = false then prefetch w d t (xPrefetch entry) else w

/-- Translate a phase as far as the caches and the walks that have ended let it. -/
def translatePhase (e : Env) (w : Work) (d : Desc) (t : Tile) : Work :=
  let c := dCtx d.img
  match getCtx w c with
  | none => endAt e w d t.idx stPermission
  | some x =>
    if !x.on then endAt e w d t.idx stPermission
    else
      let (ps, w) := (wantPages t.pages (spansOf w d t)).foldl (fun (a : List TPage × Work) p =>
        let (p, w) := tryPage e a.2 t.tun c p
        (a.1 ++ [p], w)) ([], w)
      let t := { t with st := .walking, wframe := if t.st = .walking then t.wframe else e.clk.frame, pages := ps }
      let w := putTile w t
      if ps.all pageDone then concludeTile e w d t x.entry else w

/-! ### From phase to phase (08 R325-R331, R338, R731) -/

/-- A source of a REDUCE table; from a poisoned line a free one (log 9). -/
def tableAt (m : TileMem) (x j : Nat) : Nat :=
  let a := dSrc x 0 + 8 * j
  if tmPoison m a 8 then Config.unstated 7 a % 2 ^ 64 else tmNat m a 8

/-- The words of an activation table whose header and points are staged; word 7 tells whether it was poisoned. -/
def actWords (m : TileMem) (x : Nat) : List Nat :=
  match actStage x with
  | none => []
  | some s =>
    let a := selBase x s.sel
    let q := tmNat m (a + 24) 4
    let n := if 4 ≤ q ∧ q ≤ 9 then 8 + 2 ^ q + 1 else 8
    (List.range n).map (fun i => if i = 7 then (if tmPoison m a (4 * n) then 1 else 0) else tmNat m (a + 4 * i) 4)

/-- The activation table of a descriptor is loaded into its slot (R339). -/
def loadAct (w : Work) (d : Desc) (ws : List Nat) : Work :=
  let w := putDesc w { d with act := ws }
  match d.tun, d.slot with
  | some u, some k =>
    match mget (w.tun u).tables k with
    | some (c, a, _) => w.setTun u { w.tun u with tables := mset (w.tun u).tables k (c, a, ws) }
    | none => w
  | _, _ => w

/-- The phase after the one whose reads have come back: the descriptor and tile as they go on, or an end (status). -/
def nextPhase (w : Work) (d : Desc) (t : Tile) : (Nat × Nat) ⊕ (Work × Nat) :=
  let x := d.img
  let m := tileMem w t
  let idxs := tileIdxs w d t
  if dOp x = opGather ∧ t.ph = 0 then
    let (b0, start) := nextBag d t.idx
    let c := gatherCut m x (sizeOf w d) b0 start
    if decreasing m x b0 (max (b0 + 1) c.b1) then .inl (t.idx, stInvalid)
    else .inr (putDesc w { d with cuts := d.cuts.take t.idx ++ [c] }, 1)
  else if dOp x = opGather ∨ dOp x = opScatter then
    (if idxs.any (fun i => decide (gsRows x ≤ i)) then .inl (t.idx, stInvalid) else .inr (w, 2))
  else if dOp x = opReduce then
    let tab := (List.range (redN x)).map (tableAt m x)
    if tableValid x tab then .inr (putDesc w { d with tab := tab, poisoned := d.poisoned || tmPoison m (dSrc x 0) (8 * redN x) }, 2)
    else .inl (0, stInvalid)
  else
    let q := actQ m x
    if t.ph = 0 ∧ 4 ≤ q ∧ q ≤ 9 then .inr (w, 1) else .inr (loadAct w d (actWords m x), 2)

/-- What tile 0 of the descriptor reads for every tile has been read. -/
def tableKnown (d : Desc) : Bool :=
  (!(dOp d.img == opReduce && redTable d.img) || d.tab != []) && (!(dOp d.img == opRecipe && (actStage d.img).isSome) || d.act != [])

/-- A tile has been translated in whole. -/
def translated (t : Tile) : Bool := t.st == .computed || t.st == .passed || t.st == .sent || (t.st == .reading && t.ph == 2)

/-- Tiles of one descriptor are translated in order (R386). -/
def inOrder (w : Work) (d : Desc) (idx : Nat) : Bool :=
  (tilesOf w d.ring d.n).all (fun t => decide (idx ≤ t.idx) || translated t) && (idx == 0 || tableKnown d)

def tileTranslate (e : Env) (w : Work) (ring n idx : Nat) : Work :=
  match getTile w ring n idx, getDesc w ring n with
  | some t, some d =>
    if d.phase ≠ .running ∨ inOrder w d idx = false ∨ blockHeld w 1 t.tun = true then w
    else if t.st = .arrived then
      translatePhase e w d { t with ph := if isSync (dOp d.img) ∨ phase1 d (sizeOf w d) idx = [] then 2 else 0, pages := [], lines := [] }
    else if t.st = .walking then translatePhase e w d t
    else if t.st = .reading ∧ t.ph < 2 ∧ readsIn w t = true then
      match nextPhase w d t with
      | .inl (i, st) => endAt e w d i st
      | .inr (w, ph) =>
        match getDesc w ring n with
        | some d => translatePhase e w d { t with ph := ph }
        | none => w
    else w
  | _, _ => w

def execTileTranslate (ring n idx : Nat) (s : State) : Host.Outcome State Fault Refusal :=
  traffic s (fun e w => tileTranslate e w ring n idx)

/-! ### Walks (R376, R381, R383) -/

/-- A walk's result reaches the tiles that wait for it; that of a walk that an invalidation has overtaken, only those that had
asked before (Table 9-5 step 2). -/
def deliver (e : Env) (w : Work) (k : Walk) (f : TPage → TPage) (entry : BitVec 512) : Work :=
  let ts := w.mash.tiles.filter (fun t => t.tun == k.tun && t.st == .walking && k.stale.all (fun p => decide (t.wframe < p)) && (match getDesc w t.ring t.n with
    | some d => dCtx d.img == k.ctx
    | none => false) && t.pages.any (fun p => p.page == k.cva / 4096 && p.wr == k.write && !pageDone p))
  ts.foldl (fun w t =>
    match getTile w t.ring t.n t.idx, getDesc w t.ring t.n with
    | some t, some d =>
      let t := { t with pages := t.pages.map (fun p => if p.page = k.cva / 4096 ∧ p.wr = k.write ∧ pageDone p = false then f p else p) }
      let w := putTile w t
      if t.pages.all pageDone then concludeTile e w d t entry else w
    | _, _ => w) w

/-- Walkers in use by the partition of a context, in PARTITIONED mode, or by the die. -/
def walkersBusy (w : Work) (tun c : Nat) : Nat :=
  (w.xlat.walks.filter (fun k => tunDie k.tun == tunDie tun && (k.reading || k.level != 0) &&
    (!partitioned w || (ctxHost w k.ctx).map (partOf w) == (ctxHost w c).map (partOf w)))).length

/-- A walk goes on as far as the entries that have come let it. -/
def runWalk (e : Env) (w : Work) (k : Walk) : Work :=
  match getCtx w k.ctx with
  | none => dropWalk w k
  | some x =>
    match walkRun e w k x.entry 16 with
    | (k', .waiting, w) => keepWalk w k'
    | (k', .leaf l a ok, w) =>
      let w := fillCaches (dropWalk w k) k' l a ok
      if k.pre then w else deliver e w k (fun p => placePage e w k.ctx p (a + k.cva % 2 ^ levelSpan l)) x.entry
    | (_, .fault ty, w) => if k.pre then dropWalk w k else deliver e (dropWalk w k) k (fun p => { p with fault := some ty }) x.entry
    | (_, .refused c q o, w) =>
      if k.pre then dropWalk w k
      else deliver e (dropWalk w k) k (fun p => { p with
        fault := some (if c = .revoked then 0x3001 else if c = .permission then 0x3002 else 0x3003), place := some (q, 0, o) }) x.entry

def execStage1Walk (tun ctx cva : Nat) (write : Bool) (s : State) : Host.Outcome State Fault Refusal :=
  traffic s (fun e w =>
    match w.xlat.walks.find? (fun k => sameWalk k { tun := tun, ctx := ctx, cva := cva, write := write }) with
    | none => w
    | some k =>
      if k.level = 0 ∧ k.reading = false ∧ walkersOf w ≤ walkersBusy w tun ctx then w else runWalk e w k)

def execPrefetchWalk (tun ctx cva : Nat) (s : State) : Host.Outcome State Fault Refusal :=
  traffic s (fun e w =>
    let k : Walk := { tun := tun, ctx := ctx, cva := 4096 * (cva / 4096), write := false, pre := true }
    match w.xlat.walks.find? (fun x => sameWalk x k) with
    | some x => runWalk e w x
    | none =>
      if !w.xlat.pre.contains (tun, ctx, cva / 4096) then w
      else
        let w := { w with xlat := { w.xlat with pre := w.xlat.pre.filter (· != (tun, ctx, cva / 4096)) } }
        if 8 ≤ busyWalks w (tunDie tun) true ∨ walkersOf w ≤ walkersBusy w tun ctx then w
        else runWalk e (keepWalk w k) k)

end Sys2Proof.Machine
end

