-- ==== Sys2Proof/Machine/MashOps.lean ====
section
/-! DEFINITION. The operations of 08 Table 8-6 on one tile, the failed checks of 07 Table 7-6, and the tile's completion. -/

namespace Sys2Proof.Machine

/-- What a tile's run gives: the writes that are known at once, and the partial result for the tiles after it. -/
structure TileOut where
  writes : List TWrite := []
  part : List Nat := []

/-! ### Byte operations (R320, R332, R333) -/

/-- A byte range cut at line boundaries. -/
def pieces (a n fuel : Nat) : List (Nat × Nat) :=
  match fuel with
  | 0 => []
  | k + 1 =>
    if n = 0 then []
    else
      let m := min n (64 - a % 64)
      (a, m) :: pieces (a + m) (n - m) k

def copyItems (m : TileMem) (src dst n : Nat) : List Item :=
  (pieces dst n (n / 64 + 2)).map (fun p => ⟨p.1, p.2, tmNat m (src + (p.1 - dst)) p.2, tmPoison m (src + (p.1 - dst)) p.2⟩)

def copyOut (m : TileMem) (x size idx : Nat) : TileOut :=
  let r := tileRange x size idx
  { writes := itemWrites (copyItems m (dSrc x 0 + r.1) (dDst x + r.1) (r.2 - r.1)) }

/-- The 64-bit pattern over n bytes. -/
def fillVal (pat n : Nat) : Nat := (List.range (n / 8)).foldl (fun v _ => 2 ^ 64 * v + pat) 0

def fillOut (x size idx : Nat) : TileOut :=
  let r := tileRange x size idx
  { writes := itemWrites ((pieces (dDst x + r.1) (r.2 - r.1) ((r.2 - r.1) / 64 + 2)).map (fun p => ⟨p.1, p.2, fillVal (dArea x 0 8) p.2, false⟩)) }

/-! ### Elementwise operations (R321-R323, R330, R331, R336) -/

/-- The elements of a tile through a function of their index, as an output stream's items. -/
def mapOut (x i0 i1 : Nat) (s : Strm) (f : Nat → PVal) : List Item := outItems x s i0 ((List.range (i1 - i0)).map (fun j => f (i0 + j)))

def dstStrm (x : Nat) : Strm := ⟨dDst x, dOut x, false, true, 0⟩

/-- CONVERT, QUANTIZE and DEQUANT of the elements of a tile. -/
def convertOut (m : TileMem) (x size idx : Nat) : TileOut :=
  let r := tileRange x size idx
  { writes := itemWrites (mapOut x r.1 r.2 (dstStrm x) (elVal m ⟨dSrc x 0, dIn x, true, false, 0⟩ (dCount x))) }

def reduceOut (m : TileMem) (x : Nat) (tab : List Nat) (size idx : Nat) : TileOut :=
  let r := tileRange x size idx
  let srcs : List Strm := (redSources x tab).map (fun b => ⟨b, dIn x, true, false, 0⟩)
  let all := (if redAccDst x then [({ dstStrm x with rd := true } : Strm)] else []) ++ srcs
  { writes := itemWrites (mapOut x r.1 r.2 (dstStrm x) (fun i => reduceVals x (all.map (fun s => elVal m s (dCount x) i)))) }

def axpbyOut (m : TileMem) (x size idx : Nat) : TileOut :=
  let r := tileRange x size idx
  let ss := (streamsOf x []).filter (fun s => !s.wr)
  { writes := itemWrites (mapOut x r.1 r.2 (dstStrm x) (fun i => axpbyVal x (ss.map (fun s => elVal m s (dCount x) i)))) }

def optOut (m : TileMem) (x size idx : Nat) : TileOut :=
  let r := tileRange x size idx
  let st (a f : Nat) : Strm := ⟨a, f, true, false, 0⟩
  let adam := dArea x 0 1 == 1
  let got (i : Nat) : PVal × PVal × PVal × PVal :=
    (elVal m (st (dDst x) (dAcc x)) (dCount x) i, elVal m (st (dSrc x 0) (dIn x)) (dCount x) i,
     elVal m (st (dSrc x 1) (dAcc x)) (dCount x) i, if adam then elVal m (st (dSrc x 2) (dAcc x)) (dCount x) i else (vzero, false))
  let res (i : Nat) : (Val × Val × Val) × Bool :=
    let (w, g, mm, v) := got i
    (optVals x w.1 g.1 mm.1 v.1, w.2 || g.2 || mm.2 || v.2)
  let outs := (streamsOf x []).filter (·.wr)
  { writes := itemWrites ((outs.map (fun s => mapOut x r.1 r.2 s (fun i =>
      let v := (res i).1
      ((if s.base = dSrc x 1 then v.2.1 else if s.base = dSrc x 2 ∧ adam = true then v.2.2 else v.1), (res i).2)))).flatten) }

def recipeOut (m : TileMem) (x : Nat) (act : List Nat) (size idx : Nat) : TileOut :=
  let r := tileRange x size idx
  let runs := (List.range (r.2 - r.1)).map (fun j => runRecipe m x (r.1 + j) act (act.getD 7 0 == 1))
  let stores := (stagesOf x).filter (fun s => s.code == 8)
  { writes := itemWrites ((stores.zipIdx.map (fun s =>
      outItems x ⟨selBase x s.1.sel, s.1.fmt, false, true, storeNo x s.1.sel⟩ r.1 (runs.map (fun o =>
        match o[s.2]? with
        | some y => y.2.2
        | none => (vzero, false))))).flatten) }

/-! ### Gathers and scatters (R325-R329) -/

/-- GATHER_SUM on one tile: whole bags, or a part of one bag carried on (R327). The carried row ends with its poison. -/
def gatherOut (m : TileMem) (x : Nat) (carry : List Nat) (c : Cut) : TileOut :=
  let d := gsD x
  let from_ (e : Nat) : Option Val := if c.cont then some (natToVal (carry.getD e 0)) else none
  let old := c.cont && carry.getD d 0 == 1
  if c.more then
    { part := (List.range d).map (fun e => match bagFold m x c.k0 c.k1 e (from_ e) with | some v => valToNat v | none => 0) ++
        [if old || bagPoison m x c.k0 c.k1 then 1 else 0] }
  else
    let bag (b : Nat) : List PVal :=
      let k0 := if b = c.b0 then c.k0 else bagOffset m x b
      let k1 := bagOffset m x (b + 1)
      let n := k1 - bagOffset m x b
      let p := bagPoison m x k0 k1 || (c.cont && b == c.b0 && old)
      (List.range d).map (fun e => (bagEnd x n (bagFold m x k0 k1 e (if b = c.b0 then from_ e else none)), p))
    { writes := itemWrites (outItems x (dstStrm x) (c.b0 * d) ((List.range (c.b1 - c.b0)).map (fun i => bag (c.b0 + i))).flatten) }

/-- The addends of a SCATTER_ADD tile, one for each element; a poisoned one poisons its element's line (R329, R345). -/
def scatterOut (m : TileMem) (x size idx : Nat) : TileOut :=
  let r := tileRange x size idx
  let d := gsD x
  let n := elBytes (dOut x)
  { writes := ((List.range (r.2 - r.1)).map (fun j =>
      let k := r.1 + j
      let wk := weightAt m x k
      let row := dDst x + indexAt m x k * gsStride x
      let ip := tmPoison m (dSrc x 1 + 4 * k) 4
      (List.range d).map (fun e =>
        let v := elVal m ⟨dSrc x 0, dIn x, true, false, 0⟩ (r.2 * d) (k * d + e)
        let a := row + e * n
        ({ line := a / 64, byte := a % 64,
           op := if v.2 || wk.2 || ip then .mashWr ⟨0, true⟩ (BitVec.ofNat 64 ((2 ^ n - 1) * 2 ^ (a % 64))) false
             else .mashRmw (.addFmt (dOut x) (valToNat (vmul wk.1 v.1))) } : TWrite)))).flatten }

/-! ### A run (07 R263-R274) -/

/-- The result of the operation on one tile. -/
def runOp (w : Work) (d : Desc) (t : Tile) (m : TileMem) : TileOut :=
  let x := d.img
  let size := sizeOf w d
  let op := dOp x
  if op = opCopy ∨ op = opCow then copyOut m x size t.idx
  else if op = opFill then fillOut x size t.idx
  else if op = opConvert ∨ op = opQuantize ∨ op = opDequant then convertOut m x size t.idx
  else if op = opReduce then reduceOut m x d.tab size t.idx
  else if op = opAxpby then axpbyOut m x size t.idx
  else if op = opDot then { part := [valToNat (dotPart m x (tileRange x size t.idx).1 (tileRange x size t.idx).2)] }
  else if op = opGather then (match d.cuts[t.idx]? with | some c => gatherOut m x d.carry c | none => {})
  else if op = opScatter then scatterOut m x size t.idx
  else if op = opStep then optOut m x size t.idx
  else if op = opRecipe then recipeOut m x d.act size t.idx
  else {}

/-- The energy class of a format (16 Table 16-1). -/
def cycleClass (f : Nat) : Nat := if f = 0 then 10 else if f = 1 ∨ f = 13 then 11 else if f = 2 ∨ f = 3 then 12 else 13

/-- The slowest class among the formats of an operation (07 R255). -/
def opClass (x : Nat) : Nat :=
  let fs := (streamsOf x []).map (·.fmt)
  (fs ++ (if dOp x = opGather ∨ dOp x = opScatter then [dIn x, dOut x] else []) ++
   (if dOp x = opReduce ∨ dOp x = opAxpby ∨ dOp x = opDot ∨ dOp x = opGather ∨ dOp x = opStep ∨ dOp x = opRecipe then [dAcc x] else [])).foldl
    (fun m f => min m (cycleClass f)) 13

/-- Elements a cycle of a class of formats (07 Table 7-1, R254). -/
def classRate (c : Nat) : Nat := if c = 10 then 8 else if c = 11 then 32 else if c = 12 then 64 else 128

/-- Elements that a core takes in for one tile (log 178): those of each source of a REDUCE, those of the rows of a gather or scatter, the
bytes of an operation without formats. -/
def tileInput (w : Work) (d : Desc) (t : Tile) : Nat :=
  let x := d.img
  let r := tileRange x (sizeOf w d) t.idx
  if dOp x = opGather then (match d.cuts[t.idx]? with | some c => (c.k1 - c.k0) * gsD x | none => 0)
  else if dOp x = opScatter then (r.2 - r.1) * gsD x
  else if dOp x = opReduce then (r.2 - r.1) * (redN x + if redAccDst x then 1 else 0)
  else r.2 - r.1

/-- Core cycles of one run of a tile, at the lowest element rate of its formats (07 R254, R255), are charged to the context (16 R605). -/
def chargeCycles (w : Work) (d : Desc) (t : Tile) : Work :=
  charge w (acctOf d) (opClass d.img) ((tileInput w d t + classRate (opClass d.img) - 1) / classRate (opClass d.img))

/-- POISON_CONSUMED, coalesced per context and frame (15 Table 15-5). -/
def consumed (e : Env) (w : Work) (d : Desc) (t : Tile) : Work :=
  raise e w { ty := 0x4006, ctx := some (dCtx d.img), dev := e.board, agent := tunAgent t.tun, coal := true,
              host := ctxHost w (dCtx d.img) }

/-- A write whose result is lost: it carries poison instead (15 Table 15-2). -/
def poisonedWrite (x : TWrite) : TWrite :=
  match x.op with
  | .mashWr _ m full => { x with op := .mashWr ⟨0, true⟩ m full }
  | .mashRmw (.addFmt f _) => { x with op := .mashWr ⟨0, true⟩ (BitVec.ofNat 64 ((2 ^ elBytes f - 1) * 2 ^ x.byte)) false }
  | _ => x

/-- A tile whose inputs are staged runs on its core, when its descriptor's operation is the one named. -/
def runTile (e : Env) (w : Work) (ring n idx op : Nat) : Work :=
  match getTile w ring n idx, getDesc w ring n with
  | some t, some d =>
    if dOp d.img ≠ op ∨ t.st ≠ .reading ∨ t.ph ≠ 2 ∨ readsIn w t = false ∨ blockHeld w 1 t.tun = true then w
    else
      let m := tileMem w t
      let p := m.any (·.2.poison)
      let o := runOp w d t m
      let ws := if d.tainted then o.writes.map poisonedWrite else o.writes
      let w := chargeCycles (putTile w { t with st := .computed, writes := ws, part := o.part, poison := p }) d t
      let w := putDesc w { d with poisoned := d.poisoned || p || (dOp d.img == opRecipe && d.act.getD 7 0 == 1) }
      if p then consumed e w d t else w
  | _, _ => w

def execCopy (ring n idx : Nat) (s : State) : Host.Outcome State Fault Refusal := traffic s (fun e w => runTile e w ring n idx opCopy)
def execFill (ring n idx : Nat) (s : State) : Host.Outcome State Fault Refusal := traffic s (fun e w => runTile e w ring n idx opFill)
def execConvert (ring n idx : Nat) (s : State) : Host.Outcome State Fault Refusal := traffic s (fun e w => runTile e w ring n idx opConvert)
def execReduce (ring n idx : Nat) (s : State) : Host.Outcome State Fault Refusal := traffic s (fun e w => runTile e w ring n idx opReduce)
def execAxpby (ring n idx : Nat) (s : State) : Host.Outcome State Fault Refusal := traffic s (fun e w => runTile e w ring n idx opAxpby)
def execDot (ring n idx : Nat) (s : State) : Host.Outcome State Fault Refusal := traffic s (fun e w => runTile e w ring n idx opDot)
def execGatherSum (ring n idx : Nat) (s : State) : Host.Outcome State Fault Refusal := traffic s (fun e w => runTile e w ring n idx opGather)
def execScatterAdd (ring n idx : Nat) (s : State) : Host.Outcome State Fault Refusal := traffic s (fun e w => runTile e w ring n idx opScatter)
def execOptStep (ring n idx : Nat) (s : State) : Host.Outcome State Fault Refusal := traffic s (fun e w => runTile e w ring n idx opStep)
def execQuantize (ring n idx : Nat) (s : State) : Host.Outcome State Fault Refusal := traffic s (fun e w => runTile e w ring n idx opQuantize)
def execDequant (ring n idx : Nat) (s : State) : Host.Outcome State Fault Refusal := traffic s (fun e w => runTile e w ring n idx opDequant)
def execChecksum (ring n idx : Nat) (s : State) : Host.Outcome State Fault Refusal := traffic s (fun e w => runTile e w ring n idx opChecksum)
def execCowPage (ring n idx : Nat) (s : State) : Host.Outcome State Fault Refusal := traffic s (fun e w => runTile e w ring n idx opCow)
def execRecipe (ring n idx : Nat) (s : State) : Host.Outcome State Fault Refusal := traffic s (fun e w => runTile e w ring n idx opRecipe)

/-! ### Failed checks (07 Table 7-6, R275-R279) -/

/-- The core of the second run: the spare, or the next active core, or the same one (R276). -/
def rerunCore (w : Work) (u c : Nat) : Nat :=
  if hasSpare w u then 8 else ((activeCores w u).filter (· != c)).headD c

/-- A core on which the third run can take place: another active core, or any active one where no other is left (Table 7-6, R276). -/
def thirdCore (w : Work) (u c c2 third : Nat) : Bool :=
  let cs := (activeCores w u).filter (fun k => k != c && k != c2)
  (if cs.isEmpty then activeCores w u else cs).contains third

/-- Strikes for the cores whose runs failed; a retirement marks the descriptor. -/
def strikeAll (e : Env) (w : Work) (d : Desc) (u : Nat) (cs : List Nat) : Work :=
  let (r, w) := cs.foldl (fun (a : Bool × Work) c =>
    let (r, w) := strike e a.2 u c
    (a.1 || r, w)) (false, w)
  if r then putDesc w { d with arith := true } else w

def arithRec (e : Env) (w : Work) (d : Desc) (t : Tile) (ty sev : Nat) : FaultRec :=
  { ty := ty, sev := sev, ctx := some (dCtx d.img), dev := e.board, agent := tunAgent t.tun, unit := t.tun + 6 * 2 ^ 24,
    specific := t.core, req := sev == 1, host := ctxHost w (dCtx d.img) }

def execArithRetry (ring n idx third : Nat) (rerunOk thirdOk : Bool) (s : State) : Host.Outcome State Fault Refusal :=
  traffic s (fun e w =>
    match getTile w ring n idx, getDesc w ring n with
    | some t, some d =>
      let c2 := rerunCore w t.tun t.core
      if t.st ≠ .computed ∨ (rerunOk = false ∧ thirdCore w t.tun t.core c2 third = false) then w
      else
        let w := chargeCycles w d t
        if rerunOk then raise e (strikeAll e w d t.tun [t.core]) (arithRec e w d t 0x4001 0)
        else
          let w := chargeCycles w d t
          if thirdOk then raise e (strikeAll e w d t.tun ([t.core, c2].eraseDups)) (arithRec e w d t 0x4001 0)
          else
            let r := arithRec e w d t 0x4002 1
            if noRoom w r then endAt e w d idx stBackpressure else endAt e (raise e w r) d idx stArith
    | _, _ => w)

/-! ### Completion (07 R273, 08 R341, R345) -/

/-- What a passed tile adds to its descriptor, and the writes that follow from it: the scalar of DOT or CHECKSUM comes with the last
tile. -/
def joinTile (w : Work) (d : Desc) (t : Tile) : Desc × List TWrite :=
  let x := d.img
  let last := noTile d (sizeOf w d) (t.idx + 1)
  if dOp x = opDot then
    let acc := dotJoin x (natToVal d.acc) (natToVal (t.part.headD 0))
    ({ d with acc := valToNat acc },
     if last then itemWrites [⟨dDst x, elBytes (dAcc x), dotResult x acc, d.poisoned⟩] else t.writes)
  else if dOp x = opChecksum then
    let r := tileRange x (sizeOf w d) t.idx
    let c0 := if t.idx = 0 then crcMask - dArea x 0 8 else d.acc
    let c := crcRun (tileMem w t) c0 (dSrc x 0 + r.1) (r.2 - r.1)
    ({ d with acc := c }, if last then itemWrites [⟨dDst x, 8, crcMask - c, d.poisoned⟩] else t.writes)
  else if dOp x = opGather then ({ d with carry := t.part }, t.writes)
  else (d, t.writes)

/-- Send the writes of passed tiles, in tile order (R341). -/
def sendTiles (e : Env) (w : Work) (ring n fuel : Nat) : Work :=
  match fuel with
  | 0 => w
  | k + 1 =>
    match getDesc w ring n with
    | none => w
    | some d =>
      let ts := (tilesOf w ring n).filter (fun t => t.st != .sent)
      match ts.find? (fun t => ts.all (fun u => decide (t.idx ≤ u.idx))) with
      | none => w
      | some t =>
        if t.st ≠ .passed then w
        else if overtaken e w t then abandonTile w t
        else
          let (d', ws) := joinTile w d t
          let t := { t with st := .sent, writes := ws }
          let w := putTile (putDesc w d') t
          let w := (ws.zipIdx).foldl (fun w x => tileSend e w t d' (2 ^ 20 + x.2) (64 * x.1.line + x.1.byte) x.1.op) w
          sendTiles e w ring n k

/-- Whether a tile that completes at instant `t` is an overrun (02 R42). -/
def overran (e : Env) (x : Tile) (t : Nat) : Bool :=
  decide (x.frame + 1 < e.clk.frame) || (x.frame + 1 == e.clk.frame && decide (e.clk.start < t))

def execTileComplete (ring n idx t : Nat) (s : State) : Host.Outcome State Fault Refusal :=
  traffic s (fun e w =>
    match getTile w ring n idx with
    | none => w
    | some x =>
      if x.st ≠ .computed then settleDesc e w ring n settleFuel
      else
        let w := if overran e x t then countOverrun w x else w
        match getTile w ring n idx with
        | some x => settleDesc e (sendTiles e (putTile w { x with st := .passed }) ring n 8) ring n settleFuel
        | none => w)

end Sys2Proof.Machine
end

