-- ==== Sys2Proof/Machine/Rings.lean ====
section
/-! DEFINITION. Rings and the life of a descriptor (08 R298-R318): set-up, doorbells, fetch, start, completion record; the sync
descriptors and FENCE (08 R308, R334, R335); waits on faults (09 R391-R395); context changes and deferral at a boundary;
accumulation windows' enable (08 R346-R348, R357). -/

namespace Sys2Proof.Machine

/-! ### Stopping (R309, R311) -/

/-- A ring whose stop has ended shows its new state. -/
def checkStopped (w : Work) (r : Nat) : Work :=
  match getRing w r with
  | none => w
  | some x =>
    match x.stopping with
    | none => w
    | some st =>
      if !(ringDescs w r).isEmpty then w
      else if st = 0 then setRingState (delRing w r) r 0
      else setRingState (putRing w r { x with stopping := none }) r st

/-- Stop a ring: nothing is fetched, everything that has not ended is cancelled. -/
def stopRing (e : Env) (w : Work) (r final : Nat) : Work :=
  match getRing w r with
  | none => w
  | some x =>
    let w := dropAccess (putRing w r { x with stopping := some final, fetching := false }) r x.head (2 ^ 32)
    checkStopped ((ringDescs w r).foldl (fun w d => cancelDesc e w d) w) r

/-- A refused fetch or record write: ERROR, with one RING_FAULT record (R311). -/
def errRing (e : Env) (w : Work) (r addr tag : Nat) : Work :=
  if ringState w r = 3 then w
  else
    let w := raise e w { ty := 0x4005, sev := 1, unit := r + 6 * 2 ^ 24, addr := addr, specific := tag, host := some (ringOwner w r) }
    stopRing e (setRingState w r 3) r 3

/-! ### Set-up (R298-R301, Table 8-2) -/

def dqOff (w : Work) (r : Nat) : Nat := w.reg2 (aRingDqOffset r)
def cqOff (w : Work) (r : Nat) : Nat := w.reg2 (aRingCqOffset r)
def dqParcel (w : Work) (r : Nat) : Nat := w.fld (aRingDqParcel r) 15 0
def cqParcel (w : Work) (r : Nat) : Nat := w.fld (aRingCqParcel r) 15 0

def ringCheck (w : Work) (r : Nat) : Nat :=
  let a := ringOwner w r
  let k := w.fld (aRingCtl r) 12 8
  let n := 2 ^ k
  if a ≥ 64 ∨ ldExists w a = false then 0x0605
  else if k < 4 ∨ k > 16 ∨ w.fld (aRingCtl r) 27 25 < 1 ∨ w.fld (aRingCtl r) 27 25 > 5 then 0x0606
  else if ringRegion w a (dqParcel w r) (dqOff w r) (128 * n) false = false ∨ ringRegion w a (cqParcel w r) (cqOff w r) (32 * n) true = false ∨
      (dqParcel w r = cqParcel w r ∧ dqOff w r < cqOff w r + 32 * n ∧ cqOff w r < dqOff w r + 128 * n) then 0x0607
  else if !((List.range 16).any (fun i => tunRole w (16 * ringDie w r + i) == roleServe)) then 0x0608
  else 0

/-- A write of RING[r].CTL. -/
def ringCtlWrite (e : Env) (w : Work) (r v : Nat) : Work :=
  if w.fld (aRingCtl r) 31 31 = 1 then
    (if bitAt v 31 then w else stopRing e (w.setFld (aRingCtl r) 31 31 0) r 0)
  else if (getRing w r).isSome then w
  else
    let w := w.setReg (aRingCtl r) (v &&& 0x0FFFFFFF)
    if !bitAt v 31 then w
    else
      let code := ringCheck w r
      let w := w.setFld (aRingStatus r) 15 0 code
      if code ≠ 0 then w
      else setRingState (putRing (w.setFld (aRingCtl r) 31 31 1) r
        { dqGen := eGen (cadEntry w (dqParcel w r)), cqGen := eGen (cadEntry w (cqParcel w r)) }) r 1

def execRingEnable (r : Nat) (v : Word) (s : State) : Host.Outcome State Fault Refusal :=
  traffic s (fun e w => ringCtlWrite e w r (setBitAt v.toNat 31 true))
def execRingDisable (r : Nat) (v : Word) (s : State) : Host.Outcome State Fault Refusal :=
  traffic s (fun e w => ringCtlWrite e w r (setBitAt v.toNat 31 false))

/-! ### The doorbell page (R302, R303, 09 R391) -/

/-- The agent of a ring scheduler's accesses: the first Tun of its die (log 22). -/
def schedAgent (w : Work) (r : Nat) : Nat := tunAgent (16 * ringDie w r)

/-- A write of the ring's owner to its doorbell page: the host die forwards it in REQ to the Tun die of the ring's scheduler (01 R29). -/
def doorbell (w : Work) (agent r : Nat) (f : Work → Ring → Work) : Work :=
  match getRing w r with
  | some x =>
    if ringState w r ≠ 0 ∧ ringOwner w r = agent then
      f (carryPlain w acctDev .doorbell agent (schedAgent w r) (dieOfPort (agent / 2)) (.tun (ringDie w r))) x
    else w
  | none => w

def diff32 (a b : Nat) : Nat := (2 ^ 32 + a - b % 2 ^ 32) % 2 ^ 32

def tailWrite (w : Work) (agent r t : Nat) : Work :=
  doorbell w agent r (fun w x =>
    if diff32 t x.head ≤ ringEntries w r ∧ diff32 t x.tail ≤ ringEntries w r then putRing w r { x with tail := t }
    else putRing w r { x with ignored := satAdd 16 x.ignored 1 })

def execTail (agent r : Nat) (v : Word) (s : State) : Host.Outcome State Fault Refusal :=
  traffic s (fun e w => doorIn e w agent (fun w => tailWrite w agent r v.toNat))

def cqHeadWrite (w : Work) (agent r v : Nat) : Work := doorbell w agent r (fun w x => putRing w r { x with cqHead := v })

def execCqHead (agent r : Nat) (v : Word) (s : State) : Host.Outcome State Fault Refusal :=
  traffic s (fun e w => doorIn e w agent (fun w => cqHeadWrite w agent r v.toNat))

def stopCmd (e : Env) (w : Work) (agent r : Nat) : Work :=
  doorbell w agent r (fun w x => if ringState w r = 1 ∧ x.stopping = none then stopRing e w r 2 else w)

def startCmd (w : Work) (agent r : Nat) : Work := doorbell w agent r (fun w _ => if ringState w r = 2 then setRingState w r 1 else w)

/-- RESUME: every descriptor of the ring and context that waits on a fault runs again, its tile in this frame (09 R391). -/
def resumeCmd (e : Env) (w : Work) (agent r c : Nat) : Work :=
  doorbell w agent r (fun w _ =>
    ((ringDescs w r).filter (fun d => d.phase == .faulted && dCtx d.img == c)).foldl (fun w d =>
      let w := { w with mash := { w.mash with tiles := w.mash.tiles.map (fun t =>
        if t.ring = r ∧ t.n = d.n ∧ t.st = .arrived then { t with frame := e.clk.frame } else t) } }
      putDesc w { d with phase := .running }) w)

def execStop (agent r : Nat) (s : State) : Host.Outcome State Fault Refusal := traffic s (fun e w => doorIn e w agent (fun w => stopCmd e w agent r))
def execStart (agent r : Nat) (s : State) : Host.Outcome State Fault Refusal := traffic s (fun e w => doorIn e w agent (fun w => startCmd w agent r))
def execResume (agent r ctx : Nat) (s : State) : Host.Outcome State Fault Refusal := traffic s (fun e w => doorIn e w agent (fun w => resumeCmd e w agent r ctx))

/-- A write of CMD (Table 8-3). -/
def doorbellCmd (e : Env) (w : Work) (agent r v : Nat) : Work :=
  let k := bitsOf v 3 0
  if k = 1 then stopCmd e w agent r
  else if k = 2 then startCmd w agent r
  else if k = 3 then resumeCmd e w agent r (bitsOf v 27 16)
  else w

/-! ### Fetch (R300, R305, R311) -/

def ringRef (r n k : Nat) : TileRef := ⟨r, n, 2 ^ 32, k⟩

/-- Move what an account has been charged to another one. -/
def moveCharge (w : Work) (a b : Nat) : Work :=
  match mget w.kiln.charged a with
  | some x => { w with kiln := { w.kiln with charged := mmod (mdel w.kiln.charged a) b 0 (· + x) } }
  | none => w

/-- One access of the ring scheduler at a parcel offset, after the access check as a Mash access bound to the owner; none when it
is refused. -/
def ringAccess (e : Env) (w : Work) (r p g off acct : Nat) (ref : TileRef) (op : HomeOp) (write : Bool) : Option Work :=
  match accessCheck e w (.host (ringOwner w r) g) p off write with
  | .served _ =>
    some (tunAccess e w { op := op, dev := e.board, agent := schedAgent w r, tag := 0, frame := e.clk.frame, parcel := p, gen := g,
                          off := off, line := 0, tile := some ref, acct := acct, host := some (ringOwner w r) })
  | _ => none

/-- The refusal of a ring's access: its record of Table 3-5, and ERROR. -/
def ringRefused (e : Env) (w : Work) (r p g off tag : Nat) (write : Bool) : Work :=
  let c := accessCheck e w (.host (ringOwner w r) g) p off write
  let w := raiseRefusal e w c p off e.board (schedAgent w r) (some (ringOwner w r))
  let addr := match (locate e w (cadEntry w p) off).primary w with | some q => q.dpa + off % 64 | none => off
  errRing e w r addr tag

/-- The two lines of a descriptor have come back. -/
def fetchDone (e : Env) (w : Work) (r : Nat) (x : Ring) : Work :=
  match stagedAt w (ringRef r x.head 0), stagedAt w (ringRef r x.head 1) with
  | some a, some b =>
    let w := dropStaged w r x.head (2 ^ 32)
    let off := dqOff w r + 128 * (x.head % ringEntries w r)
    if a.poison || b.poison then ringRefused e (putRing w r { x with fetching := false }) r (dqParcel w r) x.dqGen off 0 false
    else
      let img := a.data.toNat + 2 ^ 512 * b.data.toNat
      let w := putRing w r { x with fetching := false, head := (x.head + 1) % 2 ^ 32 }
      let w := moveCharge w (acctDesc 0 r x.head) (acctDesc (dCtx img) r x.head)
      putDesc w { ring := r, n := x.head, img := img, since := e.clk.frame }
  | _, _ => w

def descriptorFetch (e : Env) (w : Work) (r : Nat) : Work :=
  match getRing w r with
  | none => w
  | some x =>
    if ringState w r ≠ 1 ∨ x.stopping ≠ none ∨ x.head = x.tail then w
    else if x.fetching then fetchDone e w r x
    else
      let p := dqParcel w r
      let off := dqOff w r + 128 * (x.head % ringEntries w r)
      let a := acctDesc 0 r x.head
      match ringAccess e w r p x.dqGen off a (ringRef r x.head 0) .mashRd false with
      | none => ringRefused e w r p x.dqGen off 0 false
      | some w =>
        match ringAccess e w r p x.dqGen (off + 64) a (ringRef r x.head 1) .mashRd false with
        | none => ringRefused e w r p x.dqGen (off + 64) 0 false
        | some w =>
          let x := { x with fetching := true }
          fetchDone e (putRing w r x) r x

def execDescriptorFetch (r : Nat) (s : State) : Host.Outcome State Fault Refusal := traffic s (fun e w => descriptorFetch e w r)

/-! ### Start (R305, R313-R315, R339) -/

def started (d : Desc) : Bool := d.phase != .fetched

/-- Descriptors of the ring that come before `n` and are not complete. -/
def earlierDescs (w : Work) (d : Desc) : List Desc := (ringDescs w d.ring).filter (fun x => decide (diff32 x.n d.n ≥ 2 ^ 31))

/-- What R305 asks of the ring. -/
def mayStart (w : Work) (d : Desc) : Bool :=
  match getRing w d.ring with
  | none => false
  | some x =>
    d.phase == .fetched && ringState w d.ring == 1 && x.stopping.isNone && (earlierDescs w d).all started &&
    decide (diff32 (x.done + ((ringDescs w d.ring).filter started).length) x.cqHead < ringEntries w d.ring) &&
    (!dFence d.img || (earlierDescs w d).isEmpty) && (earlierDescs w d).all (fun y => dOp y.img != opFence)

/-- Whether a context may be used on a ring (R314). -/
def ctxAllowed (w : Work) (d : Desc) : Bool := ctxOn w (dCtx d.img) && ctxHost w (dCtx d.img) == some (ringOwner w d.ring)

/-- The slot of the Tun's table area that an activation table takes: one that holds it, or one that no descriptor uses (R339). -/
def tableSlot (w : Work) (u c a : Nat) : Option Nat :=
  match (w.tun u).tables.find? (fun t => t.2.1 == c && t.2.2.1 == a) with
  | some t => some t.1
  | none => (List.range 16).find? (fun k => !(boundTo w u).any (fun d => d.slot == some k))

/-- Start a descriptor on a Tun. -/
def startOn (e : Env) (w : Work) (d : Desc) (u : Nat) : Work :=
  let d := { d with tun := some u, phase := .running, since := e.clk.frame }
  match (if dOp d.img = opRecipe then actStage d.img else none) with
  | none => putDesc w d
  | some s =>
    let a := selBase d.img s.sel
    match tableSlot w u (dCtx d.img) a with
    | none => w
    | some k =>
      let ws := match mget (w.tun u).tables k with
        | some (c, b, ws) => if c = dCtx d.img ∧ b = a then ws else []
        | none => []
      putDesc (w.setTun u { w.tun u with tables := mset (w.tun u).tables k (dCtx d.img, a, ws) }) { d with slot := some k, act := ws }

def descriptorStart (e : Env) (w : Work) (r n u : Nat) : Work :=
  match getDesc w r n with
  | none => w
  | some d =>
    let x := d.img
    if !mayStart w d then w
    else if knownOp (dOp x) ∧ onTun (dOp x) = true ∧ ¬(takesDesc w u (ringOwner w r) = true ∧ tunDie u = ringDie w r) then w
    else if !descValid x (sizeOf w d) then closeDesc w d stInvalid 0 0
    else if !ctxAllowed w d then closeDesc w d stPermission 0 0
    else if dOp x = opFence then putDesc w { d with phase := .schedHeld, since := e.clk.frame }
    else if isSync (dOp x) then
      addTile (putDesc w { d with phase := .running, since := e.clk.frame, issued := 1 })
        { ring := r, n := n, idx := 0, tun := 16 * ringDie w r, epoch := 0, frame := e.clk.frame, blocks := 0, st := .arrived }
    else if dCount x = 0 then closeDesc w d stOk 0 0
    else startOn e w d u

def execDescriptorStart (r n tun : Nat) (s : State) : Host.Outcome State Fault Refusal := traffic s (fun e w => descriptorStart e w r n tun)

/-! ### The completion record (R306, R307, R317) -/

/-- The record of Table 8-5, `m` its place. -/
def recordWord (e : Env) (w : Work) (d : Desc) (m : Nat) : Nat :=
  dTag d.img + 2 ^ 32 * d.status + 2 ^ 40 * ((m / ringEntries w d.ring + 1) % 2) + 2 ^ 48 * dCtx d.img + 2 ^ 64 * (e.clk.frame % 2 ^ 48) +
  2 ^ 112 * min d.overruns 65535 + 2 ^ 128 * (d.bytes % 2 ^ 64) + 2 ^ 192 * min (d.energy / 16000000) (2 ^ 32 - 1) + 2 ^ 224 * (d.result % 2 ^ 32)

def dropDesc (w : Work) (d : Desc) : Work :=
  let w := dropStaged w d.ring d.n (2 ^ 32)
  checkStopped (moveCharge { w with mash := { w.mash with descs := mdel w.mash.descs (descKey d.ring d.n) } } (acctOf d) (acctCtx (dCtx d.img))) d.ring

/-- The record cannot be written: the ring enters ERROR, its record carrying the tag. -/
def recordLost (e : Env) (w : Work) (d : Desc) (x : Ring) (off : Nat) : Work :=
  let w := dropDesc w d
  ringRefused e w d.ring (cqParcel w d.ring) x.cqGen off (dTag d.img) true

def recordStep (e : Env) (w : Work) (r n fuel : Nat) : Work :=
  match fuel, getRing w r, getDesc w r n with
  | k + 1, some x, some d =>
    let off := cqOff w r + 32 * (x.done % ringEntries w r)
    let acct := acctCtx (dCtx d.img)
    if d.phase ≠ .done then w
    else if d.rcd = 0 then
      (if (ringDescs w r).any (fun y => y.rcd != 0) ∨ ringEntries w r ≤ diff32 x.done x.cqHead then w
       else
        let d := { d with energy := d.energy + mgetD w.kiln.charged (acctOf d) 0, rcd := 1 }
        let w := putDesc (moveCharge w (acctOf d) acct) d
        match ringAccess e w r (cqParcel w r) x.cqGen (off / 64 * 64) acct (ringRef r n 2) .mashRd true with
        | none => recordLost e w d x off
        | some w => recordStep e w r n k)
    else if d.rcd = 1 then
      (match stagedAt w (ringRef r n 2) with
       | none => w
       | some p =>
        if p.poison then recordLost e w d x off
        else
          let w := putDesc w { d with rcd := 2 }
          let b := off % 64
          match ringAccess e w r (cqParcel w r) x.cqGen (off / 64 * 64) acct (ringRef r n 3)
              (.mashWr ⟨BitVec.ofNat 512 (recordWord e w d x.done * 2 ^ (8 * b)), false⟩ (BitVec.ofNat 64 ((2 ^ 32 - 1) * 2 ^ b)) false) true with
          | none => recordLost e w d x off
          | some w => recordStep e w r n k)
    else if w.home.acked.contains (ringRef r n 3) then
      let w := putRing w r { x with done := (x.done + 1) % 2 ^ 32 }
      let a := ringOwner w r
      let w := dropDesc w d
      if dIrq d.img then sendMsix w a (w.fld (aRingCtl r) 23 13) else w
    else if (stagedAt w (ringRef r n 3)).isSome then recordLost e w d x off
    else w
  | _, _, _ => w

def execCompletionRecordWrite (r n : Nat) (s : State) : Host.Outcome State Fault Refusal :=
  traffic s (fun e w => recordStep e (settleDesc e w r n settleFuel) r n 4)

/-! ### Limits (R310, 09 R394) -/

def execDeferredLimit (r n : Nat) (s : State) : Host.Outcome State Fault Refusal :=
  traffic s (fun e w =>
    match getDesc w r n with
    | some d =>
      let lim := w.fld (aRingLimit r) 15 0
      if d.phase = .running ∧ onTun (dOp d.img) = true ∧ lim ≠ 0 ∧ lim < d.deferred then endAt e w d d.issued stDeferred else w
    | none => w)

def execFaultWaitExpiry (r n : Nat) (s : State) : Host.Outcome State Fault Refusal :=
  traffic s (fun e w =>
    match getDesc w r n with
    | some d =>
      let lim := w.fld aXlatFaultWait 23 0
      if d.phase = .faulted ∧ lim ≠ 0 ∧ d.since + lim < e.clk.frame then endAt e w d (restIdx w d) stTranslation else w
    | none => w)

/-- A descriptor that waits to issue and was issued no tile in the frame that ends is deferred (R310). -/
def deferDesc (w : Work) (f : Nat) (d : Desc) : Work :=
  let runnable := d.phase == .running && onTun (dOp d.img) && d.tun.isSome && d.stop.isNone && decide (d.since < f) && !noTile d (sizeOf w d) d.issued
  if !runnable then w
  else if d.lastIssue = some f then putDesc w { d with deferred := 0 }
  else putDesc w { d with deferred := d.deferred + 1 }

def deferAll (w : Work) (f : Nat) : Work := (w.mash.descs.map (·.2)).foldl (fun w d => deferDesc w f d) w

/-! ### Sync descriptors and FENCE (R308, R334, R335, 10 R405-R407, R421) -/

/-- A sync descriptor's operation at the engine of `line` ends, or its wait is entered: the answer comes back in RSP, after the
mirror write of the line where it has one (04 R114). RETRY leaves it at its scheduler, to be reissued in RTY. -/
def syncEnd (w : Work) (line ring n : Nat) (r : SyncRes) : Work :=
  match getDesc w ring n with
  | none => w
  | some d =>
    let back := carryTold w (acctOf d) ring (schedAgent w ring) line
    let close (st res : Nat) : Work := syncFinish ((tilesOf back ring n).foldl dropTile back) line ring n st res
    match r with
    | .ok res => close stOk res
    | .held => (tilesOf w ring n).foldl dropTile w
    | .overrun => close stOverrun 0
    | .refused => close stPermission 0
    | .full => putDesc back { d with phase := .schedHeld, retried := true }

/-- The operation of a sync descriptor on an object of this device. -/
def syncLocal (e : Env) (w : Work) (d : Desc) (o : Obj) : SyncRes × Work :=
  let x := d.img
  let q : SyncWho := ⟨e.board, ringOwner w d.ring, some (dCtx x), d.ring, d.n, 0⟩
  let t := dArea x 4 4
  if dOp x = opArrive then syncArrive e w o q (bitsOf (dArea x 0 1) 0 0) (bitAt (dArea x 0 1) 1) t
  else if dOp x = opWait then syncWait e w o q t
  else if bitAt (dArea x 0 1) 0 then syncBroadcast e w o q
  else syncSignal e w o q t

/-- The SYNC_OP message to the engine of an object on a peer. -/
def syncMsg (e : Env) (w : Work) (d : Desc) (p : Place) (parcel gen off : Nat) : PeerMsg :=
  let x := d.img
  let kind := if dOp x = opArrive then [0, bitsOf (dArea x 0 1) 0 0, bitsOf (dArea x 0 1) 1 1, dArea x 4 4]
    else if dOp x = opWait then [1, dArea x 4 4]
    else if bitAt (dArea x 0 1) 0 then [3] else [2, dArea x 4 4]
  { op := 0x40, dev := p.dev, src := ringOwner w d.ring, tag := w.mash.tag, line := p.dpa / 64, ext := some (parcel, gen, off, e.clk.frame),
    args := [dCtx x, d.ring, d.n] ++ kind }

/-- A translated sync descriptor goes to the engine that homes its object. -/
def syncIssue (e : Env) (w : Work) (d : Desc) (t : Tile) : Work :=
  match tilePlace t (dSrc d.img 0) with
  | none => closeDesc w d stPermission 0 0
  | some (p, g, o) =>
    if eKind (cadEntry w p) ≠ 2 then closeDesc w d stPermission 0 0
    else if mhas w.sync.saved (dCtx d.img) then putDesc w { d with phase := .schedHeld }
    else match (locate e w (cadEntry w p) o).primary w with
      | none => closeDesc w d stPermission 0 0
      | some q =>
        let d := { d with phase := .held }
        if q.dev = e.board then
          let line := q.dpa / 64
          let w := carrySync e (putDesc w d) (acctOf d) d.ring e.board (schedAgent w d.ring) line d.retried
          if (findTxn w line).isSome || (reservation w line).isSome then syncEnd w line d.ring d.n .full
          else
            let (r, w) := syncLocal e w d ⟨p, o / 64 * 64, line⟩
            syncEnd w line d.ring d.n r
        else if isLost w q.dev then closeDesc w d stCancelled 0 0
        else
          let w := { w with mash := { w.mash with tag := (w.mash.tag + 1) % 2 ^ 16 } }
          let m := syncMsg e w d q p g o
          (carrySync e (dropTile (putDesc w { d with engine := some q.dev, sent := some m }) t) (acctOf d) d.ring q.dev m.src m.line
            false).emit (.peer m)

/-- A sync descriptor: its object is translated with write permission, then its operation is sent. -/
def syncDesc (e : Env) (w : Work) (ring n op : Nat) : Work :=
  match getDesc w ring n with
  | none => w
  | some d =>
    if dOp d.img ≠ op ∨ ¬(d.phase = .running ∨ d.phase = .schedHeld) then w
    else if dSrc d.img 0 % 64 ≠ 0 then closeDesc w d stPermission 0 0
    else
      let w := tileTranslate e (putDesc w { d with phase := .running }) ring n 0
      match getTile w ring n 0, getDesc w ring n with
      | some t, some d => if t.st = .reading ∧ d.phase = .running then syncIssue e w d t else w
      | _, _ => w

def execBarrierArrive (ring n : Nat) (s : State) : Host.Outcome State Fault Refusal := traffic s (fun e w => syncDesc e w ring n opArrive)
def execGateWait (ring n : Nat) (s : State) : Host.Outcome State Fault Refusal := traffic s (fun e w => syncDesc e w ring n opWait)
def execGateSignal (ring n : Nat) (s : State) : Host.Outcome State Fault Refusal := traffic s (fun e w => syncDesc e w ring n opSignal)

def execFence (ring n : Nat) (s : State) : Host.Outcome State Fault Refusal :=
  traffic s (fun _ w =>
    match getDesc w ring n with
    | some d => if dOp d.img = opFence ∧ d.phase = .schedHeld ∧ (earlierDescs w d).isEmpty = true then closeDesc w d stOk 0 0 else w
    | none => w)

/-! ### Context changes at their boundary (09 R362, R363, 19 R701) -/

/-- A context is no longer enabled: its running and waiting descriptors are cancelled. -/
def disableCtx (e : Env) (w : Work) (c : Nat) : Work :=
  match getCtx w c with
  | none => w
  | some x =>
    let w := { w with xlat := { w.xlat with ctxs := mset w.xlat.ctxs c { x with on := false } } }
    ((w.mash.descs.map (·.2)).filter (fun d => dCtx d.img == c && d.phase != .fetched && dOp d.img != opFence)).foldl
      (fun w d => cancelDesc e w d) w

def applyCtx (e : Env) (w : Work) (c op : Nat) (x : BitVec 512) : Work :=
  let code := ctxCode e w op c (some x)
  if code ≠ 0 then w.setFld aXlatStatus 15 0 code
  else if op = 2 then disableCtx e w c
  else
    let w := purgeCtx { w with xlat := { w.xlat with ctxs := mset w.xlat.ctxs c ⟨x, xEnable x⟩ } } c
    if xEnable x then w else disableCtx e w c

/-- Step 4 of Table 2-1: the context commands that were accepted. -/
def applyCtxCmds (e : Env) (w : Work) : Work :=
  w.xlat.cmds.foldl (fun w x => applyCtx e w x.1 x.2.1 x.2.2) { w with xlat := { w.xlat with cmds := [] } }

/-! ### Windows (R346-R348, R357, 19 R735) -/

/-- Every plot and page of a parcel lies on this device. -/
def allHere (e : Env) (w : Work) (x : BitVec 512) : Bool :=
  if eClass x = 1 then members (eDevSet x) == [e.board]
  else (parcelLeaves e w x).all (fun l => sPriDev l.bits == e.board && (!namesSec l.bits l.sec || sSecDev l.bits == e.board))

def windowCheck (e : Env) (w : Work) (k : Nat) : Nat :=
  let p := w.fld (aWindowCtl k) 15 0
  let x := cadEntry w p
  let bp := w.fld (aWindowBarrier k) 15 0
  if eKind x ≠ 1 ∨ eState x ≠ stAssigned ∨ eSpread x = true ∨ eClass x = 3 ∨ allHere e w x = false then 0x060B
  else if !winPair (winIn w k) (winAcc w k) then 0x060C
  else if winL w k = 0 ∨ winN w k = 0 then 0x060D
  else if eSize x < (4096 + (2 ^ 21 - 1) + winCtlOff w k) / 2 ^ 21 then 0x060E
  else if w.mash.wins.any (fun y => y.1 != k && y.2.parcel == p) then 0x060F
  else if w.fld (aWindowBarrier k) 31 31 = 1 ∧ (eKind (cadEntry w bp) ≠ 2 ∨ w.reg2 (aWindowBarrierOffset k) % 64 ≠ 0 ∨
      eSize (cadEntry w bp) < (w.reg2 (aWindowBarrierOffset k) + 64 + (2 ^ 21 - 1)) / 2 ^ 21) then 0x0610
  else 0

/-- Every count entry's tag becomes the complement of its bank's epoch (R348). -/
def openBanks (e : Env) (w : Work) (k p : Nat) : Work :=
  [0, 1].foldl (fun w b => (List.range (winL w k)).foldl (fun w n =>
    countPut e w (accOwn p e) k b n (2 ^ 16 * (0xFFFF - b))) w) w

/-- A write of WINDOW[w].CTL. -/
def windowCtlWrite (e : Env) (w : Work) (k v : Nat) : Work :=
  match mget w.mash.wins k with
  | some x =>
    if x.off then
      (if bitAt v 31 then
        let code := windowCheck e w k
        let w := w.setFld (aWindowStatus k) 15 0 code
        if code = 0 then (putWin w k { x with off := false }).setFld (aWindowCtl k) 31 31 1 else w
       else w)
    else if bitAt v 31 then w
    else (putWin w k { x with off := true }).setFld (aWindowCtl k) 31 31 0
  | none =>
    let w := w.setReg (aWindowCtl k) (v &&& 0x0FF0FFFF)
    if !bitAt v 31 then w
    else
      let code := windowCheck e w k
      let w := w.setFld (aWindowStatus k) 15 0 code
      if code ≠ 0 then w
      else
        let p := w.fld (aWindowCtl k) 15 0
        openBanks e (putWin (w.setFld (aWindowCtl k) 31 31 1) k { parcel := p }) k p

def execWindowEnable (w : Nat) (v : Word) (s : State) : Host.Outcome State Fault Refusal :=
  traffic s (fun e x => windowCtlWrite e x w (setBitAt v.toNat 31 true))
def execWindowDisable (w : Nat) (v : Word) (s : State) : Host.Outcome State Fault Refusal :=
  traffic s (fun e x => windowCtlWrite e x w (setBitAt v.toNat 31 false))

/-- Disabled windows end at the boundary (R357). -/
def dropWindows (w : Work) : Work :=
  { w with mash := { w.mash with wins := w.mash.wins.filter (fun x => !x.2.off) } }

/-! ### Progress at a boundary -/

def settleAll (e : Env) (w : Work) : Work :=
  w.mash.descs.foldl (fun w d =>
    let w := settleDesc e w d.2.ring d.2.n settleFuel
    recordStep e w d.2.ring d.2.n (match getDesc w d.2.ring d.2.n with | some x => if x.rcd = 0 then 0 else 4 | none => 0)) w

end Sys2Proof.Machine
end

