-- ==== Sys2Proof/Machine/Kiln.lean ====
section
/-! DEFINITION. Kiln (16): the commit of its configuration, the energy samples, the closing of a frame's accounts, the budget and
the plan, and the grants that the shaper takes from it (11 R442-R445). Energies are in 1/16 pJ, or in pJ where said. -/

namespace Sys2Proof.Machine

/-! ### The commit (R622, Table 16-4) -/

def kilnAddrs : List Nat :=
  [aKilnCtl, aKilnCoolant, aKilnLimits, aKilnBgCap, aKilnStatic] ++ (List.range 16).map aKilnWeight

/-- The check over every Kiln register; `v` gives the values, `parted` that PARTITIONED mode is set or staged. -/
def kilnCheck (v : Nat → Nat) (parted : Bool) : Nat :=
  let wt (k : Nat) : Nat := bitsOf (v (aKilnWeight k)) 23 0
  let cap := bitsOf (v aKilnLimits) 15 0
  let floor := bitsOf (v aKilnLimits) 31 16
  let rate := bitsOf (v aKilnBgCap) 15 0
  let static := bitsOf (v aKilnStatic) 15 0
  if (List.range 14).any (fun k => wt k == 0) ∨ wt 14 ≠ 0 ∨ wt 15 ≠ 0 then 0x0801
  else if cap < 400 ∨ 1550 < cap ∨ floor < 300 ∨ cap < floor then 0x0802
  else if bitsOf (v aKilnCtl) 22 16 > 100 then 0x0803
  else if rate < 1 ∨ 400 < rate then 0x0804
  else if parted = true ∧ (floor < static ∨ static = 0) then 0x0805
  else 0

/-- A write of KILN.CTL. -/
def kilnCtlWrite (w : Work) (v : Nat) : Work :=
  let w := w.setReg aKilnCtl (v &&& 0x7FFF00)
  if !bitAt v 31 then w
  else
    let code := kilnCheck w.reg (partitioned w || vPartitioned (qosAhead w) || w.fld aQosCtl 16 16 == 1)
    let w := w.setFld aKilnStatus 15 0 code
    if code ≠ 0 then w
    else { w with kiln := { w.kiln with pend := kilnAddrs.foldl (fun m a => mset m a (BitVec.ofNat 32 (w.reg a))) [] } }

def execKilnCommit (v : Word) (s : State) : Host.Outcome State Fault Refusal := traffic s (fun _ w => kilnCtlWrite w v.toNat)

/-- Step 4 of Table 2-1: an accepted Kiln commit, checked again (19 R701). -/
def applyKiln (w : Work) : Work :=
  if w.kiln.pend.isEmpty then w
  else
    let v (a : Nat) : Nat := match mget w.kiln.pend a with | some x => x.toNat | none => w.liv a
    let code := kilnCheck v (partitioned w)
    if code ≠ 0 then { w.setFld aKilnStatus 15 0 code with kiln := { w.kiln with pend := [] } }
    else
      let w' := w.kiln.pend.foldl (fun w x => w.setLiv x.1 x.2.toNat) w
      { w' with kiln := { w'.kiln with pend := [], committed := true } }

/-! ### Measurement (R603) -/

/-- One sample of every converter stage: voltage in mV and current in mA, over 1 us. -/
def execKilnSample (stages : List (Nat × Nat)) (s : State) : Host.Outcome State Fault Refusal :=
  traffic s (fun _ w =>
    let pj := stages.foldl (fun n x => n + x.1 * x.2) 0
    let w := { w with kiln := { w.kiln with input := w.kiln.input + pj, measured := w.kiln.measured + pj } }
    w.setReg2 aKilnInputEnergy (w.kiln.input / 1000000 % 2 ^ 64))

/-! ### The end of a frame (step 2 of Table 2-1; R606, R609, R619-R621) -/

/-- Energy of the frame by context. -/
def ctxCharges (w : Work) : AMap Nat :=
  w.kiln.charged.foldl (fun m x => match acctCtxOf x.1 with
    | some c => mmod m c 0 (· + x.2)
    | none => m) []

/-- Energy of the frame by host: its own requests and the contexts bound to it. -/
def hostCharges (w : Work) : AMap Nat :=
  (ctxCharges w).foldl (fun m x => match ctxHost w x.1 with
    | some a => mmod m a 0 (· + x.2)
    | none => m) (w.kiln.charged.filter (fun x => decide (x.1 < 64)))

/-- Descriptors take what their accounts gathered in the frame (R620). -/
def chargeDescs (w : Work) : Work :=
  { w with mash := { w.mash with descs := w.mash.descs.map (fun x =>
      (x.1, { x.2 with energy := x.2.energy + mgetD w.kiln.charged (acctOf x.2) 0 })) } }

def addTotals (base : Nat) (m : AMap Nat) (t : AMap Nat) : AMap Nat := m.foldl (fun t x => mmod t (base + x.1) 0 (· + x.2)) t

/-- The counters of contexts in nJ, of hosts in nJ and, in their pages, in uJ. -/
def showTotals (w : Work) : Work :=
  w.kiln.total.foldl (fun w x =>
    if x.1 < 64 then ((w.setReg2 (aKilnHostEnergy x.1) (x.2 / 16000 % 2 ^ 64)).setHreg2 x.1 hEnergy (x.2 / 16000000 % 2 ^ 64))
    else w.setReg2 (aKilnCtxEnergy (x.1 - 0x1000)) (x.2 / 16000 % 2 ^ 64)) w

/-- The device account of the frame, in 1/16 pJ. -/
def deviceEnergy (w : Work) : Int := Int.ofNat (16 * w.kiln.measured) - Int.ofNat (w.kiln.charged.foldl (fun n x => n + x.2) 0)

/-- Bits of a signed value. -/
def toBits (n : Nat) (x : Int) : Nat := (x % Int.ofNat (2 ^ n)).toNat

def closeAccounts (e : Env) (w : Work) : Work :=
  let k := w.kiln
  let dev := deviceEnergy w
  let w := chargeDescs w
  let w := { w with kiln := { k with
    total := addTotals 0x1000 (ctxCharges w) (addTotals 0 (hostCharges w) k.total)
    charged := []
    measured := 0
    measuredLast := k.measured
    budgetLast := k.budget
    devHist := (dev :: k.devHist).take 16 } }
  let w := showTotals w
  let w := (w.setReg aKilnMeasured (k.measured / 1000000)).setReg aKilnBudget (k.budget.getD 0 / 1000000)
  let w := w.setReg2 aKilnDeviceEnergy (toBits 64 (dev / 16000000))
  let w := w.setFld aKilnStatus 26 24 k.cut
  if partitioned w && decide (w.livF aKilnLimits 15 0 * e.clk.lastPeriod < k.measured) then w.inc aKilnOverFrames 1 else w

/-! ### Demand (R610, 02 R39) -/

/-- The lines that a host asks for (log 23): those it has sent in the frame and those that wait at its port. -/
def demandOf (w : Work) (a : Nat) : Nat := mgetD w.qos.counted a 0 + mgetD w.qos.queued a 0

/-- Bytes of a rate in GB/s over a period in ps. -/
def rateBytes (gbs period : Nat) : Nat := gbs * period / 1000

/-- Whether a host's head runs at half width (12 R466). -/
def headHalf (w : Work) (a : Nat) : Bool := w.fld (aPortStatus (portOf a)) (26 + headOf w a) (26 + headOf w a) == 1

/-- Lines that a head at half width is planned at: half of 110 GB/s for the one head of a port, of 55 GB/s for each of two (12 R466,
Table 12-4; log 85). -/
def headLines (w : Work) (a period : Nat) : Nat := rateBytes (if portMode w (portOf a) = 2 then 55 else 110) period / 128

/-- The demand of a host that a plan counts: no more than its head at half width takes. -/
def planDemand (w : Work) (p a : Nat) : Nat := if headHalf w a then min (demandOf w a) (headLines w a p) else demandOf w a

/-- Projected energy of a line of a kind (R610). -/
def lineEnergy (w : Work) (kind : Nat) : Nat :=
  sumOf (List.range 14) (fun ev => Config.pathEvents kind ev * bitsOf (w.liv (aKilnWeight ev)) 23 0)

/-- Bytes of a descriptor's next tile, and its tiles still to issue. -/
def tileDemand (w : Work) (d : Desc) : Nat × Nat :=
  let size := sizeOf w d
  let bytes := (phase1 d size d.issued ++ phase2 d size d.issued []).foldl (fun n s => n + s.len) 0
  let left := if dOp d.img = opGather then 1
    else (totalUnits d.img - d.issued * tileUnit d.img size + tileUnit d.img size - 1) / max 1 (tileUnit d.img size)
  (bytes, left)

def runnable (e : Env) (w : Work) (d : Desc) : Bool :=
  d.phase == .running && onTun (dOp d.img) && d.tun.isSome && d.stop.isNone && decide (d.notBefore ≤ e.clk.frame + 1) &&
  !noTile d (sizeOf w d) d.issued

/-- The Mash demand of the hosts selected, in bytes. -/
def mashDemand (e : Env) (w : Work) (sel : Nat → Bool) : Nat :=
  ((w.mash.descs.map (·.2)).filter (fun d => runnable e w d && sel (ringOwner w d.ring))).foldl
    (fun n d => n + (tileDemand w d).1 * (tileDemand w d).2) 0

/-- A tract that its initialisation pass has not finished (18 R672). -/
def initLeft (w : Work) (t : Nat) : Bool := decide (w.reg (aSpargeInitMark t) < moduleBytes w t * 10 / 2 ^ 21)

/-- The background demand of the tracts selected, in bytes (R610). -/
def bgDemand (w : Work) (period : Nat) (sel : Nat → Bool) : Nat :=
  let onParcel (p : Nat) : Bool := (bitList (eTracts (cadEntry w p)) 8).any sel
  let slots := w.ops.any (fun x => x.2.st == 1 && (if x.2.kind = 1 then sel (x.2.chan / 10) else onParcel x.2.parcel))
  let patrol := if w.fld aSpargePatrol 31 31 = 0 then 0
    else sumOf ((List.range 8).filter sel) (moduleBytes w) * 10 * period / (3600 * max 1 (w.fld aSpargePatrol 7 0) * 10 ^ 12)
  (if slots then rateBytes (w.livF aKilnBgCap 15 0) period else 0) +
  (match w.pool.zero with | some (p, _) => if onParcel p then rateBytes (w.fld aSpargeZeroCtl 15 0) period else 0 | none => 0) +
  (if (List.range 8).any (fun t => sel t && initLeft w t) then rateBytes 400 period else 0) + patrol +
  4096 * (w.home.resolving.filter (fun x => onParcel x.1)).length

/-! ### The budget (R607-R609) -/

/-- The period of the next frame: that of a commit that takes effect at its boundary, else the source's (02 R54, R60), else the one
in force. -/
def nextPeriod (e : Env) (w : Work) : Nat :=
  let (f, own) := match e.clk.follow with
    | some (n, code, _) => (n, 500000 * code)
    | none => (e.clk.frame + 1, e.period)
  match e.merPending with
  | some p => if p.frame ≤ f ∧ merCheck e w p true = 0 then 500000 * p.period else own
  | none => own

def thermalFactor (w : Work) : Nat := w.fld aKilnStatus 22 16

/-- B in pJ, before the carry. -/
def preBudget (e : Env) (w : Work) : Nat :=
  let dq := (w.kiln.coolant - Int.ofNat (4 * w.livF aKilnCoolant 7 0)).toNat
  let p := nextPeriod e w
  max (w.livF aKilnLimits 31 16 * p)
    (w.livF aKilnLimits 15 0 * (800 - w.livF aKilnCoolant 15 8 * dq) * thermalFactor w * p / (800 * 64))

/-- The carry in pJ (R609). -/
def carryOf (w : Work) (pre : Nat) : Nat :=
  match w.kiln.budgetLast with
  | some b => min (pre / 4) (w.kiln.measuredLast - b)
  | none => 0

/-- The mean device account of the latest complete frames. -/
def meanDevice (w : Work) : Int :=
  if w.kiln.devHist.isEmpty then 0 else (w.kiln.devHist.foldl (· + ·) 0) / Int.ofNat w.kiln.devHist.length

/-! ### Sharing the host part (11 R442-R444) -/

/-- Lines still wanted by a host whose demand exceeds its grant. -/
def wants (v : Nat → Nat) (w : Work) (p : Nat) (g : AMap Nat) (a : Nat) : Nat :=
  min (planDemand w p a) (vMax v a) - mgetD g a 0

/-- Equal parts of `left` lines among hosts of one priority, again until nothing is left or nobody wants more. A remainder below
one line each goes to the lower agents. -/
def shareEqual (v : Nat → Nat) (w : Work) (p : Nat) (hs : List Nat) (g : AMap Nat) (left fuel : Nat) : AMap Nat × Nat :=
  match fuel with
  | 0 => (g, left)
  | k + 1 =>
    let open_ := hs.filter (fun a => wants v w p g a != 0)
    if open_.isEmpty ∨ left = 0 then (g, left)
    else
      let part := max 1 (left / open_.length)
      let (g, left) := open_.foldl (fun (x : AMap Nat × Nat) a =>
        let n := min x.2 (min part (wants v w p g a))
        (mset x.1 a (mgetD x.1 a 0 + n), x.2 - n)) (g, left)
      shareEqual v w p hs g left k

/-- R442: guarantees, then what remains by priority. -/
def shareLines (v : Nat → Nat) (w : Work) (p : Nat) (hs : List Nat) (h : Nat) : AMap Nat :=
  let g : AMap Nat := hs.foldl (fun m a => mset m a (vMin v a)) []
  ([3, 2, 1, 0].foldl (fun (x : AMap Nat × Nat) k =>
    shareEqual v w p (hs.filter (fun a => vPrio v a == k)) x.1 x.2 80) (g, h - sumOf hs (vMin v))).1

/-- R443: guarantees reduced in ascending priority, in proportion within one. -/
def cutLines (v : Nat → Nat) (hs : List Nat) (short : Nat) : AMap Nat :=
  ([0, 1, 2, 3].foldl (fun (x : AMap Nat × Nat) p =>
    let l := hs.filter (fun a => vPrio v a == p)
    let m := sumOf l (vMin v)
    let cut := min m x.2
    let g := (l.foldl (fun (y : AMap Nat × Nat × Nat) a =>
      let cum := y.2.1 + vMin v a
      let upTo := if m = 0 then 0 else cut * cum / m
      (mset y.1 a (vMin v a - (upTo - y.2.2)), cum, upTo)) (x.1, 0, 0)).1
    (g, x.2 - cut)) ([], short)).1

/-! ### The plan (R610-R614, R618) -/

/-- What one plan is made from: its hosts, budget and fixed part in 1/16 pJ, lines, Mash demand and background demand in
bytes. -/
structure PlanIn where
  hosts : List Nat
  budget : Int
  fixed : Int
  lines : Nat
  mash : Nat
  bg : Nat
  deriving DecidableEq, Repr

/-- A plan of one partition: H, what the partition has, and the deepest cut. -/
structure PlanOut where
  h : Nat
  part : PartPlan
  cut : Nat
  deriving DecidableEq, Repr

def planPartition (w : Work) (v : Nat → Nat) (p : Nat) (x : PlanIn) : PlanOut :=
  let eH := lineEnergy w 0
  let eM := lineEnergy w 1
  let eB := lineEnergy w 2
  let guar := sumOf x.hosts (vMin v)
  let hx := sumOf x.hosts (fun a => min (planDemand w p a) (vMax v a) - vMin v a)
  let budget := if w.kiln.committed then x.budget else 0
  let resMax := if eB = 0 ∨ w.kiln.committed = false then x.bg else (budget.toNat * w.livF aKilnCtl 22 16 / 1000 / eB) * 64
  let res := min x.bg resMax
  let bgE (n : Nat) : Nat := (n + 63) / 64 * eB
  let mashLines := (x.mash + 63) / 64
  let base : Int := x.fixed + Int.ofNat (guar * eH + bgE res)
  -- energy: background excess, Mash, host excess, guarantees (R611); without a commit nothing is cut (R617)
  let room (used : Int) : Nat := if w.kiln.committed then (budget - used).toNat else 2 ^ 64
  let fullAfter (n cost : Nat) (r : Nat) : Nat := if cost = 0 then n else min n (r / cost)
  let hx1 := fullAfter hx eH (room base)
  let u1 := base + Int.ofNat (hx1 * eH)
  let ml1 := if hx1 < hx then 0 else fullAfter mashLines eM (room u1)
  let u2 := u1 + Int.ofNat (ml1 * eM)
  let bgx := x.bg - res
  let bgx1 := if ml1 < mashLines ∨ hx1 < hx then 0 else min bgx (64 * fullAfter ((bgx + 63) / 64) eB (room u2))
  let above : Nat := if w.kiln.committed then (base - budget).toNat else 0
  let short := if above = 0 then 0 else min guar (if eH = 0 then guar else (above + eH - 1) / eH)
  -- lines: guarantees, host excess, Mash (R612)
  let hx2 := min hx1 (x.lines - (guar - short))
  let ml2 := min ml1 (x.lines - (guar - short) - hx2)
  let used : Int := base - Int.ofNat (short * eH) + Int.ofNat (hx2 * eH + ml2 * eM + bgE bgx1)
  let cut := if short ≠ 0 then 4 else if hx2 < hx then 3 else if ml2 < mashLines then 2 else if bgx1 < bgx then 1 else 0
  { h := guar - short + hx2
    cut := cut
    part :=
      { host := guar - short + hx2
        mash := if ml2 < mashLines then 64 * ml2 else x.mash
        mashE := if w.kiln.committed then some (ml2 * eM) else none
        bg := res + bgx1
        spare := if w.kiln.committed = true ∧ eH ≠ 0 then (budget - used).toNat / eH else x.lines - (guar + hx2 + ml2) } }

/-- Lines that a Vorir link carries in a frame. -/
def linkLines (w : Work) (p l : Nat) : Nat := rateBytes (vorirRate w l) p / 64

/-- The lines that a plan over tracts `ts` counts of `c`: while some Vorir link runs at half width, a tract's share of the capacity is
no more than half of its memory link, and the tracts' share of the host links and of the Tun link bounds them all (01 R24; log 85). -/
def vorirLines (w : Work) (v : Nat → Nat) (p c : Nat) (ts : List Nat) : Nat :=
  if w.vorir.half.isEmpty then c
  else
    let mem := sumOf ts (fun t => min (vCapacity v / 8) (linkLines w p (t / 2) / 2))
    let fabric := ts.length * min (sumOf [5, 6, 7, 8] (linkLines w p)) (2 * linkLines w p 4) / 8
    min c (min mem fabric)

/-- The plans to make: one, or one for each partition with a tract (R618). -/
def planInputs (e : Env) (w : Work) (v : Nat → Nat) (pre b : Nat) : List (Nat × PlanIn) :=
  let p := nextPeriod e w
  if vPartitioned v then
    let static := w.livF aKilnStatic 15 0 * p
    ((List.range 8).filter (fun k => vTracts v k != 0)).map (fun k => (k,
      { hosts := (vHosts v).filter (fun a => vPart v a == k)
        budget := Int.ofNat (16 * (pre - static) * bitsOf (v (aQosPartEnergy k)) 7 0 / 256)
        fixed := 0
        lines := vorirLines w v p (partCapacity e w v k) (bitList (vTracts v k) 8)
        mash := mashDemand e w (fun a => vPart v a == k)
        bg := bgDemand w p (fun t => bitAt (vTracts v k) t) }))
  else
    [(0, { hosts := vHosts v, budget := Int.ofNat (16 * b), fixed := meanDevice w, lines := vorirLines w v p (vCapacity v) (List.range 8),
           mash := mashDemand e w (fun _ => true), bg := bgDemand w p (fun _ => true) })]

/-- The record of R443: the hosts cut in `detail2`, the sizes of their cuts in ascending order in `specific`, 32 bits each. -/
def guaranteeCut (e : Env) (w : Work) (v : Nat → Nat) (g : AMap Nat) : Work :=
  let l := g.filter (fun x => decide (x.2 < vMin v x.1))
  if l.isEmpty then w
  else raise e w { ty := 0x8003, sev := 1, dev := e.board, agent := 0x7F,
                   detail2 := l.foldl (fun n x => n + 2 ^ x.1) 0
                   specific := l.foldr (fun x n => (vMin v x.1 - x.2) + 2 ^ 32 * n) 0 }

/-- Add one partition's plan to the plan of the frame. -/
def addPlan (e : Env) (v : Nat → Nat) (acc : Plan × Work) (x : Nat × PlanIn) : Plan × Work :=
  let (p, w) := acc
  let t := nextPeriod e w
  let o := planPartition w v t x.2
  let hs := x.2.hosts
  let guar := sumOf hs (vMin v)
  let g := if o.h < guar then cutLines v hs (guar - o.h) else shareLines v w t hs o.h
  let congested := decide (o.h < guar) || hs.any (fun a => decide (mgetD g a 0 < min (planDemand w t a) (vMax v a)))
  let held := hs.filter (fun a => congested && mgetD g a 0 == vMin v a && decide (vMin v a < demandOf w a))
  ({ p with
      grants := g.foldl (fun m y => mset m y.1 y.2) p.grants
      held := held.foldl sadd p.held
      congested := p.congested || congested
      parts := mset p.parts x.1 o.part
      cut := max p.cut o.cut }, guaranteeCut e w v g)

/-- The thermal factor (R608), and its record. -/
def thermalStep (e : Env) (w : Work) (r : Sensors) : Work :=
  let hot := 4 * w.livF aKilnCtl 15 8
  let old := thermalFactor w
  match r.junction.findIdx? (fun x => decide (hot ≤ x)) with
  | some i =>
    let w := w.setFld aKilnStatus 22 16 (max 32 (old - 4))
    if old = 64 then
      raise e w { ty := 0x800F, sev := 1, dev := e.board, agent := 0x7F, unit := i + 8 * 2 ^ 24,
                  specific := r.junction.getD i 0 + 2 ^ 32 * toBits 32 w.kiln.coolant }
    else w
  | none => w.setFld aKilnStatus 22 16 (min 64 (old + 1))

/-- The coolant reading (20 R713): 55 C and a record while it is out of range. -/
def coolantStep (e : Env) (w : Work) (r : Sensors) : Work :=
  let bad := decide (r.coolant < -80) || decide (400 < r.coolant)
  let first := bad && !w.kiln.sensorBad
  let w := { w with kiln := { w.kiln with coolant := if bad then 220 else r.coolant, sensorBad := bad
                                          hottest := r.junction.foldl max 0 } }
  let w := w.setReg aKilnTemp (toBits 10 w.kiln.coolant + 2 ^ 16 * (w.kiln.hottest % 1024))
  if first then
    raise e w { ty := 0x800F, sev := 1, dev := e.board, agent := 0x7F, unit := 64 + 8 * 2 ^ 24, specific := toBits 32 r.coolant }
  else w

/-- The latch at B(f) + 3P/4 (02 R39). -/
def planLatch (e : Env) (w : Work) (r : Sensors) : Work :=
  let w := thermalStep e (coolantStep e w r) r
  let v := qosAhead w
  let pre := preBudget e w
  let b := pre - carryOf w pre
  let (p, w) := (planInputs e w v pre b).foldl (addPlan e v) ({ budget := if vPartitioned v then pre else b }, w)
  { w with kiln := { w.kiln with next := some p } }

/-! ### Installation (step 5 of Table 2-1; 11 R445, 16 R613, R616) -/

/-- The values of the ending frame that each host's page reports (11 R445). -/
def showHosts (w : Work) : Work :=
  (List.range 64).foldl (fun w a =>
    let held := w.qos.held.contains a
    let w := (w.setHreg a hQosGrant (lineGrant w a)).setHreg a hQosCounted
      (min (mgetD w.qos.counted a 0) (2 ^ 24 - 1) + (if held then 2 ^ 31 else 0))
    if held then w.setHreg a hQosHeldFrames (satAdd 32 (w.hreg a hQosHeldFrames) 1) else w) w

/-- Grants of a plan, reduced to the ceilings in force (11 R449). -/
def grantsInForce (w : Work) (p : Plan) : AMap Nat :=
  (p.grants.map (fun x => (x.1, min x.2 (w.livF (aQosHostMax x.1) 23 0)))).filter (fun x => x.2 != 0)

/-- A plan's background allotment, less what background work drew beyond the last ones (log 164): the allotment, and what is still
owed. -/
def payDebt (k : Kiln) (parts : AMap PartPlan) : Kiln :=
  parts.foldl (fun k x =>
    let owe := mgetD k.bgDebt x.1 0
    { k with parts := mset k.parts x.1 { x.2 with bg := x.2.bg - owe }
             bgDebt := if owe ≤ x.2.bg then mdel k.bgDebt x.1 else mset k.bgDebt x.1 (owe - x.2.bg) }) { k with parts := [] }

/-- The plan of the new frame comes into force; a frame without one keeps no grant and no allotment. -/
def installPlan (e : Env) (w : Work) : Work :=
  let p := w.kiln.next.getD {}
  let was := w.kiln.cut
  let w := { w with
    qos := { w.qos with grants := grantsInForce w p, held := p.held, congested := p.congested, counted := [], admitted := [],
                        mashLines := [] }
    kiln := { payDebt w.kiln p.parts with budget := w.kiln.next.map (·.budget), next := none, cut := p.cut } }
  let w := carryElig w
  let w := if p.congested then w.inc (aQosGlobal + 4) 1 else w
  if p.cut = 0 then w
  else
    let w := w.inc (aKilnCutFrames p.cut) 1
    if was = 0 then raise e w { ty := 0x800B, dev := e.board, agent := 0x7F, specific := p.cut } else w

end Sys2Proof.Machine
end

