-- ==== Sys2Proof/Machine/Security.lean ====
section
/-! DEFINITION. The root of trust as management commands see it (17): authority, sessions, measurements, firmware banks, fuses,
debug sessions, IDE keys, and the JTAG port. -/

namespace Sys2Proof.Machine

/-! ### Requesters and replies (R624, Table 17-1) -/

/-- A requester's path is open: the BMC's I3C, a SHARED head that is up, a host's head that carries CXL.io. -/
def reaches (w : Work) (m : Mgr) : Bool :=
  match m with
  | .bmc => true
  | .fm p => portMode w p == 1 && headState w p 0 == 3
  | .host a => ldExists w a && headIo w a
  | .peer _ => false

/-- Completion codes of `Out.reply` (log 24): success, refused, not supported, session limit. -/
def rcOk : Nat := 0
def rcRefused : Nat := 2
def rcUnsupported : Nat := 7
def rcLimit : Nat := 10

def reply (w : Work) (m : Mgr) (code : Nat) (data : List Nat) : Work := w.emit (.reply m code data)

/-- A command whose requester must be one that `may` allows; `f` carries it out and answers. -/
def manage (e : Env) (w : Work) (m : Mgr) (may : Bool) (f : Env × Work) : Env × Work :=
  if !mainRuns e || !reaches w m then (e, w) else if may then f else (e, reply w m rcRefused [])

def isBmc (m : Mgr) : Bool := m == .bmc
def isHostLd (m : Mgr) : Bool := match m with | .host _ => true | _ => false
def recovering (e : Env) : Bool := e.rst.phase == .recovery

/-- A command of the BMC alone. -/
def bmcOnly (m : Mgr) (s : State) (f : Env → Work → Env × Work) : Host.Outcome State Fault Refusal :=
  whole s (fun e w => manage e w m (isBmc m) (f e w))

/-- A command of the BMC or of a host's logical device. -/
def bmcOrHost (m : Mgr) (s : State) (f : Env → Work → Env × Work) : Host.Outcome State Fault Refusal :=
  whole s (fun e w => manage e w m (isBmc m || isHostLd m) (f e w))

/-- An answer of success or refusal, the change made only on success. -/
def answer (e : Env) (w : Work) (m : Mgr) (ok : Bool) (sec : Sec) (data : List Nat) : Env × Work :=
  if ok then ({ e with sec := sec }, reply w m rcOk data) else (e, reply w m rcRefused [])

/-! ### Banks and secure boot (R630-R633, Table 17-3) -/

def bankOf (x : Sec) (b : Nat) : Bank2 := if b = 0 then x.bankA else x.bankB

def setBank (x : Sec) (b : Nat) (k : Bank2) : Sec := if b = 0 then { x with bankA := k } else { x with bankB := k }

def bkEmpty : Nat := 0xFF
def bkStaged : Nat := 0x7F
def bkTrial : Nat := 0x3F
def bkCommitted : Nat := 0x1F
def bkFailed : Nat := 0x0F

/-- The checks of R630 on an image. -/
def imagePasses (e : Env) (i : FwImage) : Bool :=
  i.magic == 0x4B4C4657 && i.slot == bitsOf (keySel e) 1 0 && i.keyHashOk && i.sigOk && i.bodyHashOk && decide (i.svn ≥ e.sec.rollback)

def bankPasses (e : Env) (b : Nat) : Bool := match (bankOf e.sec b).img with | some i => imagePasses e i | none => false

def imageField (x : Sec) (b : Nat) (f : FwImage → Nat) : Nat := match (bankOf x b).img with | some i => f i | none => 0

def trialOpen (x : Sec) : Bool := x.bankA.st == bkTrial || x.bankB.st == bkTrial

/-- R631: banks in TRIAL become FAILED. -/
def failTrials (x : Sec) : Sec :=
  let f (k : Bank2) : Bank2 := if k.st = bkTrial then { k with st := bkFailed } else k
  { x with bankA := f x.bankA, bankB := f x.bankB }

def bootable (e : Env) (b : Nat) : Bool := (bankOf e.sec b).st == bkCommitted && bankPasses e b

/-- The bank that the ROM boots (R631): COMMITTED, passing, the higher sequence first. -/
def bootBank (e : Env) : Option Nat :=
  if bootable e 0 ∧ (bootable e 1 = false ∨ imageField e.sec 0 (·.seq) ≥ imageField e.sec 1 (·.seq)) then some 0
  else if bootable e 1 then some 1 else none

/-- The lowest unretired slot of a slotted item (R627). -/
def liveSlot (x : Sec) (item : Nat) : Option Nat := (List.range 4).find? (fun k => !bitAt x.retired (4 * item + k))

/-- What the ROM writes into KEYSEL (R627): firmware root, memory root, link root. -/
def keySelWord (x : Sec) : Nat := (liveSlot x 0).getD 0 + 4 * (liveSlot x 1).getD 0 + 16 * (liveSlot x 2).getD 0

def execGetFwInfo (m : Mgr) (s : State) : Host.Outcome State Fault Refusal :=
  bmcOrHost m s (fun e w => (e, reply w m rcOk
    [e.sec.running, e.sec.bankA.st, imageField e.sec 0 (·.seq), imageField e.sec 0 (·.svn), e.sec.bankB.st,
     imageField e.sec 1 (·.seq), imageField e.sec 1 (·.svn)]))

/-- Transfer FW (R632, R653): into the bank that is not running; the reply tells whether the image passes R630. -/
def execTransferFw (m : Mgr) (img : FwImage) (s : State) : Host.Outcome State Fault Refusal :=
  bmcOnly m s (fun e w =>
    let st := if recovering e ∧ imagePasses e img then bkCommitted else bkStaged
    answer e w m true (setBank e.sec (1 - e.sec.running) { st := st, img := some img }) [if imagePasses e img then 1 else 0])

/-- Activate FW, online (R653, R654). -/
def execActivateFw (m : Mgr) (h : Nat) (s : State) : Host.Outcome State Fault Refusal :=
  bmcOnly m s (fun e w =>
    let b := 1 - e.sec.running
    let ok := (bankOf e.sec b).st == bkStaged && bankPasses e b && !trialOpen e.sec && decide (h ≥ e.clk.frame + 2) && e.sec.handover.isNone
    answer e w m ok { e.sec with handover := some h } [])

/-- The handover at B(h) (R654): record written, the staged body checked again, its bank in TRIAL and started. -/
def execFwHandover (s : State) : Host.Outcome State Fault Refusal :=
  whole s (fun e w =>
    match e.sec.handover with
    | some h =>
      if e.clk.frame < h then (e, w)
      else
        let b := 1 - e.sec.running
        let x := { e.sec with handover := none }
        if (bankOf x b).st = bkStaged ∧ bankPasses e b then
          let x := setBank x b { bankOf x b with st := bkTrial }
          ({ e with sec := { x with running := b, switching := true }, rst := { e.rst with record := true } }, w)
        else ({ e with sec := x }, w)
    | none => (e, w))

/-- The new firmware reads the handover record and writes its FW_BANK_SWITCH record. -/
def execFwBankSwitch (s : State) : Host.Outcome State Fault Refusal :=
  whole s (fun e w =>
    if e.sec.switching then
      ({ e with sec := { e.sec with switching := false }, rst := { e.rst with record := false } },
        raise e w { ty := 0x800D, dev := e.board, agent := 0x7F, specific := e.sec.running })
    else (e, w))

/-- FW_COMMIT (R655). -/
def execFwCommit (m : Mgr) (s : State) : Host.Outcome State Fault Refusal :=
  bmcOnly m s (fun e w =>
    let b := bankOf e.sec e.sec.running
    answer e w m (b.st == bkTrial) (setBank e.sec e.sec.running { b with st := bkCommitted }) [])

/-- SVN_ADVANCE (R633). -/
def execSvnAdvance (m : Mgr) (s : State) : Host.Outcome State Fault Refusal :=
  bmcOnly m s (fun e w =>
    answer e w m ((bankOf e.sec e.sec.running).st == bkCommitted)
      { e.sec with rollback := max e.sec.rollback (min (imageField e.sec e.sec.running (·.svn)) 64) } [])

/-- SLOT_RETIRE (R629): only in recovery mode; items 0 firmware root, 1 memory root, 2 link root. -/
def execSlotRetire (m : Mgr) (item slot : Nat) (s : State) : Host.Outcome State Fault Refusal :=
  bmcOnly m s (fun e w =>
    answer e w m (recovering e && decide (item < 3) && decide (slot < 4))
      { e.sec with retired := setBitAt e.sec.retired (4 * item + slot) true } [])

/-- ENROL_ARM (R643, R646): a board position, or the anchor with the given hash for a port. -/
def execEnrolArm (m : Mgr) (host : Bool) (pos hash : Nat) (s : State) : Host.Outcome State Fault Refusal :=
  bmcOnly m s (fun e w =>
    if host then answer e w m (decide (pos < 32)) 
      (sealRec e 1 { e.sec with anchors := mmod (hostAnchors e) pos [] (fun l => sadd l hash) }) []
    else answer e w m (decide (pos < 4)) { e.sec with armed := sadd e.sec.armed pos } [])

/-! ### Measurements, certificates, sessions (R634-R636) -/

/-- A measurement block (Table 17-4); digests are free functions of what they cover (log 9). -/
def measurement (e : Env) (w : Work) (index : Nat) : Option (List Nat) :=
  let x := e.sec
  let scopes := (x.debugs.filter (fun s => decide (e.clk.now < s.2.expires))).foldl (fun n s => n ||| s.2.scopes) 0
  if index = 1 then some [Config.digest [1]]
  else if index = 2 then
    some [Config.digest [2, imageField x x.running (·.seq), imageField x x.running (·.svn), imageField x x.running (·.bodyLen)]]
  else if index = 3 then some [imageField x x.running (·.svn), x.rollback]
  else if index = 4 then some [x.running, imageField x x.running (·.seq), (bankOf x x.running).st, keySel e]
  else if index = 5 then
    some [match debugAuthorityKey e with | some k => Config.digest [5, k] | none => 0, scopes, x.opened, if x.provisioned then 1 else 0]
  else if index = 6 then
    some [Config.digest (6 :: w.livF aQosCtl 16 16 :: w.liv aQosSlotMapBase :: w.liv (aQosSlotMapBase + 4) ::
      (List.range 48).map (fun k => w.liv (aQosPartTracts (k / 6) + 4 * (k % 6))))]
  else if index = 7 then
    some [Config.digest (7 :: (List.range 4).map (fun d => mgetD (boardMembers e) d 0) ++ (List.range 32).flatMap (fun p => p :: mgetD (hostAnchors e) p []))]
  else none

def execGetMeasurements (m : Mgr) (index : Nat) (s : State) : Host.Outcome State Fault Refusal :=
  bmcOrHost m s (fun e w => match measurement e w index with
    | some l => (e, reply w m rcOk l)
    | none => (e, reply w m rcRefused []))

/-- GET_CERTIFICATE (R634): slot 0 holds the device's chain, slots 1-7 are empty. -/
def execGetCertificate (m : Mgr) (slot : Nat) (s : State) : Host.Outcome State Fault Refusal :=
  bmcOrHost m s (fun e w => (e, if slot = 0 then reply w m rcOk [Config.digest [8]] else reply w m rcRefused []))

/-- CHALLENGE (R635): the signature over the requester's nonce. -/
def execChallenge (m : Mgr) (nonce : Nat) (s : State) : Host.Outcome State Fault Refusal :=
  bmcOrHost m s (fun e w => (e, reply w m rcOk [Config.digest [9, nonce]]))

/-- KEY_EXCHANGE (R635): at most 80 sessions. -/
def execKeyExchange (m : Mgr) (mutualAuth : Bool) (anchor : Nat) (s : State) : Host.Outcome State Fault Refusal :=
  bmcOrHost m s (fun e w =>
    if e.sec.sessions.length ≥ 80 then (e, reply w m rcLimit [])
    else
      let id := e.sec.nextSession
      answer e w m true
        { e.sec with sessions := mset e.sec.sessions id { who := m, mutualAuth := mutualAuth, anchor := anchor }, nextSession := id + 1 } [id])

def sessionOf (e : Env) (m : Mgr) (id : Nat) : Option Session := (mget e.sec.sessions id).filter (fun x => x.who == m)

def execHeartbeat (m : Mgr) (session : Nat) (s : State) : Host.Outcome State Fault Refusal :=
  bmcOrHost m s (fun e w => (e, reply w m (if (sessionOf e m session).isSome then rcOk else rcRefused) []))

def execKeyUpdate (m : Mgr) (session : Nat) (s : State) : Host.Outcome State Fault Refusal :=
  bmcOrHost m s (fun e w => match sessionOf e m session with
    | some x => answer e w m true { e.sec with sessions := mset e.sec.sessions session { x with updates := x.updates + 1 } } []
    | none => (e, reply w m rcRefused []))

/-- SET_CERTIFICATE and GET_CSR are not supported (R634). -/
def execSetCertificate (m : Mgr) (s : State) : Host.Outcome State Fault Refusal :=
  bmcOrHost m s (fun e w => (e, reply w m rcUnsupported []))

def execGetCsr (m : Mgr) (s : State) : Host.Outcome State Fault Refusal :=
  bmcOrHost m s (fun e w => (e, reply w m rcUnsupported []))

/-- The SPDM sessions of logical devices end (12 Table 12-10). -/
def dropSessions (e : Env) (as : List Nat) : Env :=
  { e with sec := { e.sec with sessions := e.sec.sessions.filter (fun x => !(as.any (fun a => x.2.who == .host a))) } }

/-! ### IDE keys (R643, 12 R478) -/

/-- IDE_KM is heard only in a mutually authenticated session of the logical device whose chain ends in an anchor enrolled for
its port. -/
def ideAllowed (e : Env) (a session : Nat) : Bool :=
  match sessionOf e (.host a) session with
  | some x => x.mutualAuth && (mgetD (hostAnchors e) (portOf a) []).contains x.anchor
  | none => false

/-- Streams: 0 the head's CXL.cachemem, 1 its CXL.io, 2 the logical device's selective one on a SHARED head. -/
def ideStream (w : Work) (a stream : Nat) : Bool := decide (stream < 2) || (stream == 2 && portMode w (portOf a) == 1)

/-- An IDE_KM request: `f` gives the stream's new key and whether it is active. -/
def ideKm (a session stream : Nat) (s : State) (f : Option (Nat × Bool) → Option (Nat × Bool)) : Host.Outcome State Fault Refusal :=
  serve s (fun e w =>
    if !reaches w (.host a) then w
    else if ideAllowed e a session && ideStream w a stream then
      match f (mget (w.ld a).ide stream) with
      | some k => reply (w.setLd a { w.ld a with ide := mset (w.ld a).ide stream k }) (.host a) rcOk []
      | none => reply w (.host a) rcRefused []
    else reply w (.host a) rcRefused [])

def execKeyProg (agent session stream key : Nat) (s : State) : Host.Outcome State Fault Refusal :=
  ideKm agent session stream s (fun k => some (key, match k with | some x => x.2 | none => false))

def execKSetGo (agent session stream : Nat) (s : State) : Host.Outcome State Fault Refusal :=
  ideKm agent session stream s (fun k => k.map (fun x => (x.1, true)))

def execKSetStop (agent session stream : Nat) (s : State) : Host.Outcome State Fault Refusal :=
  ideKm agent session stream s (fun k => k.map (fun x => (x.1, false)))

/-! ### Debug sessions (R656-R659) -/

/-- A requester as agent number in tokens and records: 0xFF the BMC. -/
def mgrAgent (m : Mgr) : Nat := match m with | .host a => a | _ => 0xFF

/-- The DEBUG_SESSION record: requester and scopes. -/
def debugRecord (e : Env) (w : Work) (m : Mgr) (scopes : Nat) : Work :=
  raise e w { ty := 0x800C, dev := e.board, agent := mgrAgent m, specific := scopes }

/-- DEBUG_AUTHORITY (R656). -/
def execDebugAuthority (m : Mgr) (key : Nat) (s : State) : Host.Outcome State Fault Refusal :=
  bmcOnly m s (fun e w => 
    answer e w m ((debugAuthorityKey e).isNone || recovering e) (sealRec e 2 { e.sec with authority := some key }) [])

/-- DEBUG_CHALLENGE (R657): a fresh nonce, a free value, the latest one of its requester. -/
def execDebugChallenge (m : Mgr) (s : State) : Host.Outcome State Fault Refusal :=
  bmcOrHost m s (fun e w =>
    let n := w.free.1
    answer e w.free.2 m true { e.sec with nonces := (m, n, e.clk.now) :: e.sec.nonces.filter (fun x => x.1 != m) } [n])

/-- The conditions on a token (R657, Table 17-9). -/
def tokenOk (e : Env) (m : Mgr) (t : DebugToken) : Bool :=
  (debugAuthorityKey e).isSome && t.sigOk && t.format == 1 && t.deviceOk && t.agent == mgrAgent m && t.board == e.board &&
  decide (1 ≤ t.seconds) && decide (t.seconds ≤ 86400) && decide (t.scopes < 32) && decide ((e.sec.debugs.filter (fun x => decide (e.clk.now < x.2.expires))).length < 4) &&
  e.sec.nonces.any (fun x => x.1 == m && x.2.1 == t.nonce && decide (e.clk.now ≤ x.2.2 + msPs 60000))

def execDebugOpen (m : Mgr) (t : DebugToken) (s : State) : Host.Outcome State Fault Refusal :=
  bmcOrHost m s (fun e w =>
    if tokenOk e m t then
      let id := e.sec.opened
      answer e (debugRecord e w m t.scopes) m true
        { e.sec with
          nonces := e.sec.nonces.filter (fun x => x.1 != m)
          debugs := mset e.sec.debugs id { who := m, scopes := t.scopes, expires := e.clk.now + msPs (1000 * t.seconds) }
          opened := id + 1 } [id]
    else (e, reply w m rcRefused []))

/-- Sessions that `sel` picks end, each with a record (R658). -/
def endDebug (e : Env) (w : Work) (sel : Nat × DebugSession → Bool) : Env × Work :=
  ({ e with sec := { e.sec with debugs := e.sec.debugs.filter (fun x => !sel x) } },
   (e.sec.debugs.filter sel).foldl (fun w x => debugRecord e w x.2.who x.2.scopes) w)

def execDebugClose (m : Mgr) (session : Nat) (s : State) : Host.Outcome State Fault Refusal :=
  bmcOrHost m s (fun e w =>
    if e.sec.debugs.any (fun x => x.1 == session && x.2.who == m) then
      let (e, w) := endDebug e w (fun x => x.1 == session)
      (e, reply w m rcOk [])
    else (e, reply w m rcRefused []))

def execDebugSessionExpiry (session : Nat) (s : State) : Host.Outcome State Fault Refusal :=
  whole s (fun e w => endDebug e w (fun x => x.1 == session && decide (x.2.expires ≤ e.clk.now)))

/-! ### Backup words in recovery mode (18 R675) -/

def execBackupWrite (m : Mgr) (n : Nat) (v : Word) (s : State) : Host.Outcome State Fault Refusal :=
  bmcOnly m s (fun e w =>
    if recovering e ∧ n < 16 then (e.setBackup n v.toNat, reply w m rcOk []) else (e, reply w m rcRefused []))

/-! ### The JTAG port (R660) -/

def jtagBypass : Nat := 1
def jtagIdcode : Nat := 2
def jtagSample : Nat := 3
def jtagExtest : Nat := 4
def jtagClamp : Nat := 5
def jtagHighz : Nat := 6
def jtagPulse : Nat := 7
def jtagTrain : Nat := 8

/-- The EXTEST family is decoded before provisioning, or in recovery mode under a JTAG-scope session. -/
def extestAllowed (e : Env) : Bool := !e.sec.provisioned || (recovering e && debugScope e 4)

/-- An instruction that is not decoded acts as BYPASS. -/
def jtagInstr (s : State) (op : Nat) (always : Bool) : Host.Outcome State Fault Refusal :=
  whole s (fun e w =>
    let ok := always || extestAllowed e
    ({ e with jtag := if ok then op else jtagBypass }, w.emit (.jtag op ok)))

def execIdcode (s : State) : Host.Outcome State Fault Refusal := jtagInstr s jtagIdcode true
/-- BYPASS, and any opcode that no other instruction has. -/
def execBypass (_opcode : Nat) (s : State) : Host.Outcome State Fault Refusal := jtagInstr s jtagBypass true
def execSamplePreload (s : State) : Host.Outcome State Fault Refusal := jtagInstr s jtagSample true
def execExtest (s : State) : Host.Outcome State Fault Refusal := jtagInstr s jtagExtest false
def execClamp (s : State) : Host.Outcome State Fault Refusal := jtagInstr s jtagClamp false
def execHighz (s : State) : Host.Outcome State Fault Refusal := jtagInstr s jtagHighz false
def execExtestPulse (s : State) : Host.Outcome State Fault Refusal := jtagInstr s jtagPulse false
def execExtestTrain (s : State) : Host.Outcome State Fault Refusal := jtagInstr s jtagTrain false

end Sys2Proof.Machine
end

