-- ==== Sys2Proof/Machine/Ports.lean ====
section
/-! DEFINITION. Host ports (12): enables, link training and loss, resets, logical devices, MSI-X and HDM decoders. -/

namespace Sys2Proof.Machine

/-! ### Ports, heads and logical devices (Table 12-1) -/

def ldsOfMode (mode p : Nat) : List Nat := if mode = 1 ∨ mode = 2 then [2 * p, 2 * p + 1] else [2 * p]
def headsOfMode (mode : Nat) : List Nat := if mode = 2 then [0, 1] else [0]

/-- The logical devices of a port and of one of its heads. -/
def portLds (w : Work) (p : Nat) : List Nat := ldsOfMode (portMode w p) p
def headLds (w : Work) (p h : Nat) : List Nat := (portLds w p).filter (fun a => headOf w a == h)

def setHead (w : Work) (p h st : Nat) : Work :=
  if h = 0 then w.setFld (aPortStatus p) 18 16 st else w.setFld (aPortStatus p) 21 19 st
def setHalf (w : Work) (p h v : Nat) : Work := w.setFld (aPortStatus p) (26 + h) (26 + h) v
def setFlit (w : Work) (p h v : Nat) : Work := w.setFld (aPortStatus p) (23 + 2 * h) (22 + 2 * h) v

def hdDown : Nat := 0
def hdTraining : Nat := 1
def hdIoOnly : Nat := 2
def hdUp : Nat := 3
def hdHeld : Nat := 4

/-- A port has been enabled and is not down yet: its enable reads 1, or its disable waits for a boundary (19 R735). -/
def portRuns (w : Work) (p : Nat) : Bool := w.fld (aPortCtl p) 31 31 == 1 || w.due.contains (.portOff p)

/-- A record that names a port. -/
def portOnly (e : Env) (w : Work) (p ty : Nat) : Work := raise e w { ty := ty, sev := 1, dev := e.board, agent := 2 * p, unit := p + 4 * 2 ^ 24 }

/-- The recovery port (18 R674, Table 18-5). -/
def recoveryPort (e : Env) : Nat := bitsOf (e.backupWord 6) 4 0

/-- The port is held in block reset, or the device is in recovery mode and this is not its recovery port. -/
def portBarred (e : Env) (w : Work) (p : Nat) : Bool := blockHeld w 2 p || (recovering e && p != recoveryPort e)

/-! ### Enable and disable of a port (R465, R468, 19 R735) -/

def portCheck (e : Env) (w : Work) (p : Nat) : Nat :=
  let mode := w.fld (aPortCtl p) 27 26
  if mode = 3 ∨ w.fld (aPortCtl p) 25 24 > 1 then 0x0401
  else if (match mget w.ports.modes p with | some m => m != mode | none => false) &&
      [2 * p, 2 * p + 1].any (fun a => !(w.ld a).extents.isEmpty) then 0x0402
  else if portBarred e w p then 0x0404
  else 0

def trainHeads (w : Work) (p : Nat) : Work :=
  (headsOfMode (portMode w p)).foldl (fun w h => setHead w p h hdTraining) w

/-- Grace periods after a warm reset run from the boundary at which the port becomes ready to train (05 R204). -/
def startGrace (e : Env) (w : Work) (p : Nat) : Work :=
  (portLds w p).foldl (fun w a =>
    let h := w.host e.board a
    if h.coh = .suspect ∧ h.deadline = none then w.setHost e.board a { h with deadline := some (e.clk.next + gracePs w) }
    else w) w

/-- A write of PORT[p].CTL. -/
def portCtlWrite (e : Env) (w : Work) (p v : Nat) : Work :=
  let on := w.fld (aPortCtl p) 31 31 == 1
  if on then
    (if bitAt v 31 then w else (w.setFld (aPortCtl p) 31 31 0).queue (.portOff p))
  else
    let off := w.due.contains (.portOff p)
    let w := if off then w else w.setMask (aPortCtl p) 0x0FE00000 v
    if !bitAt v 31 then w
    else
      let code := portCheck e w p
      let w := w.setFld (aPortStatus p) 15 0 code
      if code ≠ 0 then w
      else
        let w := w.setFld (aPortCtl p) 31 31 1
        if off then { w with due := w.due.filter (· != .portOff p) }
        else
          let w := { w with ports := { w.ports with modes := mset w.ports.modes p (w.fld (aPortCtl p) 27 26) } }
          startGrace e (trainHeads w p) p

def execPortEnable (p : Nat) (v : Word) (s : State) : Host.Outcome State Fault Refusal :=
  serve s (fun e w => portCtlWrite e w p (setBitAt v.toNat 31 true))

def execPortDisable (p : Nat) (v : Word) (s : State) : Host.Outcome State Fault Refusal :=
  serve s (fun e w => portCtlWrite e w p (setBitAt v.toNat 31 false))

/-! ### A head goes down (R486-R488, Table 12-8) -/

/-- The snoops of a relay that a host will not answer on this link are held. -/
def holdRelay (a : Nat) (y : Relay) : Relay :=
  { y with
    held := y.held ++ y.agents.filter (fun x => x % 64 == a)
    agents := y.agents.filter (fun x => x % 64 != a) }

/-- What a link loss does for one logical device: responses discarded, snoops held, streams ended, the host SUSPECT. -/
def linkLost (e : Env) (w : Work) (a : Nat) : Work :=
  let w := mapReqs w (fun r => r.dev == e.board && r.agent == a && r.tile == none && r.ans != .mute) (fun r => { r with ans := .down })
  let w := holdSent w (isHost e.board a)
  let w := { w with home := { w.home with relays := w.home.relays.map (holdRelay a) } }
  let w := w.setLd a { w.ld a with ide := (w.ld a).ide.map (fun x => (x.1, (x.2.1, false))) }
  queueSuspect e w a

/-- A head that carried traffic goes down. -/
def headDown (e : Env) (w : Work) (p h : Nat) : Work :=
  if headState w p h = hdUp ∨ headState w p h = hdIoOnly then
    let w := setHalf (setHead w p h hdDown) p h 0
    (headLds w p h).foldl (linkLost e) w
  else w

def execHeadDown (p head : Nat) (s : State) : Host.Outcome State Fault Refusal := serve s (fun e w => headDown e w p head)

/-- A failed integrity check takes the head down (R481). -/
def execIdeIntegrityFail (p head : Nat) (s : State) : Host.Outcome State Fault Refusal :=
  serve s (fun e w =>
    if (headLds w p head).any (fun a => (w.ld a).ide.any (fun x => x.2.2)) then headDown e w p head else w)

/-- Take every head of a port down. -/
def portDown (e : Env) (w : Work) (p : Nat) : Work :=
  (headsOfMode (portMode w p)).foldl (fun w h => setHead (headDown e w p h) p h hdDown) w

/-! ### A head has trained (R466, R467, R674) -/

/-- Waiting interrupts and a held mailbox result go out once a head is up (R485, Table 12-8). -/
def sendWaiting (w : Work) (a : Nat) : Work :=
  let l := w.ld a
  let now := l.msix.filter l.unmasked.contains
  let w := w.setLd a { l with msix := l.msix.filter (fun v => !l.unmasked.contains v), mbox := none }
  let w := now.foldl (fun w v => w.emit (.msix a v)) w
  match l.mbox with
  | some (c, r, o) => w.emit (.mbox a c r o)
  | none => w

/-- The flit mode a head runs in (Tables 12-2, 12-3): `flit` is what the partner agreed to. -/
def flitMode (w : Work) (p rate flit : Nat) : Nat :=
  if rate ≥ 64 ∧ w.fld (aPortCtl p) 25 24 = 0 then (if flit = 1 ∧ w.fld (aPortCtl p) 22 22 = 1 then 1 else 0)
  else if flit = 3 ∧ w.fld (aPortCtl p) 23 23 = 1 then 3 else 2

def headTrained (e : Env) (w : Work) (p h width rate flit : Nat) : Work :=
  if portRuns w p = false ∨ portBarred e w p = true ∨ (headsOfMode (portMode w p)).contains h = false ∨
      (headState w p h ≠ hdDown ∧ headState w p h ≠ hdTraining) then w
  else
    let full := if portMode w p = 2 then 8 else 16
    if width < full / 2 ∨ rate < 32 then
      let w := setHead w p h hdHeld
      let w := if width < full / 2 then portOnly e w p 0x7001 else w
      if rate < 32 then portOnly e w p 0x7003 else w
    else
      let half := decide (width < full)
      let w := setFlit (setHalf w p h (if half then 1 else 0)) p h (flitMode w p rate flit)
      let w := if half then portOnly e w p 0x7002 else w
      if recovering e then (headLds w p h).foldl sendWaiting (setHead w p h hdIoOnly)
      else (headLds w p h).foldl sendWaiting (setHead w p h hdUp)

def execHeadTrained (p head width rate flit : Nat) (s : State) : Host.Outcome State Fault Refusal :=
  serve s (fun e w => headTrained e w p head width rate flit)

/-! ### Enable and disable of a logical device (R490-R493, Table 12-4) -/

def ldCheck (e : Env) (w : Work) (p l : Nat) : Nat :=
  let mode := w.fld (aPortCtl p) 27 26
  if mode = 3 ∨ w.fld (aPortCtl p) 25 24 > 1 then 0x0401
  else if l = 1 ∧ mode = 0 then 0x0403
  else if portBarred e w p then 0x0404
  else if w.livF (aQosHostCtl (2 * p + l)) 30 30 = 0 then 0x0405
  else 0

/-- A write of PORT[p].LD_CTL[l]. -/
def ldCtlWrite (e : Env) (w : Work) (p l v : Nat) : Work :=
  let a := aPortLdCtl p l
  if w.fld a 31 31 = 1 then
    (if bitAt v 31 then w else (w.setReg a 0).queue (.ldOff (2 * p + l)))
  else if !bitAt v 31 then w
  else
    let code := ldCheck e w p l
    let w := w.setFld (aPortStatus p) 15 0 code
    if code ≠ 0 then w else (w.setReg a (2 ^ 31)).queue (.ldOn (2 * p + l))

def execLdEnable (p l : Nat) (s : State) : Host.Outcome State Fault Refusal := serve s (fun e w => ldCtlWrite e w p l (2 ^ 31))
def execLdDisable (p l : Nat) (s : State) : Host.Outcome State Fault Refusal := serve s (fun e w => ldCtlWrite e w p l 0)

/-- The rings of an owner stop (R491). -/
def stopRings (e : Env) (w : Work) (a : Nat) : Work :=
  ((w.mash.rings.map (·.1)).filter (fun r => ringOwner w r == a && ringState w r == 1)).foldl (fun w r =>
    match getRing w r with
    | some x => if x.stopping = none then stopRing e w r 2 else w
    | none => w) w

/-- An enable takes effect at its boundary (R493), with the record of R476. -/
def applyLdOn (e : Env) (w : Work) (a : Nat) : Work :=
  let w := w.setLd a { w.ld a with enabled := true }
  if (w.ld a).bi then w else portRecord e w a 0x7004

/-- A disable takes effect at boundary D (R490-R493): rings stop, what is outstanding is answered with errors, and the host is SUSPECT
from the next boundary on (05 R203, Table 12-9). -/
def applyLdOff (e : Env) (w : Work) (a : Nat) : Work :=
  if !(w.ld a).enabled then w
  else
    let w := w.setLd a { w.ld a with enabled := false, off := some e.clk.frame }
    let w := mapReqs w (fun r => r.dev == e.board && r.agent == a && r.tile == none && r.ans == .normal) (fun r => { r with ans := .error })
    queueSuspect e (stopRings e w a) a

/-- At the second boundary after D the wrapper answers what is left (R492). -/
def ldAnswer (e : Env) (w : Work) (a : Nat) : Work :=
  match (w.ld a).off with
  | none => w
  | some d =>
    if e.clk.frame < d + 2 then w
    else
      let w := w.setLd a { w.ld a with off := none }
      let (n, w) := wrapperAnswer e w (fun r => r.dev == e.board && r.agent == a && r.tile == none && r.ans == .error)
      if n = 0 then w
      else raise e w { ty := 0x7006, sev := 1, dev := e.board, agent := a, count := n, unit := portOf a + 4 * 2 ^ 24, host := some a }

def execLdDisableAnswer (agent : Nat) (s : State) : Host.Outcome State Fault Refusal := serve s (fun e w => ldAnswer e w agent)

/-! ### Resets of a port (R494, R495, Table 12-10; 19 R693) -/

/-- The CXL.io state that a Function Level Reset clears. -/
def clearIo (w : Work) (a : Nat) : Work :=
  (w.setLd a { w.ld a with unmasked := [], msix := [], mbox := none }).setHfld a hFaultHostCtl 31 31 0

/-- A CXL hot reset or CXL Reset of one logical device: state cleared, the device disabled. -/
def clearLd (e : Env) (w : Work) (a : Nat) : Work :=
  let w := clearIo w a
  let w := w.setLd a { w.ld a with hdmNext := some [], bi := false, ide := [] }
  queueSuspect e (ldCtlWrite e w (a / 2) (a % 2) 0) a

/-- The debug sessions of logical devices end (17 R658), and their SPDM sessions. -/
def endSessions (e : Env) (w : Work) (as : List Nat) : Env × Work :=
  endDebug (dropSessions e as) w (fun x => as.any (fun a => x.2.who == .host a))

def execCxlHotReset (p head : Nat) (s : State) : Host.Outcome State Fault Refusal :=
  whole s (fun e w =>
    if headState w p head = hdUp ∨ headState w p head = hdIoOnly then
      endSessions e ((headLds w p head).foldl (clearLd e) (headDown e w p head)) (headLds w p head)
    else (e, w))

def execCxlReset (agent : Nat) (s : State) : Host.Outcome State Fault Refusal :=
  whole s (fun e w => if ldExists w agent && headIo w agent then endSessions e (clearLd e w agent) [agent] else (e, w))

def execFunctionLevelReset (agent : Nat) (s : State) : Host.Outcome State Fault Refusal :=
  serve s (fun e w => if ldExists w agent && headIo w agent then stopRings e (clearIo w agent) agent else w)

/-! ### HDM decoders, MSI-X, persistent flush (R475, R485, Table 12-5) -/

/-- A decoder commit, applied at the next boundary at all resolution points (09 R370): one way, one of the 8 decoders; a host that commits an HDM-DB decoder has enabled back-invalidate
(log 13). -/
def execHdmDecoderCommit (agent idx hpa size lda ways : Nat) (s : State) : Host.Outcome State Fault Refusal :=
  serve s (fun e w => barIn e w agent (fun w =>
    if ways = 1 ∧ idx < 8 then
      let l := w.ld agent
      (w.setLd agent { l with hdmNext := some (mset (l.hdmNext.getD l.hdm) idx (hpa, size, lda)), bi := true }).emit (.decoder agent idx true)
    else w.emit (.decoder agent idx false)))

/-- Step 4 of Table 2-1: changed decoders come into force (09 R370). -/
def applyHdm (w : Work) : Work :=
  { w with ports := { w.ports with lds := w.ports.lds.map (fun x => match x.2.hdmNext with
      | some m => (x.1, { x.2 with hdm := m, hdmNext := none })
      | none => x) } }

def execMsixUnmask (agent vector : Nat) (s : State) : Host.Outcome State Fault Refusal :=
  serve s (fun e w => barIn e w agent (fun w =>
    if vector < 2048 then
      let l := w.ld agent
      let w := w.setLd agent { l with unmasked := sadd l.unmasked vector, msix := sdel l.msix vector }
      if l.msix.contains vector then w.emit (.msix agent vector) else w
    else w))

def execGlobalPersistentFlush (agent : Nat) (s : State) : Host.Outcome State Fault Refusal :=
  serve s (fun _ w => if ldReachable w agent then w.emit (.gpfAck agent) else w)

end Sys2Proof.Machine
end

