-- ==== Sys2Proof/Machine/Absence.lean ====
section
/-! DEFINITION. Absent and lost devices (06 R239-R247, 13 R526-R528, 04 R130-R134, 10 R424, R425). -/

namespace Sys2Proof.Machine

/-! ### Ports and peers (13 Table 13-1) -/

def Work.link (w : Work) (n : Nat) : Link := mgetD w.links.ports n {}
def Work.setLink (w : Work) (n : Nat) (l : Link) : Work := { w with links := { w.links with ports := mset w.links.ports n l } }
def Work.pair (w : Work) (d : Nat) : Pair := mgetD w.links.pairs d {}
def Work.setPair (w : Work) (d : Nat) (p : Pair) : Work := { w with links := { w.links with pairs := mset w.links.pairs d p } }

def setLinkState (w : Work) (n st : Nat) : Work := w.setFld (aDaothPortStatus n) 18 16 st
def setLinkReason (w : Work) (n code : Nat) : Work := w.setFld (aDaothPortStatus n) 15 0 code

/-- A link that starts anew keeps what waits for a boundary, and that its messages go on its sibling. -/
def freshLink (l : Link) : Link := { off := l.off, away := l.away }

/-- A link enters HELD with its reason (R533). -/
def holdLink (w : Work) (n code : Nat) : Work :=
  setLinkReason (setLinkState (w.setLink n (freshLink (w.link n))) n lkHeld) n code

/-! ### Absence (R239, R245) -/

def targetDev (d : Nat) (t : Target) : Bool :=
  match t with
  | .host x _ _ => x == d
  | .peer x _ => x == d

/-- PEER.CTL.host_hold in force, in ps. -/
def holdPs (w : Work) : Nat := msPs (max 500 (w.livF aPeerCtl 15 0))

/-- The hosts of device `d` become SUSPECT until the hold deadline, the first boundary at or after the instant held (R245). -/
def suspectHosts (e : Env) (w : Work) (d : Nat) : Work :=
  (List.range 64).foldl (fun w a =>
    if (w.host d a).coh = .active then
      w.setHost d a { coh := .suspect, since := e.clk.now, deadline := some (e.clk.now + holdPs w) }
    else w) w

/-- No working link to device `d` is left. -/
def peerAbsent (e : Env) (w : Work) (d : Nat) : Work :=
  if isAbsent w d || isLost w d then w
  else
    let w := { w with home := { w.home with absent := w.home.absent ++ [(d, e.clk.frame)] } }
    settleSlots (suspectHosts e w d)

/-- Releases owed to a device go out (10 R424). -/
def paySync (e : Env) (w : Work) (d : Nat) : Work :=
  let w' := { w with sync := { w.sync with owed := w.sync.owed.filter (fun x => x.1 != d) } }
  (w.sync.owed.filter (fun x => x.1 == d)).foldl (fun w x =>
    (carryDatum e w .answer d 0x7F).emit (.peer { op := 0x41, dev := d, args := [x.2.1, x.2.2.1, x.2.2.2.1, x.2.2.2.2] })) w'

/-- This device reports its LOST hosts to a device that has returned (R246). -/
def reportLost (e : Env) (w : Work) (d : Nat) : Work :=
  ((List.range 64).filter (isLostHost w <| holderOf e.board ·)).foldl (fun w a =>
    (carryDatum e w .request d 0x7F).emit (.peer { op := 0x50, dev := d, args := [a] })) w

/-- A device returns with its identity unchanged (R526): what was held goes on. Its hosts stay SUSPECT until it reports them
(R246). -/
def peerReturn (e : Env) (w : Work) (d : Nat) : Work :=
  let w := { w with home := { w.home with absent := w.home.absent.filter (fun x => x.1 != d) } }
  paySync e (settleSlots (releaseHeld e (reportLost e w d) (targetDev d))) d

/-! ### Loss (R527, R528, R243) -/

/-- Every near-cache line homed on device `d` is dropped (06 R243). -/
def dropHomed (w : Work) (d : Nat) : Work :=
  { w with pool := { w.pool with nc := w.pool.nc.filter (fun x => x.1 / 2 ^ 42 != d) } }

/-- Device `d` is declared lost: its held messages are discarded, LOST goes to the others, its links are held. What the homes do
follows at the next boundary. -/
def declareLost (e : Env) (w : Work) (d : Nat) : Work :=
  if isLost w d || d == e.board then w
  else
    let w := peerAbsent e w d
    let since := ((w.home.absent.find? (fun x => x.1 == d)).map (·.2)).getD e.clk.frame
    let hosts := w.home.hosts.map (fun x => (x.1, { x.2 with sweepsOpen := x.2.sweepsOpen.filter (· != d) }))
    let home := { w.home with
      absent := w.home.absent.filter (fun x => x.1 != d)
      lost := sadd w.home.lost d
      declared := w.home.declared ++ [(d, since)]
      hosts := hosts }
    let w := dropHomed { w with home := home } d
    let p := w.pair d
    let w := w.setPair d { run := p.run, lostRun := p.run, datum := p.datum }
    let others := (presentDevs e w).filter (fun x => x != e.board && x != d && !isLost w x)
    let w := others.foldl (fun w x => (carryDatum e w .request x 0x7F).emit (.peer { op := 0x53, dev := x, args := [d] })) w
    ((portsTo e d).filter (linkOn w)).foldl (fun w n => holdLink w n 0x0507) w

/-- Marks of the recent-write table at a promotion (04 R134). -/
def markRecent (e : Env) (w : Work) (d since : Nat) : Work :=
  let mine := w.pool.recent.filter (fun x => x.2.2.1 == d)
  let w := { w with pool := { w.pool with recent := w.pool.recent.filter (fun x => x.2.2.1 != d) } }
  (mine.filter (fun x => decide (since ≤ x.2.2.2 + 4))).foldl (fun w x =>
    p0SetBit e w (dirtyBase (cadEntry w x.1)) x.2.1 true) w

/-- A write that the lost device has not answered: refused, with a LINE_LOST record where its line has no promoted copy (04 R131, 06
R244). -/
def refuseSent (e : Env) (w : Work) (d : Nat) (r : Req) : Work :=
  let gone := match (reqLoc e w r).primary w with
    | some p => p.dev == d
    | none => true
  refuseReq e (if gone then lineLost e w r.acc r.line else w) r

/-- Requests sent to the lost device (04 R131, 06 R244): reads are resolved again, in RTY; writes are refused. -/
def recallSent (e : Env) (w : Work) (d : Nat) : Work :=
  let mine := w.home.forwarded.filter (fun x => x.1 == d)
  let w := { w with home := { w.home with forwarded := w.home.forwarded.filter (fun x => x.1 != d) } }
  let w := mine.foldl (fun w x =>
    let r := { x.2 with op := x.2.after.getD x.2.op, after := none, lat := 3, hops := 0 }
    match r.op with
    | .rd _ | .mashRd | .pRdCur => reresolve e w { r with rty := true }
    | _ => refuseSent e w d r) w
  dueConflicts e (dueProxy e (dueSnoops e w))

/-- Mirror writes of a line that await the lost device's acknowledgement complete here, with their plot marked (04 R133). -/
def ackLost (e : Env) (w : Work) (d line n : Nat) : Work :=
  match n with
  | 0 => w
  | k + 1 =>
    match findTxn w line with
    | some t =>
      if (match t.mirror with | some m => m.1 == d | none => (takingOf t d).isSome) then ackLost e (mirrorAcked e w t d true) d line k else w
    | none => w

/-- Transactions that wait for the lost device: mirror writes complete here, copies awaited are lost, snoops of its near cache are
answered (Table 6-6). Snoops of its hosts are held until the hosts are LOST or return (R245, 05 R207). -/
def freeTxns (e : Env) (w : Work) (d : Nat) : Work :=
  let w := w.home.txns.foldl (fun w t => ackLost e w d t.req.line (t.taking.length + 2)) w
  let w := (w.home.txns.filter (fun t => match t.copy with | some p => p.dev == d | none => false)).foldl (fun w t =>
    copyArrived e w t ⟨0, true⟩) w
  let w := releaseHeld e (holdSent w (targetDev d)) (fun t => match t with | .peer x _ => x == d | .host _ _ _ => false)
  if allLost w d then releaseHeld e w (targetDev d) else w

/-- Waiters of the lost device are removed (10 R424), and sync descriptors that wait at its engines are cancelled (R425). -/
def freeWaiters (e : Env) (w : Work) (d : Nat) : Work :=
  let w := { w with sync := { w.sync with owed := w.sync.owed.filter (fun x => x.1 != d) } }
  let w := (w.sync.waiters.filter (fun x => x.dev == d)).foldl (fun w x =>
    match objAt e w x.line with
    | some o => removeWaiter e w x o.parcel o.off none
    | none => dropWaiter w x) w
  ((w.mash.descs.map (·.2)).filter (fun x => x.engine == some d && x.phase == .held)).foldl (fun w x =>
    raise e (closeDesc w x stCancelled 0 0)
      { ty := 0x6006, dev := e.board, agent := ringOwner w x.ring, ctx := some (dCtx x.img), specific := dTag x.img
        host := some (ringOwner w x.ring) }) w

/-- A line whose entry names a parcel that this device serves in the promoted view for `d`. -/
def promotedFor (e : Env) (w : Work) (d line : Nat) : Bool :=
  let p := (dirGet w line).parcel
  eClass (cadEntry w p) == 3 && (match ownerOf e w line with
    | some o => isPromoted e w (ownReq e w .touch p o.off line) &&
        !isPromoted e { w with home := { w.home with promoted := w.home.promoted.filter (· != d) } } (ownReq e w .touch p o.off line)
    | none => false)

/-- The promoted device starts with no directory entries for the lines of which it is the home now (R248). -/
def clearPromoted (e : Env) (w : Work) (d : Nat) : Work :=
  ((sweepLines w (fun x => x.inUse && eClass (cadEntry w x.parcel) == 3)).filter (promotedFor e w d)).foldl (fun w l =>
    dirPut e w acctDev l {} false) w

/-- The first boundary after a declaration. -/
def applyLoss (e : Env) (w : Work) (d since : Nat) : Work :=
  let w := { w with home := { w.home with promoted := sadd w.home.promoted d, relays := w.home.relays.filter (fun y => y.dev != d) } }
  let w := openSweep e (lostSlots e (markRecent e (clearPromoted e w d) d since) d) d none
  settleSlots (freeWaiters e (recallSent e (freeTxns e w d) d) d)

def applyLosses (e : Env) (w : Work) : Work :=
  w.home.declared.foldl (fun w x => applyLoss e w x.1 x.2) { w with home := { w.home with declared := [] } }

/-- A TWIN entry of the parcel names one of the devices as its primary. -/
def namesPrimary (e : Env) (w : Work) (p : Nat) (ds : List Nat) : Bool :=
  eClass (cadEntry w p) == 3 && (parcelLeaves e w (cadEntry w p)).any (fun l => ds.contains (sPriDev l.bits))

/-- The promoted view ends for a device that is no longer lost once no TWIN entry names it as primary (04 R130); what was noted of
its parcels ends with it. -/
def endViews (e : Env) (w : Work) : Work :=
  if w.home.promoted.isEmpty then w
  else
    let ds := w.home.promoted.filter (fun d => isLost w d || w.pool.cad.any (fun x => namesPrimary e w x.1 [d]))
    { w with
      home := { w.home with promoted := ds }
      pool := { w.pool with
        cut := w.pool.cut.filter (fun x => namesPrimary e w x.parcel ds)
        recovered := w.pool.recovered.filter (fun p => namesPrimary e w p ds) } }

/-- A lost device is back with a new identity (R526): what named it has been treated, and the pair starts anew. Its hosts stay
as they are held until it reports them or the hold ends. -/
def peerBack (e : Env) (w : Work) (d : Nat) : Work :=
  let w := match w.home.declared.find? (fun x => x.1 == d) with
    | some x => applyLoss e { w with home := { w.home with declared := w.home.declared.filter (fun x => x.1 != d) } } d x.2
    | none => w
  let w := (sweepLines w (fun x => x.peers.contains d)).foldl (touchLost e d) w
  let w := { w with home := { w.home with lost := w.home.lost.filter (· != d) } }
  let p := w.pair d
  let kept := match p.run, p.lostRun with
    | some x, some y => x % 2 ^ 16 == y % 2 ^ 16
    | _, _ => false
  let w := returnSlots e (w.setPair d { run := p.run, datum := p.datum }) d kept
  settleSlots (releaseHeld e (reportLost e w d) (targetDev d))

end Sys2Proof.Machine
end

