-- ==== Sys2Proof/Machine/Links.lean ====
section
/-! DEFINITION. Daoth links (13): set-up, training and INIT, flits, credits, replay, failover; and the Vorir lanes (01 R22-R24,
15 R582). A PAYLOAD flit carries the one message that MESSAGE_SEND starts. -/

namespace Sys2Proof.Machine

/-! ### Classes, slots and credits (R505, R506, R511-R515) -/

def clsIx (c : Cls) : Nat := match c with | .req => 0 | .rsp => 1 | .snp => 2 | .rty => 3

/-- The classes that Table 13-7 allows an opcode; none for a reserved opcode. -/
def opClasses (op : Nat) : List Cls :=
  if (1 ≤ op ∧ op ≤ 0x0A) ∨ (0x10 ≤ op ∧ op ≤ 0x16) then [.req, .rty]
  else if op = 0x17 ∨ op = 0x1D ∨ (0x20 ≤ op ∧ op ≤ 0x25) ∨ op = 0x31 ∨ op = 0x41 ∨ op = 0x51 then [.rsp]
  else if 0x18 ≤ op ∧ op ≤ 0x1C then [.snp]
  else if op = 0x30 ∨ (0x32 ≤ op ∧ op ≤ 0x34) ∨ op = 0x40 ∨ op = 0x50 ∨ (0x52 ≤ op ∧ op ≤ 0x55) then [.req]
  else []

def slotsOf (m : MsgHead) : Nat := if m.hasData then 2 else 1

/-- Add to the count of class `c` in a list of four 16-bit counts. -/
def addCls (l : List Nat) (c n : Nat) : List Nat := l.set c ((l.getD c 0 + n) % 2 ^ 16)

def usedSlots (l : Link) (c : Nat) : Nat := (2 ^ 16 + l.cons.getD c 0 - l.freedIn.getD c 0) % 2 ^ 16
def overSlots (l : Link) (c : Nat) : Nat := usedSlots l c - 64
def sharedSlots (l : Link) : Nat := overSlots l 0 + overSlots l 1 + overSlots l 2 + overSlots l 3

/-- may_send (R513). -/
def maySend (l : Link) (c n : Nat) : Bool :=
  decide (usedSlots l c + n ≤ 64) || decide (sharedSlots l - overSlots l c + (usedSlots l c + n - 64) ≤ 1792)

/-- The receiver has a slot for a message (R514, R517). -/
def hasSlot (st : Nat) (occ : List Nat) (c n : Nat) : Bool :=
  if st = lkActive then
    let o := addCls occ c n
    decide (((List.range 4).map (fun i => o.getD i 0 - 64)).foldl (· + ·) 0 ≤ 1792)
  else decide (occ.getD c 0 + n ≤ 512)

/-! ### Sending flits -/

/-- A flit leaves; the pair bit alternates (Table 13-4). -/
def sendFlit (w : Work) (n kind a b c : Nat) : Work :=
  let l := w.link n
  (w.setLink n { l with pair := !l.pair, sent := l.sent + 1 }).emit (.flit n kind a b c)

/-- An unsequenced flit: the next sequence number and the advertised ack stand in its header. -/
def sendPlain (w : Work) (n kind c : Nat) : Work := sendFlit w n kind (w.link n).next (w.link n).ackOut c

def fkPayload : Nat := 1
def fkIdle : Nat := 2
def fkReplay : Nat := 3
def fkTiming : Nat := 4
def fkCtrl : Nat := 5

def linkLive (w : Work) (n : Nat) : Bool := linkState w n == lkInit || linkState w n == lkActive || linkState w n == lkTest

/-- U..S-1 are sent again (R520); REPLAYS counts the resend. -/
def resendHeld (w : Work) (n : Nat) : Work :=
  (w.link n).held.foldl (fun w x => sendFlit w n fkPayload x.seq (w.link n).ackOut 0) (w.inc (aDaothPortReplays n) 1)

/-! ### Link down and failover (R522-R525) -/

/-- A record that names a Daoth link. -/
def linkRecord (e : Env) (w : Work) (n ty sev : Nat) : Work :=
  raise e w { ty := ty, sev := sev, dev := e.board, agent := 0x7F, unit := n + 5 * 2 ^ 24 }

/-- The messages of which a chunk lies in an unacknowledged flit, in order. -/
def unacked (l : Link) : List MsgHead := l.held.flatMap (·.msgs)

/-- Traffic leaves an ACTIVE link: to its sibling, ahead of what is not yet sent, or into the frozen messages of the pair when
no link is left (R523, R239). -/
def leaveActive (e : Env) (w : Work) (n : Nat) : Work :=
  let d := peerDev e n
  let p := w.pair d
  let w := w.setPair d { p with frozen := p.frozen ++ unacked (w.link n) }
  if linkState w (sibling n) = lkActive then w else peerAbsent e w d

/-- A link is declared down (R522); `tell` sends LINK_FAIL on the sibling. -/
def linkDown (e : Env) (w : Work) (n : Nat) (tell : Bool) : Work :=
  if !linkLive w n then w
  else
    let was := linkState w n
    let w := setLinkState (linkRecord e w n 0x7009 1) n lkDown
    let w := if was = lkActive then leaveActive e w n
      else if was = lkTest then
        w.setPair (peerDev e n) { w.pair (peerDev e n) with frozen := (w.pair (peerDev e n)).frozen ++ unacked (w.link n) }
      else w
    let w := w.setLink n { freshLink (w.link n) with away := (w.link n).away || was != lkInit }
    if tell && linkState w (sibling n) == lkActive then
      (carryDatum e w .request (peerDev e n) 0x7F).emit (.peer { op := 0x52, dev := peerDev e n, args := [if n < 4 then 0 else 1] })
    else w

def execNoFlitTimeout (n : Nat) (s : State) : Host.Outcome State Fault Refusal := traffic s (fun e w => linkDown e w n true)
def execPhyLockLoss (n : Nat) (s : State) : Host.Outcome State Fault Refusal := traffic s (fun e w => linkDown e w n true)

/-- LINK_FAIL from the peer names a link, which this device declares down for its side (R522, R523). -/
def execLinkFail (dev link : Nat) (s : State) : Host.Outcome State Fault Refusal :=
  traffic s (fun e w =>
    if peerDev e link = dev ∧ linkState w (sibling link) = lkActive then linkDown e w link false else w)

/-- The link that a message is bound to (R507): A when bit 0 of the agents' XOR is 0, else B. -/
def boundPort (n : Nat) (m : MsgHead) : Nat := n % 4 + (if (m.srcAgent ^^^ m.dstAgent) % 2 = 0 then 0 else 4)

/-- LINK_FAIL, LOST and DEPART go on every ACTIVE link. -/
def everyLink (m : MsgHead) : Bool := decide (0x52 ≤ m.opcode) && decide (m.opcode ≤ 0x54)

/-- Whether link `n` carries a message now (R507, R523, R525, Table 13-2). -/
def carries (w : Work) (n : Nat) (m : MsgHead) : Bool :=
  if linkState w n = lkActive then
    let h := boundPort n m
    let homeUp := linkState w h == lkActive && !((w.link h).away && linkState w (sibling h) == lkActive)
    everyLink m || (if h = n then homeUp else !homeUp)
  else linkLive w n && m.srcAgent == 0x7F && m.dstAgent == 0x7F

/-- Traffic bound to a returned link moves back to it (R525). -/
def execLinkFailback (n : Nat) (s : State) : Host.Outcome State Fault Refusal :=
  traffic s (fun e w =>
    let l := w.link n
    if l.away ∧ linkState w n = lkActive ∧ l.since < e.clk.frame ∧
        (unacked (w.link (sibling n))).all (fun m => everyLink m || boundPort n m != n) = true then
      w.setLink n { l with away := false }
    else w)

/-! ### The transmitter (R507-R513, R518, R519) -/

/-- S is replaced, and the direction keys derived again from it, at the group whose count of sequenced flits is a non-zero
multiple of 2^38 (17 R647): the number of replacements once flit `count` is taken. -/
def keyAt (key count : Nat) : Nat := if count ≠ 0 ∧ count % 2 ^ 38 = 0 then key + 1 else key

/-- A direction's key and salt from S: HMAC-SHA-512 of "DIR" (2) and the board numbers, bytes 0-31 and 32-35 (17 R645). -/
def dirKey (s : BitVec 512) (src dst : Nat) : DirKey :=
  let h := Config.hmac s.toNat [2, src, dst]
  ⟨s, src, dst, h.extractLsb' 0 256, h.extractLsb' 256 32⟩

/-- The direction key under which flit `count` goes: derived again from the next S, HMAC-SHA-512 of "KLUPD" (3), where R647 replaces it. -/
def dirKeyAt (k : DirKey) (count : Nat) : DirKey :=
  if count ≠ 0 ∧ count % 2 ^ 38 = 0 then dirKey (Config.hmac k.secret.toNat [3]) k.src k.dst else k

/-- The next sequenced flit, which holds chunks of `ms`: kept for replay and counted (R508, R519, 17 R647). -/
def holdFlit (l : Link) (ms : List MsgHead) : Link :=
  { l with held := l.held ++ [⟨l.next, ms⟩], next := (l.next + 1) % 4096, keyOut := keyAt l.keyOut l.flits
           outKey := l.outKey.map (dirKeyAt · l.flits), flits := l.flits + 1 }

/-- Send one message in a new PAYLOAD flit. -/
def sendMsg (w : Work) (n : Nat) (m : MsgHead) : Work :=
  let l := w.link n
  let l := if linkState w n = lkActive then { l with cons := addCls l.cons (clsIx m.cls) (slotsOf m) } else l
  let w := w.setLink n (holdFlit l [m])
  sendFlit w n fkPayload l.next l.ackOut m.e2e

/-- Flow control lets a message start (R513, R518, R519). -/
def canStart (w : Work) (n : Nat) (m : MsgHead) : Bool :=
  let l := w.link n
  decide (l.held.length < 512) &&
  (if linkState w n = lkActive then maySend l (clsIx m.cls) (slotsOf m) else !bitAt l.xoffIn (clsIx m.cls))

/-- In PARTITIONED mode a message of a host's agent goes in a slot of its partition (11 R460, log 188). -/
def slotOpen (e : Env) (w : Work) (m : MsgHead) : Bool := decide (64 ≤ m.srcAgent) || slotOwned e w (slotAt e e.clk.now) m.srcAgent

/-- A message of this device for the peer of port `n`: numbered by the pair (R524), unless it is a second copy of one that every
link carries. -/
def numbered (p : Pair) (m : MsgHead) : MsgHead × Pair :=
  let c := clsIx m.cls
  let k := p.nextSeq.getD c 0
  if everyLink m && m.e2e + 1 == k then (m, p)
  else ({ m with e2e := k }, { p with nextSeq := p.nextSeq.set c ((k + 1) % 2 ^ 32) })

/-- The queued messages of a failed link go first, in order and with their numbers (R523, R526). -/
def execMessageSend (n : Nat) (m : MsgHead) (s : State) : Host.Outcome State Fault Refusal :=
  traffic s (fun e w =>
    let d := peerDev e n
    let p := w.pair d
    if m.srcDev ≠ e.board ∨ m.dstDev ≠ d ∨ carries w n m = false ∨ canStart w n m = false ∨ slotOpen e w m = false then w
    else match (if linkState w n = lkActive then p.frozen.find? (carries w n) else none) with
      | some x =>
        if { m with e2e := x.e2e } = x then sendMsg (w.setPair d { p with frozen := p.frozen.erase x }) n x else w
      | none =>
        let (m, p) := numbered p m
        sendMsg (w.setPair d p) n m)

/-- A partial group is completed with flits that hold only PAD (R509). -/
def padFlits (w : Work) (n fuel : Nat) : Work :=
  match fuel with
  | 0 => w
  | k + 1 =>
    let l := w.link n
    if l.next % 4 = 0 ∨ l.held.length ≥ 512 then w
    else
      let w := w.setLink n (holdFlit l [])
      padFlits (sendFlit w n fkPayload l.next l.ackOut 0) n k

def execGroupPad (n : Nat) (s : State) : Host.Outcome State Fault Refusal :=
  traffic s (fun _ w => if linkState w n = lkActive ∨ linkState w n = lkTest then padFlits w n 3 else w)

/-! ### Headers (R503, R515, R517, R520) -/

/-- Flits that ack `a` covers leave the replay buffer. -/
def takeAck (l : Link) (a : Nat) : Link :=
  match l.held with
  | [] => l
  | x :: _ =>
    let k := (4097 + a - x.seq) % 4096
    if k = 0 ∨ k > l.held.length then l else { l with held := l.held.drop k, resends := 0 }

/-- A reported freed count is taken when it is at most 2,048 ahead (R515). -/
def takeFreed (l : Link) (c v : Nat) : Link :=
  if (2 ^ 16 + v - l.freedIn.getD c 0) % 2 ^ 16 ≤ 2048 then { l with freedIn := l.freedIn.set c (v % 2 ^ 16) } else l

/-- The xoff bits of a header, REQ in bit 0 up to RTY in bit 3 (Table 13-4). -/
def xoffOf (f : FlitHdr) : Nat :=
  bitsOf f.freedA 13 13 + 2 * bitsOf f.freedA 14 14 + 4 * bitsOf f.freedA 15 15 + (if f.pair then 8 else 0)

def takeHeader (w : Work) (n : Nat) (f : FlitHdr) : Work :=
  let l := takeAck (w.link n) f.ack
  let l := if linkState w n = lkActive then
      (if f.pair then takeFreed (takeFreed l 2 f.freedA) 3 f.freedB else takeFreed (takeFreed l 0 f.freedA) 1 f.freedB)
    else { l with xoffIn := xoffOf f }
  w.setLink n l

/-- request_replay (R520). -/
def askReplay (w : Work) (n : Nat) : Work :=
  let l := w.link n
  if l.asking = 0 then sendFlit (w.setLink n { l with asking := 1 }) n fkReplay l.expect l.ackOut 0 else w

/-- A flit of another type than PAYLOAD. -/
def rxPlain (w : Work) (n : Nat) (f : FlitHdr) (replay : Bool) (k : Work → Work) : Work :=
  if !linkLive w n then w
  else if !f.crcOk then askReplay (w.inc (aDaothPortCrcErr n) 1) n
  else
    let w := takeHeader w n f
    k (if !replay && f.seq != (w.link n).expect then askReplay w n else w)

def execIdle (n : Nat) (f : FlitHdr) (s : State) : Host.Outcome State Fault Refusal :=
  traffic s (fun _ w => rxPlain w n f false id)

/-- In TEST, firmware's patterns are received and their failures counted (R533). -/
def execTestPattern (n : Nat) (f : FlitHdr) (s : State) : Host.Outcome State Fault Refusal :=
  traffic s (fun _ w => rxPlain w n f false id)

/-- Send the held flits again, or declare the link down at the 4th resend of one U (R520). -/
def resendOrDown (e : Env) (w : Work) (n : Nat) : Work :=
  let l := w.link n
  if l.resends ≥ 3 then linkDown e w n true else resendHeld (w.setLink n { l with resends := l.resends + 1 }) n

def execReplayReq (n : Nat) (f : FlitHdr) (s : State) : Host.Outcome State Fault Refusal :=
  traffic s (fun e w => rxPlain w n f true (fun w =>
    let l := w.link n
    let u := match l.held with | x :: _ => x.seq | [] => l.next
    let k := (4096 + f.seq - u) % 4096
    if k > l.held.length then linkDown e w n true
    else
      let w := if k = 0 then w else w.setLink n { l with held := l.held.drop k, resends := 0 }
      if (w.link n).held.isEmpty then w else resendOrDown e w n))

def execReplayTimeout (n : Nat) (s : State) : Host.Outcome State Fault Refusal :=
  traffic s (fun e w => if linkLive w n && !(w.link n).held.isEmpty then resendOrDown e w n else w)

def execReplayReqRepeat (n : Nat) (s : State) : Host.Outcome State Fault Refusal :=
  traffic s (fun e w =>
    let l := w.link n
    if !linkLive w n || l.asking == 0 then w
    else
      let w := sendFlit (w.setLink n { l with asking := l.asking + 1 }) n fkReplay l.expect l.ackOut 0
      if l.asking + 1 ≥ 4 then linkDown e w n true else w)

/-! ### PAYLOAD flits and their messages (R505, R510, R514, R520, R521, R524) -/

/-- The slots of a message are freed. -/
def freeSlots (w : Work) (n : Nat) (m : MsgHead) : Work :=
  let l := w.link n
  let c := clsIx m.cls
  w.setLink n { l with occ := l.occ.set c (l.occ.getD c 0 - slotsOf m), freed := addCls l.freed c (slotsOf m)
                       unreported := l.unreported + slotsOf m }

/-- Advance the base over the numbers already marked. -/
def advanceBase (b : Nat) (seen : List Nat) (fuel : Nat) : Nat × List Nat :=
  match fuel with
  | 0 => (b, seen)
  | k + 1 => if seen.contains b then advanceBase ((b + 1) % 2 ^ 32) (seen.filter (· != b)) k else (b, seen)

/-- Whether a message is new; the pair with it marked (R524). A number is below the base when it lies in the half of the 32-bit circle
behind it. -/
def noteE2e (p : Pair) (m : MsgHead) : Bool × Pair :=
  let c := clsIx m.cls
  let b := p.base.getD c 0
  let seen := p.seen.getD c []
  if 2 ^ 31 ≤ (2 ^ 32 + m.e2e - b) % 2 ^ 32 ∨ seen.contains m.e2e = true then (false, p)
  else
    let (b, seen) := advanceBase b (m.e2e :: seen) (seen.length + 2)
    (true, { p with base := p.base.set c b, seen := p.seen.set c seen })

/-- A verified message reaches the device: duplicates and messages of reserved opcodes, classes or agents are dropped. -/
def releaseMsg (e : Env) (w : Work) (n : Nat) (m : MsgHead) : Work :=
  let d := peerDev e n
  let w := freeSlots w n m
  let (new, p) := noteE2e (w.pair d) m
  if !new then w.inc (aDaothPortDups n) 1
  else if !(opClasses m.opcode).contains m.cls || !agentKnown m.srcAgent || !agentKnown m.dstAgent then
    dropRecord e (w.setPair d p) n m.srcDev (if agentKnown m.srcAgent then m.dstAgent else m.srcAgent)
  else w.setPair d p

/-- Slots for the messages of an accepted flit, none when one has no slot. -/
def takeSlots (st : Nat) (occ : List Nat) (ms : List MsgHead) : Option (List Nat) :=
  match ms with
  | [] => some occ
  | m :: t => if hasSlot st occ (clsIx m.cls) (slotsOf m) then takeSlots st (addCls occ (clsIx m.cls) (slotsOf m)) t else none

/-- A PAYLOAD flit with the number expected is accepted; in INIT, which has no groups, its messages are released at once. -/
def acceptFlit (e : Env) (w : Work) (n : Nat) (msgs : List MsgHead) : Work :=
  let l := w.link n
  match takeSlots (linkState w n) l.occ msgs with
  | none => linkDown e w n true
  | some occ =>
    let l := { l with occ := occ, expect := (l.expect + 1) % 4096, asking := 0, unadv := l.unadv + 1
                      keyIn := keyAt l.keyIn l.got, inKey := l.inKey.map (dirKeyAt · l.got), got := l.got + 1 }
    if linkState w n = lkInit then
      msgs.foldl (fun w m => releaseMsg e w n m) (w.setLink n { l with verified := (4095 + l.expect) % 4096 })
    else w.setLink n { l with group := l.group ++ msgs, inGroup := l.inGroup + 1 }

def execPayloadFlit (n : Nat) (f : FlitHdr) (msgs : List MsgHead) (s : State) : Host.Outcome State Fault Refusal :=
  traffic s (fun e w =>
    if !linkLive w n then w
    else if !f.crcOk then askReplay (w.inc (aDaothPortCrcErr n) 1) n
    else
      let w := takeHeader w n f
      let d := (4096 + (w.link n).expect - f.seq) % 4096
      if d = 0 then acceptFlit e w n msgs else if d ≤ 2048 then w else askReplay w n)

/-- The tag of a complete group: its messages are released, or discarded with the link declared down (R510). -/
def execPayloadMessage (n : Nat) (tagOk : Bool) (s : State) : Host.Outcome State Fault Refusal :=
  traffic s (fun e w =>
    let l := w.link n
    if ¬(linkState w n = lkActive ∨ linkState w n = lkTest) ∨ l.inGroup = 0 ∨ l.expect % 4 ≠ 0 then w
    else
      let w := w.setLink n { l with group := [], inGroup := 0 }
      if tagOk then
        let w := w.setLink n { w.link n with verified := (4095 + l.expect) % 4096 }
        l.group.foldl (fun w m => releaseMsg e w n m) w
      else linkDown e (linkRecord e (l.group.foldl (fun w m => freeSlots w n m) w) n 0x7008 1) n true)

/-! ### IDLE flits of the receiver (R516, R517, R522) -/

def execAckAdvance (n elapsedNs : Nat) (s : State) : Host.Outcome State Fault Refusal :=
  traffic s (fun _ w =>
    let l := w.link n
    if linkLive w n && decide (l.unadv ≥ 16 ∨ (64 ≤ elapsedNs ∧ l.unadv ≠ 0)) && l.ackOut != l.verified then
      sendPlain (w.setLink n { l with ackOut := l.verified, unadv := (4095 + l.expect - l.verified) % 4096 }) n fkIdle 0
    else w)

def execCreditReturnIdle (n elapsedNs : Nat) (s : State) : Host.Outcome State Fault Refusal :=
  traffic s (fun _ w =>
    let l := w.link n
    if linkState w n = lkActive ∧ (l.unreported ≥ 32 ∨ (64 ≤ elapsedNs ∧ l.unreported ≠ 0)) then
      sendPlain (w.setLink n { l with unreported := 0 }) n fkIdle 0
    else w)

def execXoffChange (n : Nat) (c : Cls) (s : State) : Host.Outcome State Fault Refusal :=
  traffic s (fun _ w =>
    let l := w.link n
    let k := clsIx c
    let room := 512 - l.occ.getD k 0
    if ¬(linkState w n = lkInit ∨ linkState w n = lkTest) then w
    else if bitAt l.xoffOut k = false ∧ room ≤ 256 then
      sendPlain (w.setLink n { l with xoffOut := setBitAt l.xoffOut k true }) n fkIdle 0
    else if bitAt l.xoffOut k = true ∧ 384 ≤ room then
      sendPlain (w.setLink n { l with xoffOut := setBitAt l.xoffOut k false }) n fkIdle 0
    else w)

def execKeepalive (n : Nat) (s : State) : Host.Outcome State Fault Refusal :=
  traffic s (fun _ w => if linkLive w n then sendPlain w n fkIdle 0 else w)

/-! ### Set-up (R498, R533; 19 R699, R735) -/

def daothCheck (e : Env) (w : Work) (n : Nat) : Nat :=
  let ms := w.fld aDaothCtl 19 16
  if !bitAt ms e.board || n % 4 == 3 || !bitAt ms (peerDev e n) then 0x0501
  else if blockHeld w 5 n then 0x0506
  else 0

/-- A link starts training; STATUS.peer names its peer. -/
def startTraining (e : Env) (w : Work) (n : Nat) : Work :=
  setLinkState (w.setFld (aDaothPortStatus n) 23 22 (peerDev e n)) n lkTraining

/-- A write of DAOTH[n].CTL. -/
def daothCtlWrite (e : Env) (w : Work) (n v : Nat) : Work :=
  let a := aDaothPortCtl n
  let w := w.setFld a 30 30 (bitsOf v 30 30)
  if w.fld a 31 31 = 1 then
    (if bitAt v 31 then w else (w.setFld a 31 31 0).setLink n { w.link n with off := true })
  else if !bitAt v 31 then w
  else
    let code := daothCheck e w n
    let w := setLinkReason w n code
    if code ≠ 0 then w
    else
      let w := w.setFld a 31 31 1
      if (w.link n).off then w.setLink n { w.link n with off := false } else startTraining e w n

def execDaothEnable (n : Nat) (v : Word) (s : State) : Host.Outcome State Fault Refusal :=
  traffic s (fun e w => daothCtlWrite e w n (setBitAt v.toNat 31 true))

def execDaothDisable (n : Nat) (v : Word) (s : State) : Host.Outcome State Fault Refusal :=
  traffic s (fun e w => daothCtlWrite e w n (setBitAt v.toNat 31 false))

def execDaothTestSet (n : Nat) (s : State) : Host.Outcome State Fault Refusal :=
  traffic s (fun e w => daothCtlWrite e w n (setBitAt (w.reg (aDaothPortCtl n)) 30 true))

def execDaothTestClear (n : Nat) (s : State) : Host.Outcome State Fault Refusal :=
  traffic s (fun e w => daothCtlWrite e w n (setBitAt (w.reg (aDaothPortCtl n)) 30 false))

/-! ### Training and INIT (R499-R501, R526-R532; 17 R644-R646) -/

/-- A link enters INIT: IDENT and 16 PROBE flits leave, and the initiator opens the session exchange. -/
def enterInit (e : Env) (w : Work) (n : Nat) : Work :=
  let d := peerDev e n
  let w := setLinkState (w.setLink n (freshLink (w.link n))) n lkInit
  let w := sendPlain w n fkCtrl 0x01
  let w := (List.range 16).foldl (fun w _ => sendPlain w n fkCtrl 0x02) w
  if e.board < d then
    let (x, w) := w.free
    (carryDatum e (w.setPair d { w.pair d with step := 1, eph := x, transcript := [Config.publicKey x, Config.identity] }) .request d
      0x7F).emit (.peer { op := 0x55, dev := d, args := [1, Config.publicKey x, Config.identity] })
  else w.setPair d { w.pair d with step := 0 }

def execLinkTrained (n width rate : Nat) (s : State) : Host.Outcome State Fault Refusal :=
  traffic s (fun e w =>
    if linkState w n ≠ lkTraining then w
    else if width < 8 ∨ rate < 64 then holdLink w n 0x0505
    else
      let half := decide (width < 16)
      let w := w.setFld (aDaothPortStatus n) 21 21 (if half then 1 else 0)
      enterInit e (if half then linkRecord e w n 0x7007 1 else w) n)

/-- The checks of an IDENT that this device can make at once, in the order of their codes. -/
def identCheck (e : Env) (w : Work) (n : Nat) (x : IdentInfo) : Nat :=
  let d := peerDev e n
  if x.board ≠ d ∨ x.port ≠ peerIndex d e.board + n / 4 * 4 then 0x0502
  else if isLost w d ∧ (w.pair d).lostRun = some x.runId then 0x0507
  else if x.members ≠ w.fld aDaothCtl 19 16 then 0x0508
  else 0

/-- A link that is held for a lost peer sees a new run identity (R528). -/
def wakes (e : Env) (w : Work) (n : Nat) (x : IdentInfo) : Bool :=
  linkState w n == lkHeld && w.fld (aDaothPortStatus n) 15 0 == 0x0507 && linkOn w n && (w.pair (peerDev e n)).lostRun != some x.runId

/-- TWIN parcels that this device serves in the promoted view for `d` with plots set in their bitmaps: one record each, whose count
is the number of those plots and whose address is that of the bitmap (R530). -/
def divergedRecs (e : Env) (w : Work) (d : Nat) : List FaultRec :=
  if !w.home.promoted.contains d then []
  else (w.pool.cad.map (·.1)).filterMap (fun p =>
    let x := cadEntry w p
    let n := ((List.range (eSize x)).filter (p0Bit e w (dirtyBase x))).length
    if eClass x = 3 ∧ eState x ≠ stFree ∧ n ≠ 0 ∧ (parcelLeaves e w x).any (fun l => sPriDev l.bits == d) = true then
      some { ty := 0x200A, sev := 1, parcel := p, dev := e.board, agent := 0x7F, count := n, addr := dirtyBase x }
    else none)

/-- IDENT from the peer (R501, R526, R530). -/
def identIn (e : Env) (w : Work) (n : Nat) (x : IdentInfo) : Env × Work :=
  let d := peerDev e n
  let code := identCheck e w n x
  if code = 0x0507 then
    (if (presentDevs e w).length = 2 ∧ d < e.board then
      (startEntry e 5 e.clk.now, holdLink ((divergedRecs e w d).foldl (raise e) w) n code)
     else (e, holdLink w n code))
  else if code ≠ 0 then (e, holdLink w n code)
  else
    let changed := match (w.pair d).run with | some r => r != x.runId | none => false
    let l := w.link n
    let st := linkState w n
    let w := if changed then declareLost e w d else w
    let w := setLinkState (w.setLink n { l with identOk := true }) n st
    (e, w.setPair d { w.pair d with run := some x.runId })

def execIdent (n : Nat) (f : FlitHdr) (x : IdentInfo) (s : State) : Host.Outcome State Fault Refusal :=
  whole s (fun e w =>
    if !mainRuns e then (e, w)
    else
      let w := if f.crcOk && wakes e w n x then enterInit e w n else w
      let w := rxPlain w n f false id
      if f.crcOk && linkState w n == lkInit then identIn e w n x else (e, w))

/-- PROBE is answered with ECHO (R532). -/
def execProbe (n : Nat) (f : FlitHdr) (turnaround : Nat) (s : State) : Host.Outcome State Fault Refusal :=
  traffic s (fun _ w => rxPlain w n f false (fun w =>
    if linkState w n = lkInit then sendFlit w n fkCtrl (w.link n).next turnaround 0x03 else w))

/-- ECHO: half the least round trip less turnaround is the link delay, in 0.25 ns (R532); above 500 ns the link is held. -/
def execEcho (n : Nat) (f : FlitHdr) (roundTrip turnaround : Nat) (s : State) : Host.Outcome State Fault Refusal :=
  traffic s (fun _ w => rxPlain w n f false (fun w =>
    if linkState w n ≠ lkInit then w
    else
      let l := w.link n
      let t := match l.trip with | some x => min x (roundTrip - turnaround) | none => roundTrip - turnaround
      let w := (w.setLink n { l with echoes := l.echoes + 1, trip := some t }).setFld (aDaothPortDelay n) 15 0 (t / 2)
      if l.echoes + 1 ≥ 16 ∧ t > 2000 then holdLink w n 0x0504 else w))

/-- INIT is complete but for CREDIT_INIT. -/
def initDone (l : Link) : Bool := l.identOk && decide (16 ≤ l.echoes) && l.session

/-- CREDIT_INIT: all counts are zero and the link is ACTIVE (R512); an absent peer has returned (R526). -/
def execCreditInit (n : Nat) (f : FlitHdr) (s : State) : Host.Outcome State Fault Refusal :=
  traffic s (fun e w => rxPlain w n f false (fun w =>
    if linkState w n ≠ lkInit ∨ initDone (w.link n) = false then w
    else
      let d := peerDev e n
      let w := sendPlain w n fkCtrl 0x04
      let z := [0, 0, 0, 0]
      let w := w.setLink n
        { w.link n with cons := z, freedIn := z, freed := z, occ := z, unreported := 0, flits := 0, got := 0, since := e.clk.frame }
      let w := setLinkReason (setLinkState w n lkActive) n 0
      if isLost w d then peerBack e w d else if isAbsent w d then peerReturn e w d else settleSlots (claimAgain e w d)))

/-- The peer's identity key against the membership record (17 R646): the state after it, none when it fails. -/
def memberOk (e : Env) (d hash : Nat) : Option Env :=
  match mget (boardMembers e) d with
  | some h => if h = hash then some e else none
  | none =>
    if e.sec.armed.contains d then
      some { e with sec := sealRec e 0 { e.sec with members := mset (boardMembers e) d hash, armed := sdel e.sec.armed d } }
    else none

/-- S (17 R645): HMAC-SHA-512 of "KLDAOTH" (1) and the transcript's digest, under the secret that both ends share. -/
def sessionSecret (eph peerKey : Nat) (transcript : List Nat) : BitVec 512 :=
  Config.hmac (Config.ecdh eph peerKey) [1, Config.digest transcript]

/-- The session of a link: the direction keys of both ends. -/
def openSession (e : Env) (d : Nat) (s : BitVec 512) (l : Link) : Link :=
  { l with session := true, outKey := some (dirKey s e.board d), inKey := some (dirKey s d e.board) }

/-- A message of a peer for Datum: dropped when one of its agent IDs is reserved (01 R34). -/
def peerWhole (h : Hdr) (s : State) (f : Env → Work → Env × Work) : Host.Outcome State Fault Refusal :=
  whole s (fun e w =>
    if !mainRuns e || h.dev == e.board then (e, w)
    else match [h.src, h.dst].find? (fun a => !agentKnown a) with
      | some a => (e, dropRecord e w (msgPort e w h.dev h.src h.dst) h.dev a)
      | none => f e w)

/-- DATUM: the session exchange of a pair with a link in INIT (17 R644), else a message between firmwares (17 R624). -/
def datumIn (e : Env) (w : Work) (d step : Nat) (ok : Bool) (hash key sig : Nat) : Env × Work :=
  let ns := (portsTo e d).filter (fun n => linkState w n == lkInit)
  let p := w.pair d
  let fail (w : Work) : Work := ns.foldl (fun w n => holdLink w n 0x0503) w
  let say (w : Work) (k eph : Nat) (tr args : List Nat) : Work :=
    (carryDatum e (w.setPair d { w.pair d with step := k, eph := eph, transcript := tr }) .request d 0x7F).emit
      (.peer { op := 0x55, dev := d, args := k :: args })
  let done (w : Work) (peerKey : Nat) (tr : List Nat) : Work :=
    ns.foldl (fun w n => w.setLink n (openSession e d (sessionSecret p.eph peerKey tr) (w.link n))) w
  if ns.isEmpty then (e, w.setPair d { p with datum := p.datum + 1 })
  else if d < e.board ∧ step = 1 then
    match memberOk e d hash with
    | some e =>
      let (x, w) := w.free
      let tr := [key, hash, Config.publicKey x, Config.identity]
      let own := Config.signature tr
      (e, say w 2 x (tr ++ [own]) [Config.publicKey x, Config.identity, own])
    | none => (e, fail w)
  else if e.board < d ∧ step = 2 ∧ p.step = 1 then
    match (if ok then memberOk e d hash else none) with
    | some e =>
      let tr := p.transcript ++ [key, hash, sig]
      let own := Config.signature tr
      (e, done (say w 3 p.eph (tr ++ [own]) [own]) key (tr ++ [own]))
    | none => (e, fail w)
  else if d < e.board ∧ step = 3 ∧ p.step = 2 then
    let tr := p.transcript ++ [sig]
    (e, if ok then done (w.setPair d { p with step := 3, transcript := tr }) (tr.headD 0) tr else fail w)
  else (e, w)

def execDatum (h : Hdr) (step : Nat) (ok : Bool) (body : DatumBody) (s : State) : Host.Outcome State Fault Refusal :=
  peerWhole h s (fun e w => datumIn e w h.dev step ok body.certHash body.key body.sig)

/-! ### TIMING flits (R531, R532) -/

def execTiming (n : Nat) (f : FlitHdr) (frame code src offset arrival : Nat) (s : State) : Host.Outcome State Fault Refusal :=
  whole s (fun e w =>
    if !mainRuns e then (e, w)
    else
      let w := rxPlain w n f false id
      if f.crcOk ∧ (linkState w n = lkInit ∨ linkState w n = lkActive) then
        timingFlit e w frame code src (arrival - 250 * (w.fld (aDaothPortDelay n) 15 0 + offset))
      else (e, w))

/-- The source's TIMING flits at a boundary (Table 13-10): frame number, period code, and in the last value bytes 7 to 9, the
board number with the offset from the boundary to the flit's first byte, a free value (log 153). -/
def sendTiming (e : Env) (w : Work) : Work :=
  if !isSource e w then w
  else (List.range 8).foldl (fun w n =>
    if linkState w n = lkInit ∨ linkState w n = lkActive then
      let (v, w) := w.free
      sendFlit w n fkTiming e.clk.frame e.periodCode (e.board + 256 * (v % 2 ^ 16))
    else w) w

/-! ### Boundaries -/

/-- What a boundary does to one link: a disable takes effect, TEST is entered or left, a link that is down trains again. A link
that leaves TEST starts a new INIT, and what it had not delivered waits in the pair. -/
def linkBoundary (e : Env) (w : Work) (n : Nat) : Work :=
  let d := peerDev e n
  let st := linkState w n
  let test := w.fld (aDaothPortCtl n) 30 30 == 1
  if (w.link n).off then
    let w := linkDown e w n true
    setLinkState (w.setLink n { freshLink (w.link n) with off := false }) n lkDown
  else if test && st == lkActive then
    let w := (setLinkState w n lkTest).setLink n { w.link n with away := true }
    if linkState w (sibling n) = lkActive then w else peerAbsent e w d
  else if !test && st == lkTest then
    enterInit e (w.setPair d { w.pair d with frozen := (w.pair d).frozen ++ unacked (w.link n) }) n
  else if st = lkDown ∧ linkOn w n = true ∧ blockHeld w 5 n = false then startTraining e w n
  else w

def linksBoundary (e : Env) (w : Work) : Work :=
  ((List.range 8).filter (fun n => linkOn w n || (w.link n).off)).foldl (linkBoundary e) w

/-! ### Loss and isolation (R527-R529) -/

/-- DAOTH.CTL.lost_ms, clamped, in ps. -/
def lostPs (w : Work) : Nat := msPs (min 1000 (max 2 (w.fld aDaothCtl 9 0)))

/-- A device has been absent since frame `f` for lost_ms. -/
def lostDue (e : Env) (w : Work) (f : Nat) : Bool := decide ((e.clk.frame - f) * e.period ≥ lostPs w)

/-- Every peer that is not held lost went down within one lost_ms, and there are at least two (R529). -/
def isolated (e : Env) (w : Work) : Bool :=
  let ds := (presentDevs e w).filter (fun d => d != e.board && !isLost w d)
  let fs := w.home.absent.map (·.2)
  decide (2 ≤ ds.length) && ds.all (isAbsent w) &&
  fs.all (fun f => fs.all (fun g => decide ((f - g) * e.period ≤ lostPs w)))

def execPeerLostTimeout (dev : Nat) (s : State) : Host.Outcome State Fault Refusal :=
  traffic s (fun e w =>
    match w.home.absent.find? (fun x => x.1 == dev) with
    | some x => if lostDue e w x.2 && !isolated e w then declareLost e w dev else w
    | none => w)

def execIsolationReset (s : State) : Host.Outcome State Fault Refusal :=
  whole s (fun e w =>
    if mainRuns e && isolated e w && w.home.absent.any (fun x => lostDue e w x.2) then (startEntry e 5 e.clk.now, w) else (e, w))

/-- LOST from another device: of this device (R529), or of a peer. -/
def execLost (h : Hdr) (dev : Nat) (s : State) : Host.Outcome State Fault Refusal :=
  peerWhole h s (fun e w => if dev = e.board then (startEntry e 5 e.clk.now, w) else (e, declareLost e w dev))

def execDepart (h : Hdr) (s : State) : Host.Outcome State Fault Refusal := peerTraffic h [] s (fun e w => declareLost e w h.dev)

/-! ### Vorir lanes (01 R22-R24, 15 R582) -/

/-- A replay on a link: the sender sends its latest flit again, which takes no new credit (R22); in which direction the command does not
say: a free value. -/
def vorirReplay (w : Work) (link : Nat) : Work :=
  let (v, w) := w.free
  let w := match mget w.vorir.last (2 * link + v % 2) with
    | some m => charge w acctDev 6 m.slots
    | none => w
  { w with vorir := { w.vorir with replays := mmod w.vorir.replays link 0 (· + 1) } }

/-- A CRC error: a replay, and a parity error of the lane that caused it, which fails at its threshold (R23; log 156). -/
def execVorirCrcError (link lane : Nat) (s : State) : Host.Outcome State Fault Refusal :=
  traffic s (fun _ w =>
    if 9 ≤ link then w
    else
      let w := vorirReplay w link
      let k := 2 ^ 16 * link + lane
      let errs := mmod w.vorir.errs k 0 (· + 1)
      let hit := decide (max 1 (w.fld aVorirLaneLimit 15 0) ≤ mgetD errs k 0)
      { w with vorir := { w.vorir with
          errs := errs
          failing := if hit then sadd w.vorir.failing k else w.vorir.failing } })

/-- How many spare lanes a link has: one for every 32 lanes of a count that the spec does not state. -/
def spareLanes (link : Nat) : Nat := Config.unstated 30 link

/-- A lane's record: the link in its unit, the lane in detail2 (log 156). -/
def vorirRecord (e : Env) (w : Work) (k ty sev : Nat) : Work :=
  raise e w { ty := ty, sev := sev, dev := e.board, agent := 0x7F, unit := k / 2 ^ 16 + 0x0A * 2 ^ 24, detail2 := k % 2 ^ 16 }

/-- A failing lane at a boundary: moved to a spare, which starts with no errors, or its link at half width (R23, R24). -/
def spareLane (e : Env) (w : Work) (k : Nat) : Work :=
  let l := k / 2 ^ 16
  let w := { w with vorir := { w.vorir with errs := mdel w.vorir.errs k } }
  if mgetD w.vorir.spared l 0 < spareLanes l then
    vorirRecord e { w with vorir := { w.vorir with spared := mmod w.vorir.spared l 0 (· + 1) } } k 0x700A 0
  else if w.vorir.half.contains l then w
  else vorirRecord e { w with vorir := { w.vorir with half := sadd w.vorir.half l } } k 0x700B 1

/-- The Vorir lanes at a boundary; a window of 131,072 frames ends. -/
def vorirBoundary (e : Env) (w : Work) : Work :=
  let limit := max 1 (w.fld aVorirLaneLimit 15 0)
  let ks := (w.vorir.errs.filter (fun x => decide (limit ≤ x.2))).foldl (fun l x => sadd l x.1) w.vorir.failing
  let w := ks.foldl (spareLane e) { w with vorir := { w.vorir with failing := [] } }
  if e.clk.frame % 131072 = 0 then { w with vorir := { w.vorir with errs := [] } } else w

end Sys2Proof.Machine
end

