-- ==== Sys2Proof/Machine/Mailbox.lean ====
section
/-! DEFINITION. Mailbox commands of logical devices and the FM API (12 R470-R484, R477; 03 R85-R91). -/

namespace Sys2Proof.Machine

/-! ### The mailbox (R482, R483, Table 12-8) -/

/-- CXL return codes (log 24): success and Invalid Input. -/
def mbOk : Nat := 0
def mbInvalid : Nat := 2

/-- The result of a mailbox command: seen at once by a host whose head carries CXL.io, held otherwise. -/
def mboxDone (w : Work) (a cmd code : Nat) (out : List Nat) : Work :=
  if headIo w a then w.emit (.mbox a cmd code out) else w.setLd a { w.ld a with mbox := some (cmd, code, out) }

/-- A mailbox command arrives: as an access to the setup BAR (R480, R490); in recovery mode the recovery port serves it
(18 R674). -/
def mboxIn (e : Env) (w : Work) (a : Nat) (f : Work → Work) : Work :=
  if !(ldExists w a && headIo w a) then w
  else if recovering e || ldOpen w a then f w
  else barRefuse e w a false

def mboxCmd (a : Nat) (s : State) (f : Env → Work → Work) : Host.Outcome State Fault Refusal :=
  serve s (fun e w => mboxIn e w a (f e))

/-! ### Contexts (09 R358-R363) -/

def cmdContextGet : Nat := 0xC001
def cmdContextSet : Nat := 0xC002
def cmdContextPut : Nat := 0xC003
def cmdSyncSave : Nat := 0xC010
def cmdSyncRestore : Nat := 0xC011
def cmdRingSet : Nat := 0xC020
def cmdRingPut : Nat := 0xC021

/-- A context that is neither enabled nor about to be. -/
def freeCtx (w : Work) : Option Nat :=
  (List.range 4096).find? (fun c => !ctxOn w c && !w.xlat.cmds.any (fun x => x.1 == c))

/-- Firmware writes a context entry and loads it. -/
def loadEntry (e : Env) (w : Work) (c : Nat) (x : BitVec 512) : Work :=
  let w := if inP0 e (ctxBase w + 64 * c) 64 then p0Write e w (ctxBase w + 64 * c) 64 x.toNat else w
  ctxCmdWrite e w (2 ^ 31 + 2 ^ 26 + c)

def ctxReason (w : Work) : Nat := w.fld aXlatStatus 15 0

/-- The context is bound to the calling logical device (R483). -/
def boundCtx (w : Work) (a c : Nat) : Bool := ctxHost w c == some a

def execContextGet (agent : Nat) (entry : BitVec 512) (s : State) : Host.Outcome State Fault Refusal :=
  mboxCmd agent s (fun e w =>
    match freeCtx w with
    | none => mboxDone w agent cmdContextGet mbInvalid []
    | some c =>
      let x := BitVec.ofNat 512 (2 ^ 36 * ef entry 127 36 + 2 ^ 24 * agent + 2 ^ 16 + c)
      let w := loadEntry e w c x
      mboxDone w agent cmdContextGet mbOk [ctxReason w, c])

/-- CONTEXT_SET rewrites format, root and prefetch; binding, enable and fault mode stay. -/
def execContextSet (agent ctx : Nat) (entry : BitVec 512) (s : State) : Host.Outcome State Fault Refusal :=
  mboxCmd agent s (fun e w =>
    match getCtx w ctx with
    | some c =>
      if boundCtx w agent ctx then
        let x := setEf (setEf c.entry 127 42 (ef entry 127 42)) 40 36 (ef entry 40 36)
        let w := loadEntry e w ctx x
        mboxDone w agent cmdContextSet mbOk [ctxReason w]
      else mboxDone w agent cmdContextSet mbInvalid []
    | none => mboxDone w agent cmdContextSet mbInvalid [])

/-- A command whose answer waits for the boundary at which what it issued takes effect. -/
def waitReply (w : Work) (a cmd x : Nat) : Work := { w with ports := { w.ports with waiting := w.ports.waiting ++ [(a, cmd, x)] } }

def execContextPut (agent ctx : Nat) (s : State) : Host.Outcome State Fault Refusal :=
  mboxCmd agent s (fun e w =>
    if boundCtx w agent ctx then
      let w := ctxCmdWrite e w (2 ^ 31 + 2 ^ 27 + ctx)
      if ctxReason w = 0 then waitReply w agent cmdContextPut ctx else mboxDone w agent cmdContextPut mbOk [ctxReason w]
    else mboxDone w agent cmdContextPut mbInvalid [])

/-! ### Sync contexts (10 R431) -/

def syncReason (w : Work) : Nat := w.fld aSyncStatus 15 0

def syncMbox (agent ctx op cmd : Nat) (s : State) : Host.Outcome State Fault Refusal :=
  mboxCmd agent s (fun e w =>
    if boundCtx w agent ctx then
      let w := syncCmdWrite e w (2 ^ 31 + 2 ^ 26 * op + ctx)
      if syncReason w = 0 then waitReply w agent cmd ctx else mboxDone w agent cmd mbOk [syncReason w]
    else mboxDone w agent cmd mbInvalid [])

def execSyncSave (agent ctx : Nat) (s : State) : Host.Outcome State Fault Refusal := syncMbox agent ctx 1 cmdSyncSave s
def execSyncRestore (agent ctx : Nat) (s : State) : Host.Outcome State Fault Refusal := syncMbox agent ctx 2 cmdSyncRestore s

/-- At a boundary, once contexts and sync commands have been applied, the waiting commands complete. -/
def vendorReplies (w : Work) : Work :=
  w.ports.waiting.foldl (fun w x =>
    mboxDone w x.1 x.2.1 mbOk
      (if x.2.1 = cmdContextPut then [ctxReason w]
       else if x.2.1 = cmdSyncSave then [syncReason w, w.reg aSyncSaveCount]
       else [syncReason w])) { w with ports := { w.ports with waiting := [] } }

/-! ### Rings (08 R298-R301, R309) -/

def freeRing (w : Work) : Option Nat :=
  (List.range 1024).find? (fun r => (getRing w r).isNone && w.fld (aRingCtl r) 31 31 == 0)

def execRingSet (agent : Nat) (ctl : Word) (dqParcel dqOff cqParcel cqOff : Nat) (s : State) : Host.Outcome State Fault Refusal :=
  mboxCmd agent s (fun e w =>
    match freeRing w with
    | none => mboxDone w agent cmdRingSet mbInvalid []
    | some r =>
      let w := (w.setReg (aRingDqParcel r) (dqParcel % 2 ^ 16)).setReg (aRingCqParcel r) (cqParcel % 2 ^ 16)
      let w := (w.setReg2 (aRingDqOffset r) dqOff).setReg2 (aRingCqOffset r) cqOff
      let w := ringCtlWrite e w r (putBits (putBits ctl.toNat 7 0 agent) 31 31 1)
      mboxDone w agent cmdRingSet mbOk [w.fld (aRingStatus r) 15 0, r])

def execRingPut (agent r : Nat) (s : State) : Host.Outcome State Fault Refusal :=
  mboxCmd agent s (fun e w =>
    if w.fld (aRingCtl r) 31 31 = 1 ∧ ringOwner w r = agent then
      mboxDone (ringCtlWrite e w r (w.reg (aRingCtl r) % 2 ^ 31)) agent cmdRingPut mbOk [0]
    else mboxDone w agent cmdRingPut mbInvalid [])

/-! ### Poison lists (R477) -/

def cmdPoisonList : Nat := 0x4300
def cmdInject : Nat := 0x4301
def cmdClear : Nat := 0x4302

/-- The parcel offset of a line of this device within a STRIPE parcel, none for a parity line (03 R79, 04 R104). -/
def stripeOffset (e : Env) (w : Work) (p line : Nat) : Option Nat :=
  let x := cadEntry w p
  let (q, j) := stripeAt w line
  if j = q.parity then none
  else
    let d := 9 * q.s + (if j < q.parity then j else j - 1)
    ((List.range (eSize x)).find? (fun i =>
      let s := entryAt e w p i
      sValid s && sPriDev s == e.board && plotAt w (sPriPlot s) == (q.t, q.n0) && (sheetIndex x (offsetAt x i 0)).1 / 2 ^ 21 % 9 == d / 32768)).map
      (fun i => offsetAt x i (d % 32768 * 64))

/-- The parcel offset of a line of this device within a parcel of another class: a plot or a page, of either copy. -/
def leafOffset (e : Env) (w : Work) (p line : Nat) : Option Nat :=
  let x := cadEntry w p
  (List.range (eSize x)).findSome? (fun i =>
    let s := entryAt e w p i
    if !sValid s then none
    else if sSplit s then
      (List.range 512).findSome? (fun j => match p0Read e w (sSplitPtr s + 16 * j) 16 with
        | some q =>
          if sValid q ∧ ((sPriDev q = e.board ∧ qPriPage q = line / 64) ∨ (sSecValid q = true ∧ sSecDev q = e.board ∧ qSecPage q = line / 64)) then
            some (offsetAt x i (4096 * j + line % 64 * 64))
          else none
        | none => none)
    else if (sPriDev s = e.board ∧ sPriPlot s = line / 2 ^ 15) ∨ (sSecValid s = true ∧ sSecDev s = e.board ∧ sSecPlot s = line / 2 ^ 15) then
      some (offsetAt x i (line % 2 ^ 15 * 64))
    else none)

def lineOffset (e : Env) (w : Work) (p line : Nat) : Option Nat :=
  if eClass (cadEntry w p) = 1 then stripeOffset e w p line else leafOffset e w p line

/-- The lines that this device knows as poisoned: in DRAM and in the near cache. -/
def poisonLines (e : Env) (w : Work) : List Nat :=
  w.pool.poison ++ (w.pool.nc.filter (fun x => x.2.poison && x.1 / 2 ^ 42 == e.board)).map (fun x => x.1 % 2 ^ 42)

/-- Poisoned lines of the parcels that a logical device holds, by LDA. -/
def poisonLdas (e : Env) (w : Work) (a : Nat) : List Nat :=
  ((w.ld a).extents.flatMap (fun x => (poisonLines e w).filterMap (fun l =>
    match lineOffset e w x.parcel l with
    | some o => if o < x.len then some (x.lda + o) else none
    | none => none))).foldl sadd []

/-- Up to 256 records from an LDA on, and whether further ones remain. -/
def execGetPoisonList (agent start count : Nat) (s : State) : Host.Outcome State Fault Refusal :=
  mboxCmd agent s (fun e w =>
    let l := (poisonLdas e w agent).filter (fun x => decide (start ≤ x))
    let n := min count 256
    mboxDone w agent cmdPoisonList mbOk ((if l.length > n then 1 else 0) :: l.take n))

/-- Inject and Clear Poison: a full write of the line, from a writer of its parcel alone. -/
def poisonWrite (agent lda cmd : Nat) (d : Payload) (s : State) : Host.Outcome State Fault Refusal :=
  mboxCmd agent s (fun e w =>
    match extentOf (w.ld agent) lda with
    | none => mboxDone w agent cmd mbInvalid []
    | some x =>
      match accessCheck e w (.host agent x.gen) x.parcel (lda - x.lda) true with
      | .served l =>
        let r : Req := { op := .wr .i d (BitVec.allOnes 64) true, dev := e.board, agent := agent, tag := lda / 64 % 2 ^ 16,
                         frame := e.clk.frame, parcel := x.parcel, gen := x.gen, off := (lda - x.lda) / 64 * 64, line := 0,
                         acct := agent, ans := .down, born := e.clk.now }
        mboxDone (checked e w r (.served l)) agent cmd mbOk []
      | _ => mboxDone w agent cmd mbInvalid [])

def execInjectPoison (agent lda : Nat) (s : State) : Host.Outcome State Fault Refusal := poisonWrite agent lda cmdInject ⟨0, true⟩ s

def execClearPoison (agent lda : Nat) (d : Line) (s : State) : Host.Outcome State Fault Refusal :=
  poisonWrite agent lda cmdClear ⟨d, false⟩ s

/-! ### Dynamic Capacity (R470-R474, 03 R85-R94) -/

/-- The entry of a parcel once the pending commit has applied. -/
def cadNow (w : Work) (p : Nat) : BitVec 512 :=
  match w.pool.cadPending with
  | some c => match (cadRecs c.records).find? (fun r => rcParcel r == p) with
    | some r => rcCad r
    | none => cadEntry w p
  | none => cadEntry w p

/-- Firmware commits an entry, together with what is already pending, two frames ahead at the earliest (log 25). -/
def stageEntry (e : Env) (w : Work) (p : Nat) (x : BitVec 512) (adds : List (Nat × Extent)) (forced : List (Nat × Nat)) : Nat × Work :=
  let c : CadPending := w.pool.cadPending.getD { frame := 0, records := [] }
  let rs := c.records.filter (fun r => !(rcKind r == 0 && rcParcel r == p)) ++ [setEf (setEf x 511 504 0) 15 0 p]
  if rs.length > 256 then (0x010B, w)
  else stageRecords e w {
    frame := max c.frame (e.clk.frame + 2), records := rs, adds := c.adds ++ adds, forced := c.forced ++ forced }

/-- A holder goes: REVOKING for the last one, its removal otherwise (R88-R91). -/
def releaseHolder (e : Env) (w : Work) (p a : Nat) (forced : List (Nat × Nat)) : Nat × Work :=
  let x := cadNow w p
  if eState x ≠ stAssigned ∨ bitAt (eHolders x) a = false then (0x0102, w)
  else
    let hs := setBitAt (eHolders x) a false
    let y := if hs = 0 then setEf x 33 32 stRevoking
      else setEf (setEf x 191 128 hs) 255 192 (setBitAt (eWriters x) a false)
    stageEntry e w p y [] forced

/-- The parcel of the extent that begins at an LDA. -/
def extentAt (w : Work) (a lda : Nat) : Option Extent := (w.ld a).extents.find? (fun x => x.lda == lda)

def releaseExtent (e : Env) (w : Work) (a lda : Nat) : Work :=
  match extentAt w a lda with
  | some x => (releaseHolder e w x.parcel a []).2
  | none => w

def cmdAddDc : Nat := 0x4802
def cmdReleaseDc : Nat := 0x4803

/-- An answer to an offer; a later one changes nothing (R474). -/
def execAddDcResponse (agent lda : Nat) (accept : Bool) (s : State) : Host.Outcome State Fault Refusal :=
  mboxCmd agent s (fun e w =>
    let l := w.ld agent
    let open_ := l.offers.any (fun x => x.1 == lda)
    let w := w.setLd agent { l with offers := l.offers.filter (fun x => x.1 != lda) }
    let w := if open_ && !accept then releaseExtent e w agent lda else w
    mboxDone w agent cmdAddDc mbOk [])

/-- The host releases its extent (R89, R90, R94). -/
def execReleaseDcResponse (agent lda : Nat) (s : State) : Host.Outcome State Fault Refusal :=
  mboxCmd agent s (fun e w =>
    let l := w.ld agent
    let w := w.setLd agent { l with releases := l.releases.filter (fun x => x.1 != lda), offers := l.offers.filter (fun x => x.1 != lda) }
    mboxDone (releaseExtent e w agent lda) agent cmdReleaseDc mbOk [])

/-- 200 ms have passed since a frame. -/
def late200 (e : Env) (f : Nat) : Bool := decide ((e.clk.frame - f) * e.period ≥ msPs 200)

/-- An offer that nobody answers is declined (R474): after 200 ms, or with the head down or the device disabled. -/
def execAddCapacityTimeout (agent lda : Nat) (s : State) : Host.Outcome State Fault Refusal :=
  serve s (fun e w =>
    let l := w.ld agent
    match l.offers.find? (fun x => x.1 == lda) with
    | none => w
    | some o =>
      if late200 e o.2 || !headUp w agent || !l.enabled then
        releaseExtent e (w.setLd agent { l with offers := l.offers.filter (fun x => x.1 != lda) }) agent lda
      else w)

/-- A forced revoke 200 ms after the release request (R91). -/
def execForcedRevoke (parcel agent : Nat) (s : State) : Host.Outcome State Fault Refusal :=
  serve s (fun e w =>
    let l := w.ld agent
    match l.extents.find? (fun x => x.parcel == parcel) with
    | none => w
    | some x =>
      if l.releases.any (fun r => r.1 == x.lda && late200 e r.2) then
        let (code, w) := releaseHolder e w parcel agent [(parcel, agent)]
        if code ≠ 0 then w
        else
          let w := w.setLd agent { w.ld agent with releases := (w.ld agent).releases.filter (fun r => r.1 != x.lda) }
          raise e w { ty := 0x3004, sev := 1, parcel := parcel, dev := e.board, agent := agent, host := some agent }
      else w)

/-! ### The FM API (R484) -/

def isFm (m : Mgr) : Bool := match m with | .fm _ => true | _ => false

def fmCmd (m : Mgr) (s : State) (f : Env → Work → Work) : Host.Outcome State Fault Refusal :=
  serve s (fun e w => if !reaches w m then w else if isBmc m || isFm m then f e w else reply w m rcRefused [])

def ldCount (w : Work) : Nat := ((List.range 32).map (fun p => (portLds w p).length)).foldl (· + ·) 0
def headCount (w : Work) : Nat := ((List.range 32).map (fun p => (headsOfMode (portMode w p)).length)).foldl (· + ·) 0

/-- Static capacity (none, Table 12-5) and the number of logical devices. -/
def execGetLdInfo (m : Mgr) (s : State) : Host.Outcome State Fault Refusal :=
  fmCmd m s (fun _ w => reply w m rcOk [0, ldCount w])

/-- The logical devices of a port, each with no static capacity. -/
def execGetLdAllocations (m : Mgr) (port : Nat) (s : State) : Host.Outcome State Fault Refusal :=
  fmCmd m s (fun _ w => if port < 32 then reply w m rcOk ((portLds w port).length :: (portLds w port).map (fun _ => 0))
    else reply w m rcRefused [])

def execSetLdAllocations (m : Mgr) (port lds : Nat) (s : State) : Host.Outcome State Fault Refusal :=
  fmCmd m s (fun _ w => reply w m (if port < 32 ∧ (portLds w port).length = lds then rcOk else rcRefused) [])

def execGetMultiHeadedInfo (m : Mgr) (s : State) : Host.Outcome State Fault Refusal :=
  fmCmd m s (fun _ w => reply w m rcOk [ldCount w, headCount w])

/-- A head's state, whether it runs at half width, and its flit mode. -/
def execGetHeadInfo (m : Mgr) (port head : Nat) (s : State) : Host.Outcome State Fault Refusal :=
  fmCmd m s (fun _ w =>
    if port < 32 ∧ (headsOfMode (portMode w port)).contains head = true then
      reply w m rcOk [headState w port head, w.fld (aPortStatus port) (26 + head) (26 + head),
        w.fld (aPortStatus port) (23 + 2 * head) (22 + 2 * head)]
    else reply w m rcRefused [])

def dcBlock : Nat := 2 ^ 21
def dcRegion : Nat := 2 ^ 44

/-- Regions, block size and extents per logical device (R470, Table 12-5). -/
def execGetDcdInfo (m : Mgr) (s : State) : Host.Outcome State Fault Refusal :=
  fmCmd m s (fun _ w => reply w m rcOk [64, 8, dcBlock, 4096])

/-- The eight regions: base, length, block size, shareable. -/
def execGetHostDcRegionConfig (m : Mgr) (agent : Nat) (s : State) : Host.Outcome State Fault Refusal :=
  fmCmd m s (fun _ w =>
    if ldExists w agent then
      reply w m rcOk ((List.range 8).flatMap (fun n => [n * dcRegion, dcRegion, dcBlock, if n < 4 then 0 else 1]))
    else reply w m rcRefused [])

/-- The extents, with the parcel and generation of their tags (R472). -/
def execGetDcRegionExtentLists (m : Mgr) (agent : Nat) (s : State) : Host.Outcome State Fault Refusal :=
  fmCmd m s (fun _ w =>
    if ldExists w agent then reply w m rcOk ((w.ld agent).extents.flatMap (fun x => [x.lda, x.len, x.parcel, x.gen]))
    else reply w m rcRefused [])

def execSetDcRegionConfig (m : Mgr) (agent region block : Nat) (s : State) : Host.Outcome State Fault Refusal :=
  fmCmd m s (fun _ w => reply w m (if ldExists w agent = true ∧ region < 8 ∧ block = dcBlock then rcOk else rcRefused) [])

/-- The place asked for: within its region, aligned, clear of the device's other extents (R85, R86, R470). -/
def dcPlaceOk (w : Work) (d : DcReq) (len : Nat) : Bool :=
  let pend := match w.pool.cadPending with | some c => (c.adds.filter (fun x => x.1 == d.agent)).map (·.2) | none => []
  let xs := (w.ld d.agent).extents ++ pend
  ldExists w d.agent && decide (d.region < 8) && decide (0 < len) && d.lda % dcBlock == 0 && decide (d.region * dcRegion ≤ d.lda) &&
  decide (d.lda + len ≤ (d.region + 1) * dcRegion) && decide (xs.length < 4096) &&
  xs.all (fun x => decide (x.lda + x.len ≤ d.lda) || decide (d.lda + len ≤ x.lda))

/-- Initiate Dynamic Capacity Add (R471, 03 R87): the holder and the extent come with one commit. -/
def execInitiateDcAdd (m : Mgr) (d : DcReq) (s : State) : Host.Outcome State Fault Refusal :=
  fmCmd m s (fun e w =>
    let x := cadNow w d.parcel
    let len := 2 ^ 21 * eSize x
    if recovering e ∨ dcPlaceOk w d len = false ∨ d.parcel ≥ 2 ^ 16 ∨ (d.region < 4 ∧ eState x = stAssigned ∧ eHolders x ≠ 0) ∨
        (eState x = stAssigned ∧ bitAt (eHolders x) d.agent = true) then reply w m rcRefused []
    else
      let hs := setBitAt (if eState x = stFree then 0 else eHolders x) d.agent true
      let ws := setBitAt (if eState x = stFree then 0 else eWriters x) d.agent d.writer
      let y := setEf (setEf (if eState x = stFree then setEf x 33 32 stAssigned else x) 191 128 hs) 255 192 ws
      let (code, w) := stageEntry e w d.parcel y [(d.agent, ⟨d.lda, len, d.parcel, eGen x⟩)] []
      reply w m (if code = 0 then rcOk else rcRefused) [code])

/-- Initiate Dynamic Capacity Release (R473): Release Capacity goes to the host, and its 200 ms begin. -/
def execInitiateDcRelease (m : Mgr) (d : DcReq) (s : State) : Host.Outcome State Fault Refusal :=
  fmCmd m s (fun e w =>
    match (w.ld d.agent).extents.find? (fun x => x.parcel == d.parcel && x.lda == d.lda) with
    | some x =>
      let l := w.ld d.agent
      let w := w.setLd d.agent { l with releases := l.releases.filter (fun r => r.1 != x.lda) ++ [(x.lda, e.clk.frame)] }
      reply (dcEvent w d.agent evRelease x.lda x.parcel) m rcOk []
    | none => reply w m rcRefused [])

end Sys2Proof.Machine
end

