-- ==== Sys2Proof/Machine/BlockReset.lean ====
section
/-! DEFINITION. Block resets and isolation wrappers (18 R677-R680). -/

namespace Sys2Proof.Machine

/-! ### The command (Table 18-7, Table 18-8) -/

/-- Block kinds of RESET.BLOCK_CTL. -/
def bkTun : Nat := 1
def bkPort : Nat := 2
def bkTract : Nat := 3
def bkChannel : Nat := 4
def bkDaoth : Nat := 5

/-- The check of a block reset, in the order of its codes. -/
def blockCheck (e : Env) (kind inst : Nat) : Nat :=
  if (kind = 3 ∧ 8 ≤ inst) ∨ (kind = 4 ∧ 80 ≤ inst) then 0x0212
  else if kind = 2 ∧ (32 ≤ inst ∨ (recovering e = true ∧ inst = recoveryPort e)) then 0x0406
  else if kind = 5 ∧ (8 ≤ inst ∨ inst % 4 = 3) then 0x0509
  else if kind = 0 ∨ 5 < kind ∨ (kind = 1 ∧ 32 ≤ inst) then 0x0620
  else 0

def getBlock (w : Work) (kind inst : Nat) : Option BlockRst := w.blocks.find? (fun b => b.kind == kind && b.inst == inst)

def putBlock (w : Work) (b : BlockRst) : Work :=
  { w with blocks := w.blocks.map (fun x => if x.kind = b.kind ∧ x.inst = b.inst then b else x) }

/-- RESET.STATUS bit 16: a block is held. -/
def showHeld (w : Work) : Work := w.setFld aResetStatus 16 16 (if w.blocks.any (·.since.isSome) then 1 else 0)

/-- An accepted go: a reset from the next boundary on, or for a held block with hold = 0 its release there (R678). -/
def blockGo (e : Env) (w : Work) (kind inst : Nat) (hold : Bool) : Work :=
  match getBlock w kind inst with
  | none => { w with blocks := w.blocks ++ [{ kind := kind, inst := inst, hold := hold }] }
  | some b =>
    if hold then putBlock w { b with hold := true, free := none }
    else if b.since.isSome ∧ b.free = none then putBlock w { b with hold := false, free := some (e.clk.frame + 1) }
    else putBlock w { b with hold := false }

/-- A write of RESET.BLOCK_CTL. -/
def blockCtlWrite (e : Env) (w : Work) (v : Nat) : Work :=
  let w := w.setReg aResetBlockCtl (v &&& 0x7800007F)
  if !bitAt v 31 then w
  else
    let kind := bitsOf v 29 27
    let inst := bitsOf v 6 0
    let code := blockCheck e kind inst
    let w := w.setFld aResetStatus 15 0 code
    if code = 0 then blockGo e w kind inst (bitAt v 30) else w

/-- The word of a block reset command. -/
def blockWord (kind inst : Nat) (hold : Bool) : Nat := 2 ^ 31 + (if hold then 2 ^ 30 else 0) + 2 ^ 27 * kind + inst % 128

def execBlockResetTun (n : Nat) (hold : Bool) (s : State) : Host.Outcome State Fault Refusal :=
  serve s (fun e w => blockCtlWrite e w (blockWord bkTun n hold))
def execBlockResetPort (p : Nat) (hold : Bool) (s : State) : Host.Outcome State Fault Refusal :=
  serve s (fun e w => blockCtlWrite e w (blockWord bkPort p hold))
def execBlockResetTract (t : Nat) (hold : Bool) (s : State) : Host.Outcome State Fault Refusal :=
  serve s (fun e w => blockCtlWrite e w (blockWord bkTract t hold))
def execBlockResetChannel (c : Nat) (hold : Bool) (s : State) : Host.Outcome State Fault Refusal :=
  serve s (fun e w => blockCtlWrite e w (blockWord bkChannel c hold))
def execBlockResetDaoth (n : Nat) (hold : Bool) (s : State) : Host.Outcome State Fault Refusal :=
  serve s (fun e w => blockCtlWrite e w (blockWord bkDaoth n hold))

/-! ### The reset takes effect (Table 18-9) -/

/-- A Tun: its tiles are abandoned, its descriptors move, its store is cleared. -/
def resetTun (w : Work) (t : Nat) : Work :=
  let w := (w.mash.tiles.filter (fun x => x.tun == t)).foldl abandonTile w
  let w := (boundTo w t).foldl (fun w d => if d.phase = .done then w else moveDesc w d t) w
  w.setTun t { w.tun t with tables := [] }

/-- A port: every head down, its hosts SUSPECT. -/
def resetPort (e : Env) (w : Work) (p : Nat) : Work := (portLds w p).foldl (becomeSuspect e) (portDown e w p)

/-- Dirty near-cache lines of a tract homed here. -/
def dirtyLines (e : Env) (w : Work) (sel : Nat → Bool) : List Nat :=
  (w.pool.nc.filter (fun x => decide (x.1 / 2 ^ 42 = e.board) && x.2.dirty && sel (x.1 % 2 ^ 42))).map (fun x => x.1 % 2 ^ 42)

/-- A tract: dirty lines are written back, and its directory-cache entries discarded. -/
def resetTract (e : Env) (w : Work) (t : Nat) : Work :=
  let mine (l : Nat) : Bool := tractOf w (64 * l) == t
  let w := (dirtyLines e w mine).foldl (writeBackLine e) w
  { w with dir := { w.dir with cache := w.dir.cache.filter (fun x => !mine x.2.line) } }

/-- A Daoth link: DOWN with failover. -/
def resetLink (e : Env) (w : Work) (n : Nat) : Work :=
  let w := linkDown e w n true
  if linkOn w n then setLinkReason (setLinkState (w.setLink n (freshLink (w.link n))) n lkDown) n 0x0506 else setLinkReason w n 0x0506

def resetBlock1 (e : Env) (w : Work) (kind inst : Nat) : Work :=
  if kind = bkTun then resetTun w inst
  else if kind = bkPort then resetPort e w inst
  else if kind = bkTract then resetTract e w inst
  else if kind = bkChannel then applyOut e w inst 5
  else if kind = bkDaoth then resetLink e w inst
  else w

/-! ### The wrapper's answers (R679) -/

/-- Requests at this device's homes. -/
def homeReqs (w : Work) : List Req :=
  w.home.txns.map (·.req) ++ w.home.txns.filterMap (·.next) ++ w.home.waiting ++ w.home.ready

/-- The requests that a block has outstanding. -/
def blockReqs (e : Env) (w : Work) (kind inst : Nat) : List Req :=
  if kind = bkPort then (allReqs w).filter (fun r =>
    r.ans != .mute && r.dev == e.board && r.agent / 2 == inst && decide (r.agent < 0x40) && r.tile == none)
  else if kind = bkTract then (homeReqs w).filter (fun r => r.ans != .mute && tractOf w (64 * r.line) == inst)
  else []

/-- The wrapper answers what is outstanding; a Mash access answered so ends its descriptor with CANCELLED. -/
def blockAnswer (e : Env) (w : Work) (kind inst : Nat) : Work :=
  match getBlock w kind inst with
  | none => w
  | some b =>
    match b.since with
    | none => w
    | some f =>
      if e.clk.frame < f + 2 then w
      else
        let rs := blockReqs e w kind inst
        let w := { w with home := { w.home with cancelled := w.home.cancelled ++ rs.filterMap (·.tile) } }
        let (n, w) := wrapperAnswer e w rs.contains
        putBlock w { b with answered := b.answered + n }

def execIsolationWrapperAnswer (kind inst : Nat) (s : State) : Host.Outcome State Fault Refusal :=
  serve s (fun e w => blockAnswer e w kind inst)

/-! ### Release (Table 18-9) -/

/-- The staged role applies with a new epoch; a change that waited for its boundary is the staged one. -/
def releaseTun (e : Env) (w : Work) (t : Nat) : Work :=
  let role := w.fld (aTunRoleCtl t) 17 16
  let w := w.setReg (aTunRole t) (2 ^ 16 * role + nextEpoch (tunEpoch w t))
  (w.setTun t { w.tun t with pend := none, changed := some e.clk.frame }).setFld (aTunStatus t) 21 21 0

def releaseBlock1 (e : Env) (w : Work) (kind inst : Nat) : Work :=
  if kind = bkTun then releaseTun e w inst
  else if kind = bkPort then (if w.fld (aPortCtl inst) 31 31 = 1 then startGrace e (trainHeads w inst) inst else w)
  else if kind = bkDaoth then (if linkOn w inst then startTraining e (setLinkReason w inst 0) inst else w)
  else w

/-- The block code of a record's unit field (15 Table 15-6): the high byte of the block's reason codes. -/
def blockUnit (kind inst : Nat) : Nat :=
  inst + 2 ^ 24 * (if kind = bkTun then 6 else if kind = bkPort then 4 else if kind = bkDaoth then 5 else 2)

/-- A block is released, with its RESET_DONE record. -/
def releaseBlock (e : Env) (w : Work) (b : BlockRst) : Work :=
  let w := blockAnswer e w b.kind b.inst
  let n := match getBlock w b.kind b.inst with | some x => x.answered | none => 0
  let w := { w with blocks := w.blocks.filter (fun x => !(x.kind == b.kind && x.inst == b.inst)) }
  raise e (releaseBlock1 e w b.kind b.inst)
    { ty := 0x800E, dev := e.board, agent := 0x7F, unit := blockUnit b.kind b.inst, count := n }

/-- BLOCK_RELEASE: firmware's go with hold = 0 for a held block. -/
def execBlockRelease (kind inst : Nat) (s : State) : Host.Outcome State Fault Refusal :=
  serve s (fun e w =>
    match getBlock w kind inst with
    | some b => if b.since.isSome then blockCtlWrite e w (blockWord kind inst false) else w
    | none => w)

/-- Block resets at a boundary: those accepted take effect, wrappers answer, those due are released. -/
def blocksBoundary (e : Env) (w : Work) : Work :=
  let f := e.clk.frame
  let w := w.blocks.foldl (fun w b =>
    match b.since with
    | none => resetBlock1 e (putBlock w { b with since := some f, free := if b.hold then none else some (f + 2) }) b.kind b.inst
    | some _ =>
      match b.free with
      | some x => if x ≤ f then releaseBlock e w b else blockAnswer e w b.kind b.inst
      | none => blockAnswer e w b.kind b.inst) w
  showHeld w

end Sys2Proof.Machine
end

