-- ==== Sys2Proof/Machine/Reset.lean ====
section
/-! DEFINITION. Resets of the device, bring-up, recovery mode and Datum's own reset (18 R661-R676), power and the RST_N pin
(20 R706-R710), and the output pins (20 R714, R715). -/

namespace Sys2Proof.Machine

/-! ### The RST_N pin and reset sources (R661-R664, 20 R708) -/

/-- The instant of an event. -/
def Env.at (e : Env) (t : Nat) : Env := { e with clk := { e.clk with now := max e.clk.now t } }

/-- Standby is good. -/
def standbyUp (e : Env) : Bool := !(e.rst.phase == .off)

/-- RST_N held low for 1 us or more: `t` is the end of its first microsecond. -/
def execRstNReset (t : Nat) (s : State) : Host.Outcome State Fault Refusal :=
  whole s (fun e w =>
    if !standbyUp e then (e, w)
    else
      let e := startEntry (e.at t) 2 t
      ({ e with rst := { e.rst with rstLow := true } }, w))

def execRstNGlitch (lowNs : Nat) (s : State) : Host.Outcome State Fault Refusal :=
  whole s (fun e w => if standbyUp e ∧ lowNs < 1000 then (e, w.inc aResetGlitches 1) else (e, w))

/-- RST_N is high again: nobody drives it low (R663, 20 R708). -/
def execRstNRelease (t : Nat) (s : State) : Host.Outcome State Fault Refusal :=
  whole s (fun e w =>
    if standbyUp e then ({ e.at t with rst := { e.rst with rstLow := false, drives := [] } }, w) else (e, w))

/-- Klohal drives RST_N low for condition `k`; 1 us later this is a reset with cause 0x02. -/
def driveLow (k : Nat) (ok : Bool) (s : State) : Host.Outcome State Fault Refusal :=
  whole s (fun e w =>
    if !standbyUp e || !ok then (e, w)
    else
      let e := startEntry e 2 e.clk.now
      ({ e with rst := { e.rst with drives := sadd e.rst.drives k } }, w))

def execVinLow (mv ns : Nat) (s : State) : Host.Outcome State Fault Refusal := driveLow 1 (decide (mv < 39000) && decide (2000 ≤ ns)) s
/-- A junction sensor's reading in units of 0.25 C. -/
def execJunctionTrip (sensor reading : Nat) (s : State) : Host.Outcome State Fault Refusal :=
  driveLow 2 (decide (sensor < 64) && decide (440 ≤ reading)) s
def execRefclkLoss (ns : Nat) (s : State) : Host.Outcome State Fault Refusal := driveLow 3 (decide (2000 ≤ ns)) s

/-- A write of RESET.WARM. -/
def warmWrite (e : Env) (v : Nat) : Env := if bitAt v 0 then startEntry e 8 e.clk.now else e

def execResetWarm (v : Word) (s : State) : Host.Outcome State Fault Refusal :=
  whole s (fun e w => if mainRuns e then (warmWrite e v.toNat, w) else (e, w))

/-- RECOVERY_EXIT (R675): words 3 and 5 cleared, and a warm reset. -/
def execRecoveryExit (m : Mgr) (s : State) : Host.Outcome State Fault Refusal :=
  bmcOnly m s (fun e w =>
    if recovering e then (startEntry ((e.setBackup 3 0).setBackup 5 0) 7 e.clk.now, reply w m rcOk [])
    else (e, reply w m rcRefused []))

/-! ### Entry (Table 18-3) -/

/-- Every host becomes SUSPECT; its grace period runs from the boundary at which its port is ready to train (05 R204). -/
def suspectAll (e : Env) (w : Work) : Work :=
  (List.range 64).foldl (fun w a =>
    if (w.host e.board a).coh = .active then w.setHost e.board a { coh := .suspect, since := e.clk.now } else w) w

/-- Held sync descriptors receive no completion (10 R427). -/
def dropHeldSync (w : Work) : Work :=
  { w with mash := { w.mash with descs := w.mash.descs.filter (fun x => !(x.2.phase == .held)) } }

/-- Ring schedulers stop; descriptors that have not started are cancelled, running ones end at their next tile boundary. -/
def stopAllRings (e : Env) (w : Work) : Work :=
  ((w.mash.rings.map (·.1)).filter (fun r => ringState w r == 1)).foldl (fun w r => stopRing e w r 2) w

/-- Steps 1 and 2: heads go down, rings stop, debug sessions end (17 R658). -/
def enterReset (e : Env) (w : Work) : Env × Work :=
  let w := suspectAll e ((List.range 32).foldl (portDown e) w)
  let w := stopAllRings e (dropHeldSync w)
  let (e, w) := endDebug e w (fun _ => true)
  ({ e with rst := { e.rst with step := 1 } }, w)

def execWarmResetEntry (s : State) : Host.Outcome State Fault Refusal :=
  whole s (fun e w => if e.rst.phase = .entry ∧ e.rst.step = 0 then enterReset e w else (e, w))

/-- Step 3, at the second boundary after the cause: the wrappers answer every request still outstanding. -/
def execWarmResetDrainEnd (s : State) : Host.Outcome State Fault Refusal :=
  whole s (fun e w =>
    if e.rst.phase = .entry ∧ e.rst.step = 1 ∧ e.rst.bound ≤ e.clk.frame then
      ({ e with rst := { e.rst with step := 2 } }, (wrapperAnswer e w (fun _ => true)).2)
    else (e, w))

/-- Records that do not fit into the ring are counted as dropped (15 R597). -/
def dropRecords (e : Env) (w : Work) : Work :=
  (w.flt.hold ++ w.flt.fifo).foldl (dropRec e.clk.frame) { w with flt := { w.flt with hold := [], fifo := [] } }

/-- Held and FIFO records go to the firmware ring while it has space. -/
def flushRecords (e : Env) (w : Work) : Work :=
  let w := if fwRingOn w then writeRecs e (fwHeld e (owedCopies e w) 64) true 256 else w
  dropRecords e w

/-- Step 4: the near-cache flush, the pending directory-store writes, the records. -/
def flushAll (e : Env) (w : Work) : Work :=
  let w := flushRecords e w
  let w := (dirtyLines e w (fun _ => true)).foldl (writeBackLine e) w
  let w := w.pool.nc.foldl (fun w x =>
    if x.1 / 2 ^ 42 = e.board then w else proxyDrop e w (x.1 / 2 ^ 42) (x.1 % 2 ^ 42)) w
  w.dir.cache.foldl (fun w x => if x.2.dirty then storeEntry e w acctDev x.2.line x.2.entry else w) w

/-- Step 5: DEPART on every ACTIVE link, then every link down. -/
def departLinks (e : Env) (w : Work) : Work :=
  (List.range 8).foldl (fun w n =>
    if linkState w n = lkActive then (carryDatum e w .request (peerDev e n) 0x7F).emit (.peer { op := 0x54, dev := peerDev e n, args := [n] })
    else w) w

/-! ### What a warm reset keeps (Table 18-2; 19 R686) -/

/-- Registers that a warm reset keeps: FAULT.DROP, RESET.GLITCHES, and the marks of the initialisation pass, whose state the
memory dies hold. -/
def keptRegs : List Nat := aResetGlitches :: ((List.range 8).map aFaultDrop ++ (List.range 8).map aSpargeInitMark)

/-- A logical device's mirrored state (R666). -/
def keptLd (l : Ld) : Ld := { extents := l.extents, bi := l.bi, hdm := l.hdmNext.getD l.hdm, unmasked := l.unmasked }

def keptPool (p : Pool) : Pool :=
  { mem := p.mem, poison := p.poison, bad := p.bad, flags := p.flags, keyed := p.keyed, cad := p.cad, zeroed := p.zeroed
    maskRec := p.maskRec, removals := p.removals, recovered := p.recovered, cut := p.cut }

/-- The traffic state after a warm reset. Of the operation slots the lists of rebuilds stay (log 175). -/
def keptWork (e : Env) (w : Work) : Work :=
  let w' : Work := {
    regs := w.regs.filter (fun x => keptRegs.contains x.1)
    pool := keptPool w.pool
    dir := { store := w.dir.store, stamp := w.dir.stamp, lost := w.dir.lost, broadcast := w.dir.broadcast
             outWays := w.dir.outWays }
    home := { hosts := w.home.hosts.filter (fun x => decide (x.1 / 64 = e.board)), promoted := w.home.promoted }
    ops := w.ops.filter (fun x => x.2.kind == 1)
    flt := { drops := w.flt.drops, firstDrop := w.flt.firstDrop
             arrays := w.flt.arrays.map (fun x => (x.1, { spares := x.2.spares }))
             keepTail := if fwRingOn w then some (w.reg aFaultFwTail) else w.flt.keepTail }
    chans := { trained := w.chans.trained, masks := w.chans.masks }
    ports := { lds := w.ports.lds.map (fun x => (x.1, keptLd x.2)), modes := w.ports.modes }
    vorir := { spared := w.vorir.spared, half := w.vorir.half }
    out := w.out
    ctr := w.ctr }
  showLost (showLost w' 0) 1

/-- What the clock, the root of trust and the standby domain keep. -/
def keptEnv (e : Env) : Env :=
  { e with
    clk := { e.clk with phi := 0, srcOverride := none, srcNext := none, returned := true, follow := none, noFlit := 0, aligned := false }
    mer := { live := e.mer.live, pending := e.mer.pending }
    sec := { e.sec with sessions := [], nonces := [], debugs := [], handover := none, switching := false } }

/-- The main domain is held in reset (step 7). -/
def holdMain (e : Env) (w : Work) (self : Bool) : Env × Work :=
  let pwr := (List.range 80).foldl (fun n c => if chanState w c = chOff then n else n + 2 ^ c) 0
  let k := keptEnv e
  ({ k with rst := { k.rst with phase := .held, step := 0, ready := false, selfRefresh := self, noMajority := []
                                pwr := if e.rst.selfRefresh then e.rst.pwr else pwr } }, keptWork e w)

/-- Some channel is in self-refresh once its controller has entered it: one that was trained, or that had not left it. -/
def refreshed (e : Env) (w : Work) : Bool := e.rst.selfRefresh || w.chans.ch.any (fun x => x.2.mod.isSome)

/-- Steps 4 to 7: after a finished flush no line is unflushed; after a stopped one the count and list stand. -/
def execNearCacheFlushDone (t : Nat) (s : State) : Host.Outcome State Fault Refusal :=
  whole s (fun e w =>
    if e.rst.phase ≠ .entry ∨ e.rst.step < 2 then (e, w)
    else
      let e := e.at t
      let w := if e.rst.step = 2 then flushAll e w else dropRecords e w
      let e := if e.rst.step = 2 then { e with rst := { e.rst with unflushed := 0, dirty := [] } } else e
      let w := departLinks e w
      let e := e.setBackup 4 ((e.backupWord 4 + 1) % 2 ^ 32)
      holdMain e w (refreshed e w))

/-- The flush is stopped (R668): the count of dirty lines, and the DPAs of up to 128 of them. -/
def execFlushTimeout (s : State) : Host.Outcome State Fault Refusal :=
  whole s (fun e w =>
    if e.rst.phase = .entry ∧ e.rst.step = 2 then
      let ls := dirtyLines e w (fun _ => true)
      ({ e with rst := { e.rst with step := 3, unflushed := ls.length, dirty := (ls.take 128).map (64 * ·) } }, w)
    else (e, w))

/-- VIN below 34 V before entry has finished (20 R710): the main domain stops at once. -/
def execVinCollapse (mv : Nat) (s : State) : Host.Outcome State Fault Refusal :=
  whole s (fun e w =>
    if mainRuns e ∧ mv < 34000 then
      let e := startEntry e 2 e.clk.now
      let e := { e with rst := { e.rst with drives := sadd e.rst.drives 1, unflushed := 0, dirty := [] } }
      holdMain e (dropRecords e w) e.rst.selfRefresh
    else (e, w))

/-! ### Power (20 R706, R707; 02 R35, R36) -/

/-- Standby lost: everything but fuses and flash is lost; commands' log and free values go on. -/
def execStandbyLost (lowNs : Nat) (s : State) : Host.Outcome State Fault Refusal :=
  whole s (fun e w =>
    if standbyUp e ∧ 1000 ≤ lowNs then
      let sec := { e.sec with sessions := [], nonces := [], debugs := [], opened := 0, handover := none, switching := false }
      ({ clk := { now := e.clk.now }, sec := sec, board := e.board, rst := { phase := .off } }, { out := w.out, ctr := w.ctr })
    else (e, w))

/-- Power-on takes effect: the machine right after reset, with its fuses and flash, and BOARD_ID as strapped. A device that had lost
power joins a board as a follower (02 R57; log 155). -/
def execPowerOn (t board : Nat) (s : State) : Host.Outcome State Fault Refusal :=
  whole s (fun e w =>
    if standbyUp e then (e, w)
    else
      let now := max e.clk.now t
      ({ clk := { start := now, next := 8000000 + now, now := now, returned := true }, board := board % 4, sec := e.sec, keysel := triOf (keySelWord e.sec),
         jtag := e.jtag }, w))

/-! ### Bring-up (Table 18-4, R669-R673) -/

/-- A record that names a triplicated word: the backup word, 16 the live Meridian configuration, 17 KEYSEL, 18 its pending commit
(log 154). -/
def tripleRec (e : Env) (ty sev k : Nat) : FaultRec := { ty := ty, sev := sev, dev := e.board, agent := 0x7F, specific := k }

/-- Vote one word: its repaired copies, whether it has a majority, and TRIPLE_CORRECTED when a copy was rewritten. -/
def voteWord {α : Type} [DecidableEq α] (e : Env) (w : Work) (t : Tri α) (k : Nat) : Tri α × Bool × Work :=
  match t.vote with
  | some _ => (t.repaired, true, if t.repaired = t then w else raise e w (tripleRec e 0x8008 0 k))
  | none => (t, false, w)

/-- Vote every backup word, the Meridian configuration with its pending commit (02 R37), and KEYSEL; the words without a majority
come last. -/
def voteAll (e : Env) (w : Work) : Env × Work × List Nat :=
  let (e, w, bad) := e.backup.foldl (fun (x : Env × Work × List Nat) y =>
    let (t, ok, w) := voteWord e x.2.1 y.2 y.1
    ({ x.1 with backup := mset x.1.backup y.1 t }, w, if ok then x.2.2 else x.2.2 ++ [y.1])) (e, w, [])
  let (t, ok, w) := voteWord e w e.mer.live 16
  let e := { e with mer := { e.mer with live := t } }
  let bad := if ok then bad else bad ++ [16]
  let (t, ok, w) := voteWord e w e.mer.pending 18
  let e := { e with mer := { e.mer with pending := t } }
  let bad := if ok then bad else bad ++ [18]
  let (t, ok, w) := voteWord e w e.keysel 17
  ({ e with keysel := t }, w, if ok then bad else bad ++ [17])

/-- After the reset, a Meridian configuration without a majority takes the reset values of Table 2-3, which a vote without a
majority reads as already, and a pending commit without one is dropped (15 Table 15-3). -/
def defaultMer (e : Env) (k : Nat) : Env :=
  if k = 16 then { e with mer := { e.mer with live := triOf 0x10 } } else if k = 18 then e.setMerPending none else e

/-- Words without a majority that stop the bring-up (15 Table 15-3, Table 18-5). -/
def stopsBringup (k : Nat) : Bool := decide (k < 3) || k == 4 || (decide (7 ≤ k) && decide (k < 10)) || k == 17

/-- The values that words without a majority take: word 5 unknown, word 6 port 0, slots IDLE. -/
def defaultWord (e : Env) (k : Nat) : Env :=
  if k = 5 then e.setBackup 5 0xFF
  else if k = 6 then e.setBackup 6 0
  else if 10 ≤ k ∧ k < 16 then (e.setBackup (k / 2 * 2) 0).setBackup (k / 2 * 2 + 1) 0
  else e

/-- The record of an operation slot whose words have no majority (04 Table 4-10). -/
def slotLostRec (e : Env) (k : Nat) : FaultRec := { ty := 0x2009, sev := 1, dev := e.board, agent := 0x7F, unit := k }

/-- All four slots of some slotted item are retired (17 R628). -/
def allRetired (x : Sec) : Bool := (List.range 3).any (fun i => (liveSlot x i).isNone)

/-- Recovery mode (R674): the recovery port trains in SINGLE mode, every other port reads 0x0404. -/
def enterRecovery (e : Env) (w : Work) : Env × Work :=
  let p := recoveryPort e
  let w := (List.range 32).foldl (fun w q => if q = p then w else w.setFld (aPortStatus q) 15 0 0x0404) w
  let w := { w with ports := { w.ports with modes := mset w.ports.modes p 0 } }
  let w := (w.setFld (aPortCtl p) 27 26 0).setFld (aPortCtl p) 31 31 1
  ({ e with rst := { e.rst with phase := .recovery } }, trainHeads w p)

/-- A warm bring-up (R669). -/
def warmStart (e : Env) (bad : List Nat) : Bool :=
  !e.rst.powerOn && !(bad.any (fun k => decide (k < 3))) && e.backupWord 2 != 0 && e.rst.selfRefresh && decide (e.rst.unflushed ≤ 128)

/-- A cold bring-up treats every channel's contents as lost and trains all of them, from the next boundary on (step 5, 04 R116). -/
def coldWork (w : Work) : Work :=
  let w := { w with pool := {}, ops := [], dir := { lost := w.dir.lost, broadcast := w.dir.broadcast, outWays := w.dir.outWays }
                    regs := w.regs.filter (fun x => !((List.range 8).map aSpargeInitMark).contains x.1) }
  (List.range 80).foldl (fun w c => (w.setChan c { cold := true }).queue (.chanTo c chTraining)) w

/-- Steps 1 and 2 of bring-up, and step 5 of a cold one. -/
def bringup (e : Env) (w : Work) (t : Nat) (romOk : Bool) : Env × Work :=
  let e := e.at t
  let e := { e with sec := failTrials e.sec, rst := { e.rst with s := t, kick := t } }
  let n := bitsOf (e.backupWord 3) 7 0
  let (e, w, bad) := voteAll e w
  let e := bad.foldl defaultMer e
  let counted := e.setBackup 3 (min (n + 1) 255)
  match (if romOk then bootBank e else none) with
  | none => enterRecovery counted w
  | some b =>
    let e := { e with sec := { e.sec with running := b } }
    if bad.contains 3 ∨ 3 ≤ n then enterRecovery e w
    else
      let e := { counted with sec := e.sec }
      let e := bad.foldl defaultWord e
      let lost := bad.filter (fun k => decide (10 ≤ k ∧ k < 16) && !(k % 2 == 1 && bad.contains (k - 1)))
      let w := lost.foldl (fun w k => raise e w (slotLostRec e (k / 2 - 5))) w
      if bad.any stopsBringup ∨ allRetired e.sec = true then
        ({ e with rst := { e.rst with phase := .bringup, powerOn := false, stopped := true } }, w)
      else if warmStart e bad then
        ({ e with rst := { e.rst with phase := .bringup, stopped := false, cold := false } }, w)
      else
        let rst := { e.rst with phase := .bringup, powerOn := false, stopped := false, cold := true, selfRefresh := false
                                unflushed := 0, dirty := [] }
        ({ e with rst := rst }, coldWork w)

/-- Bring-up may begin: the main domain is held in reset or power-on has taken effect, and RST_N is high. -/
def mayBegin (e : Env) : Bool :=
  (e.rst.phase == .held || (e.rst.phase == .bringup && e.rst.powerOn)) && !e.rst.rstLow && e.rst.drives.isEmpty

def execBringupStart (t : Nat) (romOk : Bool) (s : State) : Host.Outcome State Fault Refusal :=
  whole s (fun e w => if mayBegin e then bringup e w t romOk else (e, w))

/-! ### Leaving self-refresh (14 R558, R560; 04 R122, R147-R149; 15 R602) -/

/-- Backup words 7-9 as one set of channels. -/
def notOnline (e : Env) : Nat := e.backupWord 7 + 2 ^ 32 * e.backupWord 8 + 2 ^ 64 * e.backupWord 9

def setNotOnline (e : Env) (v : Nat) : Env :=
  ((e.setBackup 7 (v % 2 ^ 32)).setBackup 8 (v / 2 ^ 32 % 2 ^ 32)).setBackup 9 (v / 2 ^ 64 % 2 ^ 32)

/-- The operation slot of the words of slot `k`, a rebuild with its list (log 175), a copy operation paused until its links are up
(Table 4-10). -/
def slotOf (e : Env) (w : Work) (k : Nat) : Option OpSlot :=
  let old : OpSlot := mgetD w.ops k { kind := 1 }
  let v := e.backupWord (10 + 2 * k)
  let mark := e.backupWord (11 + 2 * k)
  let kind := bitsOf v 31 28
  if kind = 1 then some { kind := 1, chan := bitsOf v 6 0, mark := mark, base := old.base, count := old.count }
  else if kind = 2 ∨ kind = 3 then
    some { kind := kind, parcel := bitsOf v 15 0, peer := bitsOf v 17 16, mirror := bitAt v 18, mark := mark
           st := if bitAt v 18 then 1 else 2 }
  else none

/-- The saved bank masks of a channel come into force. -/
def restoreMasks (w : Work) (c : Nat) : Work :=
  match mget w.chans.masks c with
  | some ms => (List.range 8).foldl (fun w k =>
      (w.setReg (aChannelBankMask c k) (ms.getD k 0)).setLiv (aChannelBankMask c k) (ms.getD k 0)) w
  | none => w

/-- One channel resumes: with its record and the state that words 7-9 and the slots give, or OUT when its training record or
its mask copy is unusable. A channel that was OFF comes back in OUT when its bit is set. -/
def resumeChannel (e : Env) (x : Env × Work) (c : Nat) (badRec badMask : Bool) : Env × Work :=
  let (e', w) := x
  if !bitAt e.rst.pwr c then (e', if bitAt (notOnline e) c then setChanState w c chOut else w)
  else
    let w := restoreMasks w c
    match (if badRec then none else mget w.chans.trained c) with
    | none =>
      let w := freeRebuild (setChanState (w.setFld (aChannelSvc c) 7 4 4) c chOut) c
      (setNotOnline e' (setBitAt (notOnline e') c true), raise e w { ty := 0x1009, sev := 1, unit := dramUnit c 0 0 0 })
    | some r =>
      let w := recordGeometry e (w.setChan c { mod := some r.mod, groups := r.groups }) c r.mod
      let w := w.setFld (aChannelTrainStatus c) 23 16 (groupSpan r.groups)
      if badMask || mget w.chans.masks c == some [] then
        (setNotOnline e' (setBitAt (notOnline e') c true),
         raise e (setChanState w c chOut) { ty := 0x100D, sev := 1, unit := dramUnit c 0 0 0 })
      else if !bitAt (notOnline e) c then (e', setChanState w c chOnline)
      else match rebuildSlot w c with
        | some (_, o) => (e', (setChanState w c chRebuilding).setReg2 (aChannelRebuildMark c) o.mark)
        | none => (e', setChanState w c chOut)

/-- Every channel leaves self-refresh. In `bad`, c names channel c's training record as unusable, 128 + c its mask copy. Lines
left unflushed take the poison pattern (R668). Each channel with a usable record has one re-centring slot (14 Table 14-8 X4). -/
def leaveRefresh (e : Env) (w : Work) (bad : List Nat) (drifts : List (Nat × Nat × Drift)) : Env × Work :=
  let w := (List.range 3).foldl (fun w k => match slotOf e w k with
    | some o => setSlot w k o
    | none => { w with ops := mdel w.ops k }) w
  let (e', w) := (List.range 80).foldl (fun x c => resumeChannel e x c (bad.contains c) (bad.contains (128 + c))) (e, w)
  let w := (List.range 80).foldl (fun w c =>
    if (w.chan c).mod.isNone then w else recentre e w c ((drifts.filter (fun x => x.1 == c)).map (·.2))) w
  let w := e.rst.dirty.foldl (fun w d => writeLost e w (d / 64)) w
  ({ e' with rst := { e'.rst with selfRefresh := false, unflushed := 0, dirty := [] } }, w)

def execSelfRefreshExit (found : RefreshExit) (s : State) : Host.Outcome State Fault Refusal :=
  whole s (fun e w =>
    if e.rst.phase = .bringup ∧ e.rst.cold = false ∧ e.rst.selfRefresh = true ∧ e.rst.stopped = false then leaveRefresh e w found.bad found.drifts
    else (e, w))

/-! ### The initialisation pass (R672) -/

/-- Plots of a tract. -/
def tractPlots (w : Work) (t : Nat) : Nat := moduleBytes w t * 10 / 2 ^ 21

/-- A device address lies in plots [lo, hi) of a tract. -/
def inPlots (w : Work) (t lo hi dpa : Nat) : Bool :=
  tractOf w dpa == t && decide (lo ≤ tractAddr dpa / 2 ^ 21) && decide (tractAddr dpa / 2 ^ 21 < hi)

/-- The zero image in the next plots of a tract. -/
def initTract (w : Work) (plots t : Nat) : Work :=
  let lo := w.reg (aSpargeInitMark t)
  let hi := min (tractPlots w t) (lo + plots)
  if hi ≤ lo then w
  else
    let outside (dpa : Nat) : Bool := !inPlots w t lo hi dpa
    ({ w with pool := { w.pool with
        mem := w.pool.mem.filter (fun x => outside x.1)
        poison := w.pool.poison.filter (fun l => outside (64 * l))
        bad := w.pool.bad.filter (fun l => outside (64 * l))
        keyed := w.pool.keyed.filter (fun x => outside (64 * x.1)) } }).setReg (aSpargeInitMark t) hi

/-- The pass writes the next plots of every tract; it belongs to a cold bring-up. -/
def execInitPass (plots : Nat) (s : State) : Host.Outcome State Fault Refusal :=
  traffic s (fun e w => if e.rst.cold && !e.rst.powerOn then (List.range 8).foldl (fun w t => initTract w plots t) w else w)

/-! ### Service, and starts that fail (R671, R673) -/

/-- Step 5 has finished: no channel is in self-refresh or still training. -/
def memoryUp (e : Env) (w : Work) : Bool :=
  !e.rst.selfRefresh && (List.range 80).all (fun c => chanState w c != chTraining && !w.due.contains (.chanTo c chTraining))

/-- Step 8 has finished: service, the RESET_DONE record with the cause, word 3 cleared; the provisioned fuse at the first
service. -/
def execResetDone (t : Nat) (s : State) : Host.Outcome State Fault Refusal :=
  whole s (fun e w =>
    if e.rst.phase = .bringup ∧ e.rst.powerOn = false ∧ e.rst.stopped = false ∧ memoryUp e w = true then
      let e := (e.at t).setBackup 3 0
      ({ e with rst := { e.rst with phase := .service, ready := true }, sec := { e.sec with provisioned := true } },
       raise e w { ty := 0x800E, dev := e.board, agent := 0x7F, specific := e.backupWord 5 })
    else (e, w))

def execStartTimeout (t : Nat) (s : State) : Host.Outcome State Fault Refusal :=
  whole s (fun e w =>
    if e.rst.phase = .bringup ∧ e.rst.powerOn = false ∧ e.rst.s + msPs 10000 ≤ t then (startEntry (e.at t) 6 t, w) else (e, w))

/-! ### Datum alone (R676) -/

/-- An operation goes on from the watermark committed at the last boundary (04 Table 4-10). -/
def backToMark (e : Env) (w : Work) (k : Nat) : Work :=
  match mget w.ops k with
  | some o =>
    let m := e.backupWord (11 + 2 * k)
    let w := setSlot w k { o with mark := min o.mark m, next := none }
    if o.kind = 1 then w.setReg2 (aChannelRebuildMark o.chan) (min o.mark m) else w
  | none => w

/-- Datum's processor and memory are reset: the ROM starts again (17 R631, R655), and management commands in progress are
abandoned. During bring-up this ends the bring-up (R664). -/
def resetDatum (e : Env) (w : Work) : Env × Work :=
  match e.rst.phase with
  | .bringup => (startEntry e (e.backupWord 5) e.clk.now, w)
  | .service | .recovery =>
    let sec := failTrials e.sec
    let e := { e with sec := { sec with handover := none, switching := false }, rst := { e.rst with kick := e.clk.now, record := false } }
    let e := { e with sec := { e.sec with running := (bootBank e).getD e.sec.running } }
    (e, (List.range 3).foldl (backToMark e) { w with ports := { w.ports with waiting := [] } })
  | _ => (e, w)

/-- A write of DATUM.SWRESET. -/
def swresetWrite (e : Env) (w : Work) (v : Nat) : Env × Work := if bitAt v 0 then resetDatum e w else (e, w)

def execDatumSwreset (v : Word) (s : State) : Host.Outcome State Fault Refusal :=
  whole s (fun e w => if mainRuns e then swresetWrite e w v.toNat else (e, w))

/-- The watchdog period in ps. -/
def watchdogPs (w : Work) : Nat := msPs (max 1 (w.fld aDatumWdt 15 0))

def execDatumWatchdog (t : Nat) (s : State) : Host.Outcome State Fault Refusal :=
  whole s (fun e w => if mainRuns e ∧ e.rst.kick + watchdogPs w ≤ t then resetDatum (e.at t) w else (e, w))

/-- A write of DATUM.WDT: its period, and with kick the period starts again. -/
def wdtWrite (e : Env) (w : Work) (v : Nat) : Env × Work :=
  (if bitAt v 31 then { e with rst := { e.rst with kick := e.clk.now } } else e, w.setFld aDatumWdt 15 0 (bitsOf v 15 0))

def execWdtKick (v : Word) (s : State) : Host.Outcome State Fault Refusal :=
  whole s (fun e w => if mainRuns e then wdtWrite e w v.toNat else (e, w))

/-! ### Output pins (20 R714, R715) -/

/-- PWR_EN of a channel: as the standby island holds it, else high in every state but OFF (04 R118). -/
def pwrEn (e : Env) (w : Work) (c : Nat) : Bool :=
  if e.rst.selfRefresh || !mainRuns e then standbyUp e && bitAt e.rst.pwr c else chanState w c != chOff

def readyPin (e : Env) : Bool := e.rst.ready

/-- THERM_N is low. -/
def thermLow (w : Work) : Bool :=
  decide (thermalFactor w < 64) || decide (w.kiln.coolant > Int.ofNat (4 * w.livF aKilnCoolant 7 0)) || w.kiln.sensorBad

/-- Severity of the record at sequence `n` of the firmware ring, as its entry in memory or the near cache reads. -/
def ringSev (e : Env) (w : Work) (n : Nat) : Nat :=
  let line := (w.reg2 aFaultFwBase + 64 * (n % fwEntries w)) / 64
  let key := match plotOwner e w line with | some p => keyOf e w p | none => none
  match ncGet w e.board line with
  | some x => bitsOf x.data.toNat 17 16
  | none => match rawRead w key line with
    | some p => bitsOf p.data.toNat 17 16
    | none => 0

/-- FAULT_N is low: an actionable record in the holding table or unconsumed in the firmware ring. -/
def faultLow (e : Env) (w : Work) : Bool :=
  w.flt.hold.any (fun r => r.sev == 1) ||
  (fwRingOn w && (List.range (diff32 (w.reg aFaultFwTail) (w.reg aFaultFwHead))).any (fun i => ringSev e w (w.reg aFaultFwHead + i) == 1))

end Sys2Proof.Machine
end

