-- ==== Sys2Proof/Machine/Sram.lean ====
section
/-! DEFINITION. On-die arrays (15 R577-R581): what an error does, and the spare rows and ways. -/

namespace Sys2Proof.Machine

/-! ### Arrays -/

/-- The number of the array that holds a word: its kind in [20:16] and its instance (log 91; the spec gives no numbering). -/
def sramNo (w : Work) (x : SramWord) : Nat :=
  match x with
  | .staging r n _ _ => ((getDesc w r n).bind (·.tun)).getD 0
  | .tunState r n _ => 0x10000 + ((getDesc w r n).bind (·.tun)).getD 0
  | .tunTable t _ => 0x20000 + t
  | .ncData l => 0x30000 + tractOf w (64 * l)
  | .ncTags t => 0x40000 + t
  | .dirCache d _ _ => 0x50000 + d
  | .xlatCache c _ => 0x60000 + c
  | .mapCopy _ => 0x70000
  | .extentTable a => 0x80000 + hostDie a
  | .waiter l _ _ => 0x90000 + dieOf w l
  | .ringState r => 0xA0000 + ringDie w r
  | .linkBuffer n => 0xB0000 + n
  | .readQueue l => 0xC0000 + channelOf w l
  | .writeQueue l => 0xD0000 + channelOf w l
  | .retained _ _ => 0xE0000
  | .datumMem => 0xF0000
  | .config k n => 0x100000 + 256 * k + n

/-- Spare rows of an array; R580 gives them by a size that the spec does not state for every array. -/
def spareRows (no : Nat) : Nat := Config.unstated 40 no

def Work.sram (w : Work) (no : Nat) : Sram := mgetD w.flt.arrays no {}
def Work.setSram (w : Work) (no : Nat) (x : Sram) : Work :=
  { w with flt := { w.flt with arrays := mset w.flt.arrays no x } }

/-! ### What an uncorrectable word does (Table 15-2) -/

/-- The severity of SRAM_UE. -/
def sramSev (e : Env) (w : Work) (x : SramWord) : Nat :=
  match x with
  | .ncData l => (match ncGet w e.board l with | some y => if y.dirty then 1 else 0 | none => 0)
  | .ncTags _ | .extentTable _ | .waiter _ _ _ | .ringState _ | .writeQueue _ | .retained _ _ | .datumMem | .config _ _ => 1
  | _ => 0

/-- A staged line: an input is poisoned, a result line is written poisoned. -/
def loseStaged (w : Work) (r : TileRef) : Work :=
  if r.pos < 2 ^ 20 then
    { w with home := { w.home with staged := w.home.staged.map (fun s => if s.1 = r then (s.1, ⟨s.2.data, true⟩) else s) } }
  else match getTile w r.ring r.n r.idx with
    | some t =>
      if t.st = .sent then w
      else putTile w { t with writes := t.writes.zipIdx.map (fun x => if x.2 = r.pos - 2 ^ 20 then poisonedWrite x.1 else x.1) }
    | none => w

/-- State of a descriptor: what it writes from tile `idx` on is poison, and it completes with POISONED_INPUT. -/
def loseState (w : Work) (ring n idx : Nat) : Work :=
  match getDesc w ring n with
  | none => w
  | some d =>
    let w := putDesc w { d with poisoned := true, tainted := true }
    (tilesOf w ring n).foldl (fun w t =>
      if t.idx < idx ∨ t.st = .sent then w else putTile w { t with writes := t.writes.map poisonedWrite }) w

/-- A near-cache line: a clean one is read again, a dirty one becomes poison in DRAM. -/
def loseNcLine (e : Env) (w : Work) (line : Nat) : Work :=
  match ncGet w e.board line with
  | none => w
  | some y => if y.dirty then poisonLine e w y.parcel line else ncDrop w e.board line

/-- The k-th entry of a translation cache is discarded (09 R375). -/
def loseEntry (w : Work) (cache k : Nat) : Work :=
  match (w.xlat.ents.filter (fun x => x.cache == cache))[k]? with
  | some y => { w with xlat := { w.xlat with ents := w.xlat.ents.filter (· != y) } }
  | none => w

/-- A waiter is removed as abandoned, its descriptor cancelled. -/
def loseWaiter (e : Env) (w : Work) (line ring n : Nat) : Work :=
  match w.sync.waiters.find? (fun x => x.line == line && x.ring == ring && x.n == n) with
  | some x => (match objAt e w line with
    | some o => removeWaiter e w x o.parcel o.off (some stCancelled)
    | none => dropWaiter w x)
  | none => w

/-- A write in a controller's queue is lost (14 R564). -/
def loseWrite (e : Env) (w : Work) (line : Nat) : Work :=
  let c := channelOf w line
  let x := w.chan c
  if x.writes.any (fun q => q.line == line) then
    repairWrite e (w.setChan c { x with writes := x.writes.filter (fun q => q.line != line) }) line
  else w

/-- A flit in a buffer is replayed as after a CRC failure: of a Daoth link, or of Vorir link n - 8. -/
def loseFlit (w : Work) (n : Nat) : Work :=
  if n < 8 then (if linkLive w n then askReplay (w.inc (aDaothPortCrcErr n) 1) n else w)
  else if n < 17 then vorirReplay w (n - 8)
  else w

/-- The action of Table 15-2. What the tags of a near-cache set lose is the command NEAR_CACHE_SET_SWEEP. -/
def sramAct (e : Env) (w : Work) (x : SramWord) : Env × Work :=
  match x with
  | .staging r n i p => (e, loseStaged w ⟨r, n, i, p⟩)
  | .tunState r n i => (e, loseState w r n i)
  | .tunTable t k => (e, match mget (w.tun t).tables k with
    | some (c, a, _) => w.setTun t { w.tun t with tables := mset (w.tun t).tables k (c, a, []) }
    | none => w)
  | .ncData l => (e, loseNcLine e w l)
  | .ncTags _ => (e, w)
  | .dirCache d s k => (e, { w with dir := { w.dir with cache := mdel w.dir.cache ((2 ^ 17 * d + s) * 32 + k) } })
  | .xlatCache c k => (e, loseEntry w c k)
  | .mapCopy _ => (e, w)
  | .extentTable a => (e, ldCtlWrite e (w.setLd a { w.ld a with extents := [], hdm := [] }) (a / 2) (a % 2) 0)
  | .waiter l r n => (e, loseWaiter e w l r n)
  | .ringState r => (e, if ringState w r = 1 then errRing e w r 0 0 else w)
  | .linkBuffer n => (e, loseFlit w n)
  | .readQueue _ => (e, w)
  | .writeQueue l => (e, loseWrite e w l)
  | .retained c m =>
    (e, { w with chans := { w.chans with
      trained := if m then w.chans.trained else mdel w.chans.trained c
      masks := if m then mset w.chans.masks c [] else w.chans.masks } })
  | .datumMem => resetDatum e w
  | .config k n => (e, blockCtlWrite e w (blockWord k n false))

/-! ### Errors of a frame (R577, R580) -/

/-- Corrected words that retire a row, and the frames within which they come. -/
def rowLimit : Nat := 4
def rowWindow : Nat := 131072

/-- The row of a word in its array's numbering; a way of the directory cache counts as a row. -/
def rowOf (x : SramErr) : Nat := match x.word with | .dirCache _ s k => s * 32 + k | _ => x.row

/-- A corrected word: counted, with a record coalesced per array and frame. -/
def sramFixed (e : Env) (w : Work) (x : SramErr) : Work :=
  let no := sramNo w x.word
  let a := w.sram no
  let fs := e.clk.frame :: (mgetD a.rows (rowOf x) []).filter (fun f => decide (e.clk.frame < f + rowWindow))
  let w := w.setSram no { a with
    fixed := a.fixed + 1
    rows := mset a.rows (rowOf x) fs
    failing := if rowLimit ≤ fs.length then sadd a.failing (rowOf x) else a.failing }
  raise e w { ty := 0x8004, dev := e.board, agent := 0x7F, unit := no + 9 * 2 ^ 24, coal := true }

/-- An uncorrectable word: its record (NEAR_CACHE_SET_SWEEP writes that of a tag set), its action, its row. -/
def sramLost (e : Env) (w : Work) (x : SramErr) : Env × Work :=
  let no := sramNo w x.word
  let a := w.sram no
  let w := w.setSram no { a with failing := sadd a.failing (rowOf x) }
  let w := match x.word with
    | .ncTags _ => w
    | _ => raise e w { ty := 0x8005, sev := sramSev e w x.word, dev := e.board, agent := 0x7F, unit := no + 9 * 2 ^ 24 }
  sramAct e w x.word

def sramErr (s : Env × Work) (x : SramErr) : Env × Work :=
  if x.ue then sramLost s.1 s.2 x else (s.1, sramFixed s.1 s.2 x)

/-! ### Spares at the boundary (R580, R581) -/

def spareRec (e : Env) (w : Work) (no ty sev : Nat) : Work :=
  raise e w { ty := ty, sev := sev, dev := e.board, agent := 0x7F, unit := no + 9 * 2 ^ 24 }

/-- A way of the directory cache: the set's spare way takes over with its entry, or the set runs with one way fewer, its held
removal first written to the store. -/
def spareWay (e : Env) (w : Work) (die row : Nat) : Work :=
  let set := row / 32
  let way := row % 32
  let key (k : Nat) : Nat := (2 ^ 17 * die + set) * 32 + k
  let first := !(w.dir.outWays.any (fun x => x.1 == die && x.2.1 == set))
  let ent := mget w.dir.cache (key way)
  let w := match ent with
    | some x => if !first && x.dirty then storeEntry e w acctDev x.line x.entry else w
    | none => w
  let cache := mdel w.dir.cache (key way)
  let cache := match ent with | some x => if first then mset cache (key 16) x else cache | none => cache
  let w := { w with dir := { w.dir with cache := cache, outWays := w.dir.outWays ++ [(die, set, way)] } }
  if first then spareRec e w (0x50000 + die) 0x8006 0 else spareRec e w (0x50000 + die) 0x8007 1

/-- A failing row is replaced, or stays in service when the array has no spare left. -/
def spareRow (e : Env) (no : Nat) (w : Work) (row : Nat) : Work :=
  if no / 2 ^ 16 = 5 then spareWay e w (no % 2 ^ 16) row
  else
    let a := w.sram no
    if a.spares < spareRows no then
      spareRec e (w.setSram no { a with spares := a.spares + 1, rows := mdel a.rows row }) no 0x8006 0
    else spareRec e w no 0x8007 1

def spareRowsDue (e : Env) (w : Work) : Work :=
  w.flt.arrays.foldl (fun w x =>
    if x.2.failing.isEmpty then w
    else x.2.failing.foldl (spareRow e x.1) (w.setSram x.1 { w.sram x.1 with failing := [] })) w

end Sys2Proof.Machine
end

