-- ==== Sys2Proof/Machine/Boundary.lean ====
section
/-! DEFINITION. The frame boundary (02 R36-R45, Table 2-1; 19 R695, R700, R701), MERIDIAN_SYNC edges, and the plan latch. -/

namespace Sys2Proof.Machine

/-! ### Snapshots (02 R43-R45; 19 R695, Table 19-6) -/

/-- A value of `bytes` bytes at an offset of the slot, in a number that begins at 0x40. -/
def snapAt (off bytes v : Nat) : Nat := v % 2 ^ (8 * bytes) * 2 ^ (8 * (off - 0x40))

/-- Reads of a class completed in the interval. -/
def snapReads (w : Work) (a c : Nat) : Nat := sumOf (List.range 16) (fun i => mgetD w.qos.ivHist (64 * a + 16 * c + i) 0)

def snapHost (w : Work) (a : Nat) : Nat :=
  let o := 0x40 + 48 * a
  snapAt o 4 (w.hreg a hQosGrant) + snapAt (o + 4) 4 (w.hreg a hQosCounted) + snapAt (o + 8) 8 (w.hreg2 a hEnergy) +
  sumOf (List.range 4) (fun c =>
    snapAt (o + 16 + 4 * c) 4 (min (mgetD w.qos.ivHwm (4 * a + c) 0) (2 ^ 32 - 1)) +
    snapAt (o + 32 + 2 * c) 2 (min (snapReads w a c) 0xFFFF))

def snapHist (w : Work) (a : Nat) : Nat :=
  sumOf (List.range 4) (fun c => sumOf (List.range 16) (fun i =>
    snapAt (0xC40 + 128 * a + 32 * c + 2 * i) 2 (min (mgetD w.qos.ivHist (64 * a + 16 * c + i) 0) 0xFFFF)))

def snapKiln (w : Work) : Nat :=
  snapAt 0x2C40 4 (w.reg aKilnBudget) + snapAt 0x2C44 4 (w.reg aKilnMeasured) + snapAt 0x2C48 8 (w.reg2 aKilnDeviceEnergy) +
  snapAt 0x2C50 8 (w.reg2 aKilnInputEnergy) + snapAt 0x2C58 4 (w.reg aKilnStatus) + snapAt 0x2C5C 4 (w.reg aKilnTemp) +
  sumOf [1, 2, 3, 4] (fun k => snapAt (0x2C5C + 4 * k) 4 (w.reg (aKilnCutFrames k))) + snapAt 0x2C70 4 (w.reg aKilnOverFrames)

def snapChan (w : Work) (c : Nat) : Nat :=
  snapAt (0x2D00 + 8 * c) 4 (w.reg (aChannelCeCount c)) + snapAt (0x2D04 + 8 * c) 2 (min (w.reg (aChannelUeCount c)) 0xFFFF) +
  snapAt (0x2D06 + 8 * c) 2 (min (w.reg (aChannelAlertCount c)) 0xFFFF)

def snapLink (w : Work) (n : Nat) : Nat :=
  let o := 0x2F80 + 32 * n
  snapAt o 4 (w.reg (aDaothPortCrcErr n)) + snapAt (o + 4) 4 (w.reg (aDaothPortReplays n)) + snapAt (o + 8) 4 (w.reg (aDaothPortDups n)) +
  snapAt (o + 12) 1 (linkState w n) + snapAt (o + 16) 8 (w.link n).sent

/-- The body of a slot, from offset 0x40, as the values stand at the latch. -/
def snapBody (w : Work) : Nat :=
  sumOf (List.range 64) (fun a => snapHost w a + snapHist w a) + snapKiln w +
  sumOf (List.range 32) (fun t => snapAt (0x2C80 + 4 * t) 4 (min (mgetD w.mash.overruns t 0) (2 ^ 32 - 1))) +
  sumOf (List.range 80) (snapChan w) + sumOf (List.range 8) (snapLink w) +
  snapAt 0x3080 4 (w.reg aMeridianSyncAccepted) + snapAt 0x3084 4 (w.reg aMeridianSyncIgnored) +
  snapAt 0x3088 4 (w.reg aMeridianSlewFrames) + snapAt 0x308C 4 (w.reg aMeridianSnapSkipped) +
  sumOf (List.range 8) (fun k => snapAt (0x3090 + 4 * k) 4 (w.reg (aFaultDrop k)))

/-- A snapshot is due in the frame that begins (R43). -/
def snapDue (e : Env) : Bool := e.mer.interval != 0 && e.clk.frame % e.mer.interval == 0 && e.mer.slots != 0

/-- The body is written; the header follows once the write is complete. `iv` are the interval marks at the latch. -/
def startSnap (e : Env) (w : Work) (body : Nat) (iv : AMap Nat × AMap Nat) : Env × Work :=
  if !snapDue e then (e, w)
  else
    let addr := e.mer.base + 16384 * (e.mer.slot % e.mer.slots)
    let w := fwWriteBytes e w (addr + 64) body (16384 - 64) false
    let w := { w with qos := { w.qos with ivHwm := [], ivHist := [], ivHeld := some iv } }
    ({ e with mer := { e.mer with writing := some ⟨addr, e.clk.frame, e.periodCode, e.mer.seq⟩ } }, w)

/-- The header is written last (R44): the slot is used, and the sequence goes on. -/
def completeSnap (e : Env) (w : Work) : Env × Work :=
  match e.mer.writing with
  | none => (e, w)
  | some x =>
    let w := fwWriteBytes e w x.addr (x.frame % 2 ^ 48 + 2 ^ 48 * (x.code % 2 ^ 8) + 2 ^ 64 * (x.seq % 2 ^ 32)) 64 false
    ({ e with mer := { e.mer with writing := none, slot := (e.mer.slot + 1) % max 1 e.mer.slots, seq := (e.mer.seq + 1) % 2 ^ 32 } },
     { w with qos := { w.qos with ivHeld := none } })

/-- The write is abandoned at B(f+1) + P/2 (R45): the header stays, and the increments go into the next snapshot. -/
def abandonSnap (e : Env) (w : Work) : Env × Work :=
  match e.mer.writing with
  | none => (e, w)
  | some _ =>
    let w := w.inc aMeridianSnapSkipped 1
    let (hwm, hist) := w.qos.ivHeld.getD ([], [])
    let qos := { w.qos with
      ivHwm := hwm.foldl (fun m x => mmod m x.1 0 (max · x.2)) w.qos.ivHwm
      ivHist := hist.foldl (fun m x => mmod m x.1 0 (· + x.2)) w.qos.ivHist
      ivHeld := none }
    ({ e with mer := { e.mer with writing := none } }, { w with qos := qos })

def execSnapshotAbandon (s : State) : Host.Outcome State Fault Refusal :=
  whole s (fun e w => if poolRuns e then abandonSnap e w else (e, w))

/-- The latch at B(f) + 3P/4; a snapshot's write that was not abandoned is complete by then. -/
def execPlanLatch (r : Sensors) (s : State) : Host.Outcome State Fault Refusal :=
  whole s (fun e w =>
    if poolRuns e then
      let (e, w) := completeSnap e w
      (e, planLatch e w r)
    else (e, w))

/-! ### The clock at a boundary (R36, R53, R54) -/

/-- The frame ends: its number goes up by one, or to the source's (R54). -/
def advance (e : Env) (w : Work) : Env :=
  let f := match e.clk.follow with
    | some (n, _, _) => n % 2 ^ 48
    | none => (e.clk.frame + 1) % 2 ^ 48
  { e with clk := { e.clk with
      frame := f
      start := e.clk.next
      lastPeriod := e.period
      now := max e.clk.now e.clk.next
      slewing := false
      noFlit := if isSource e w then 0 else e.clk.noFlit + 1 } }

/-- A follower takes the source's period, and records a frame number or period that differs (R54). `own` is the number that the
frame would have had. -/
def adopt (e : Env) (w : Work) (own : Nat) : Env × Work :=
  match e.clk.follow with
  | none => (e, w)
  | some (n, code, _) =>
    let was := e.periodCode
    let e := { e with clk := { e.clk with follow := none } }
    let e := if code = was then e else { e with mer := { e.mer with live := triOf (putBits e.merWord 7 0 code) } }
    if n % 2 ^ 48 = own ∧ code = was then (e, w)
    else (e, raise e w { ty := 0x8001, dev := e.board, agent := 0x7F, detail2 := own + 2 ^ 56 * was
                         specific := n % 2 ^ 48 + 2 ^ 56 * code })

/-- In CAPTURE the source adjusts the frame that begins (R51). -/
def slewNext (e : Env) (w : Work) : Env × Work := if isSource e w && e.syncMode == 2 then slew e w else (e, w)

/-- The frame that begins runs for the period in force. -/
def schedule (e : Env) (w : Work) : Env × Work := slewNext { e with clk := { e.clk with next := e.clk.start + e.period } } w

/-! ### Triplicated words at a boundary (15 R583, R584; R37) -/

/-- Words are voted. One that has lost its majority is recorded, also in retained SRAM, and forces a warm reset at the next
boundary. -/
def voteStep (e : Env) (w : Work) : Env × Work :=
  let had := e.rst.noMajority
  let (e, w, bad) := voteAll e w
  let fresh := bad.filter (fun k => !had.contains k)
  let w := fresh.foldl (fun w k => raise e w (tripleRec e 0x8009 1 k)) w
  let rec_ := match fresh.getLast? with
    | some k => some { tripleRec e 0x8009 1 k with frame := e.clk.frame }
    | none => e.rst.nmRec
  let e := { e with rst := { e.rst with noMajority := bad, nmRec := rec_ } }
  (if had.isEmpty then e else startEntry e 3 e.clk.start, w)

/-- The states of channels and the slots with their watermarks go to words 7-15 (04 R122, R147-R149), as the boundary leaves them
(Table 4-12). Before service they are the words of the run before until a channel has resumed. -/
def commitWords (e : Env) (w : Work) : Env :=
  if e.rst.powerOn || e.rst.stopped || e.rst.selfRefresh then e
  else
    let off := (List.range 80).foldl (fun n c => if chanState w c = chOnline then n else n + 2 ^ c) 0
    let e := setNotOnline e off
    (List.range 3).foldl (fun e k =>
      let (a, b) := match mget w.ops k with
        | some o => if o.st = 4 then (0, 0) else (slotWord o, o.mark)
        | none => (0, 0)
      (e.setBackup (10 + 2 * k) a).setBackup (11 + 2 * k) b) e

/-! ### Changes queued for a boundary (19 R700) -/

/-- Registers in force from a boundary, hosts that become SUSPECT, ports and logical devices. -/
def dueFirst (e : Env) (w : Work) (d : Due) : Work :=
  match d with
  | .gracePeriod v => w.setLiv aCoherenceGrace (max 1 (bitsOf v.toNat 15 0))
  | .snoopTimeout v => w.setLiv aCoherenceSnoopTimeout (max 100 (bitsOf v.toNat 15 0))
  | .peerCtl v => w.setLiv aPeerCtl v.toNat
  | .suspect a => becomeSuspect e w a
  | .ldOn a => applyLdOn e w a
  | .ldOff a => applyLdOff e w a
  | .portOff p => portDown e w p
  | .chanOut _ _ | .chanTo _ _ | .sched _ | .bankMask _ _ | .rebuild _ | .zero _ | .opStart _ _ _ => w

/-- Channel service transitions and operations. -/
def dueChannel (e : Env) (w : Work) (d : Due) : Work :=
  match d with
  | .chanOut c cause => applyOut e w c cause
  | .chanTo c st => applyChanTo w c st
  | .sched c => w.setLiv (aChannelSched c) (w.reg (aChannelSched c))
  | .bankMask c k => applyMask w c k
  | .rebuild c => applyRebuild e w c
  | .zero p => applyZero e w p
  | .opStart k p d => applyOpStart e w k p d
  | .gracePeriod _ | .snoopTimeout _ | .peerCtl _ | .suspect _ | .ldOn _ | .ldOff _ | .portOff _ => w

/-- A host of this device at a boundary (05 Table 5-6, R204): a SUSPECT one returns or is LOST at its deadline; a LOST one returns
once every device has swept. What became SUSPECT at this boundary stays so. -/
def hostStep (e : Env) (w : Work) (a : Nat) : Work :=
  let h := w.host e.board a
  match h.coh with
  | .active => w
  | .suspect => if e.clk.start ≤ h.since then w else if mayReturn e w a then becomeActive e w e.board a else graceEnd e w a
  | .lost => if h.sweepsOpen.isEmpty && headUp w a && (w.ld a).enabled then becomeActive e w e.board a else w

/-- Error counting restarts in a frame whose number is a multiple of the window (14 R565). -/
def errWindow (e : Env) (w : Work) (c : Nat) : Work :=
  if e.clk.frame % max 1 (w.fld (aChannelErrWindow c) 23 0) = 0 then
    { w with chans := { w.chans with
      ueLines := mdel w.chans.ueLines c
      ceWin := mdel w.chans.ceWin c
      alertWin := mdel w.chans.alertWin c
      noted := w.chans.noted.filter (· != c) } }
  else w

/-- Abandoned waiters of the frame that ended leave the debug view; saves and restores run (10 R431-R433, R436). -/
def syncStep (e : Env) (w : Work) : Work := applySyncOp e { w with sync := { w.sync with recent := [] } }

/-! ### The boundary -/

/-- Steps 3 to 7 of a boundary of the pool, once the clock has advanced; `f` is the frame that ended. -/
def poolSteps (e : Env) (w : Work) (f : Nat) : Env × Work :=
  let ds := w.due
  let w := closeBanks e { w with due := [] } f
  -- step 4, in the order of R700
  let w := ds.foldl (dueFirst e) w
  let w := drains e (sheetSettle e (applyCadastre e w))
  let w := applyInvals e (applyCtxCmds e (applyHdm w))
  let w := applyKiln (applyQos e w)
  let (e, w) := applyMeridian e w
  let (e, w) := applySource e w
  let w := placeAside (applyRetire e (applyRoles e w))
  let w := (List.range 80).foldl (repairDone e) w
  let w := (List.range 80).foldl (rebuildOnline e) (dueDrains e (ds.foldl (dueChannel e) w))
  let w := blocksBoundary e w
  -- hosts, logical devices, sync engines, links
  let w := (List.range 64).foldl (fun w a => ldAnswer e (hostStep e w a) a) w
  let w := vendorReplies (syncStep e w)
  let w := settleSlots (endViews e (applyLosses e (linksBoundary e w)))
  let w := spareRowsDue e (vorirBoundary e w)
  let w := settleAll e (dropWindows w)
  let w := dueRepairs e (deferAll w f)
  let e := commitWords e w
  -- steps 5 to 7
  let w := installPlan e w
  let (e, w) := schedule e w
  let w := (List.range 80).foldl (fun w c => errWindow e (installSlots e w c) c) w
  (e, sendTiming e w)

/-- In recovery mode only ports, block resets and the Meridian act (18 R674). -/
def recoverySteps (e : Env) (w : Work) : Env × Work :=
  let ds := w.due
  let w := ds.foldl (dueFirst e) { w with due := [] }
  let (e, w) := applyMeridian e w
  let (e, w) := applySource e w
  let w := blocksBoundary e w
  schedule e ((List.range 64).foldl (ldAnswer e) w)

/-- While the main domain is held, the boundary unit keeps counter and schedule (R36). -/
def heldSteps (e : Env) (w : Work) : Env × Work :=
  let (e, w) := applyMeridian e w
  schedule e w

/-- B(f+1), with the errors that on-die arrays returned in frame f. -/
def boundary (e : Env) (w : Work) (errs : List SramErr) : Env × Work :=
  if e.rst.phase = .off then (e, w)
  else
    let f := e.clk.frame
    let (e, w) := if poolRuns e then errs.foldl sramErr (completeSnap e w) else (e, w)
    let (e, w) := adopt (advance e w) w ((f + 1) % 2 ^ 48)
    let (e, w) := voteStep e w
    if !mainRuns e then heldSteps e w
    else if !poolRuns e then recoverySteps e w
    else
      let w := (List.range 3).foldl (commitMark e) w
      let w := showHosts (closeAccounts e w)
      let body := snapBody w
      let iv := (w.qos.ivHwm, w.qos.ivHist)
      let (e, w) := poolSteps e w f
      startSnap e w body iv

def execFrameBoundary (errs : List SramErr) (s : State) : Host.Outcome State Fault Refusal :=
  whole s (fun e w => boundary e w errs)

/-- A rising edge on MERIDIAN_SYNC; one that ends the frame is followed by its boundary (R48). -/
def execMeridianSyncEdge (t highNs : Nat) (s : State) : Host.Outcome State Fault Refusal :=
  whole s (fun e w => match syncEdge e w t highNs with
    | (true, e, w) => boundary e w []
    | (false, e, w) => (e, w))

end Sys2Proof.Machine
end

