-- ==== Sys2Proof/Machine/RegWrite.lean ====
section
/-! DEFINITION. Register accesses (19 R681-R689, R691; 17 R623; 00 R4-R8): Datum's writes of the management space, hosts' writes of
their pages, and Datum's reads. -/

namespace Sys2Proof.Machine

/-! ### Addresses -/

/-- The instance whose register at offset `off` lies at the address. -/
def instAt (addr base count stride off : Nat) : Option Nat :=
  if base ≤ addr ∧ addr < base + count * stride ∧ (addr - base) % stride = off then some ((addr - base) / stride) else none

/-- Blocks that recovery mode powers (R687, 18 R674): the Meridian, RESET, Datum and the recovery port. -/
def powered (e : Env) (addr : Nat) : Bool :=
  !(e.rst.phase == .recovery) || decide (addr < 0x100) || (decide (0xF80 ≤ addr) && decide (addr < 0x2000)) ||
  addr / 16 == aPortCtl (recoveryPort e) / 16

/-! ### Writes of the management space -/

/-- The owning block is enabled, so that its RWL fields keep their values (00 Table 0-3). -/
def rwlLocked (w : Work) (addr : Nat) : Bool :=
  if (aMemmapTractXor 0 ≤ addr ∧ addr < 0x300) ∨ (0x3000 ≤ addr ∧ addr < 0x3200) then w.fld aMemmapCtl 31 31 == 1
  else if addr = aDaothCtl then (List.range 8).any (fun n => linkOn w n || (w.link n).off)
  else if 0xB00 ≤ addr ∧ addr < 0xC00 then fwRingOn w
  else if 0x4000 ≤ addr ∧ addr < 0x4400 then
    tunRole w ((addr - 0x4000) / 0x20) == roleServe || tunRole w ((addr - 0x4000) / 0x20) == roleBackground
  else if 0x8000 ≤ addr ∧ addr < 0xA000 then mhas w.mash.wins ((addr - 0x8000) / 0x20)
  else if 0x20000 ≤ addr ∧ addr < 0x30000 then
    w.fld (aRingCtl ((addr - 0x20000) / 0x40)) 31 31 == 1 || (getRing w ((addr - 0x20000) / 0x40)).isSome
  else false

/-- A write of a register without an action of its own: its RW fields, and its RWL fields while they are not locked. -/
def plainWrite (w : Work) (addr v : Nat) : Work :=
  match regLay addr with
  | some l => w.setMask addr (if rwlLocked w addr then l.rw else l.rw ||| l.rwl) v
  | none => w

/-- PPR_CTL.go written as a plain register write: whether the module has a resource and confirms the repair is open (log 9). -/
def pprWrite (w : Work) (c v : Nat) : Work :=
  if !bitAt v 31 then w.setReg (aChannelPprCtl c) (2 ^ 20 * bitsOf v 28 20 + bitsOf v 16 0)
  else
    let (r, w) := w.free
    let (k, w) := w.free
    pprStart w c v (r % 2 == 0) (k % 2 == 0) []

/-- A register of a repeated block that acts when written. -/
def instWrite (e : Env) (w : Work) (addr v : Nat) : Option Work :=
  (instAt addr 0x2000 2 0x100 0).map (fun d => gazWrite e w d v) <|>
  (instAt addr 0x2400 2 0x100 0).map (fun d => viewWrite e w d v) <|>
  (instAt addr 0x3800 8 0x20 0).map (fun n => daothCtlWrite e w n v) <|>
  (instAt addr 0x4000 32 0x20 0).map (fun t => roleCtlWrite w t v) <|>
  (instAt addr 0x4000 32 0x20 0xC).map (fun t => showCores (plainWrite w addr v) t) <|>
  (instAt addr 0x5000 64 0x10 0).map (fun a => qosHostWrite e w a v) <|>
  (instAt addr 0x6000 32 0x10 0).map (fun p => portCtlWrite e w p v) <|>
  (instAt addr 0x6000 32 0x10 8).map (fun p => ldCtlWrite e w p 0 v) <|>
  (instAt addr 0x6000 32 0x10 0xC).map (fun p => ldCtlWrite e w p 1 v) <|>
  (instAt addr 0x8000 256 0x20 0).map (fun k => windowCtlWrite e w k v) <|>
  (instAt addr 0x10000 80 0x80 0).map (fun c => svcWrite e w c v) <|>
  (instAt addr 0x10000 80 0x80 0x1C).map (fun c => schedWrite w c v) <|>
  (instAt addr 0x10000 80 0x80 0x3C).map (fun c => pprWrite w c v) <|>
  ((List.range 8).findSome? (fun k => (instAt addr 0x10000 80 0x80 (0x44 + 4 * k)).map (fun c => maskWrite w c k v))) <|>
  (instAt addr 0x20000 1024 0x40 0).map (fun r => ringCtlWrite e w r v)

/-- A register of a single block that acts when written; Datum's own registers are `datumWrite`. -/
def ctlWrite (e : Env) (w : Work) (addr v : Nat) : Option Work :=
  if addr = aCadastreCtl then some (cadCtlWrite e w v)
  else if addr = aMemmapCtl then some (memmapWrite w v)
  else if addr = aProtectOpCtl then some (opCtlWrite e w v)
  else if addr = aCoherenceGrace then some ((plainWrite w addr v).queue (.gracePeriod (BitVec.ofNat 32 (v % 2 ^ 16))))
  else if addr = aCoherenceSnoopTimeout then some ((plainWrite w addr v).queue (.snoopTimeout (BitVec.ofNat 32 (v % 2 ^ 16))))
  else if addr = aPeerCtl then some ((plainWrite w addr v).queue (.peerCtl (BitVec.ofNat 32 (v % 2 ^ 17))))
  else if addr = aXlatCtxCmd then some (ctxCmdWrite e w v)
  else if addr = aSyncCtxCmd then some (syncCmdWrite e w v)
  else if addr = aQosCtl then some (qosCtlWrite e w v)
  else if addr = aFaultFwCtl then some (fwCtlWrite e w v)
  else if addr = aFaultFwHead then some (fwHeadWrite e w v)
  else if addr = aKilnCtl then some (kilnCtlWrite w v)
  else if addr = aSpargeZeroCtl then some (zeroCtlWrite e w v)
  else if addr = aSheetMoveCtl then some (sheetMoveWrite e w v)
  else if addr = aResetBlockCtl then some (blockCtlWrite e w v)
  else instWrite e w addr v

/-- DATUM.BACKUP[n] may be written in recovery mode, and in step 6 of a cold bring-up except for words 7-15 (18 R675). -/
def backupOpen (e : Env) (n : Nat) : Bool :=
  recovering e || (e.rst.phase == .bringup && e.rst.cold && !e.rst.powerOn && !e.rst.stopped && decide (n < 7))

/-- Registers whose writes act on more than traffic. -/
def datumWrite (e : Env) (w : Work) (addr v : Nat) : Option (Env × Work) :=
  if addr = aMeridianCtl then some (merCtlWrite e w v)
  else if addr = aResetWarm then some (warmWrite e v, w)
  else if addr = aDatumSwreset then some (swresetWrite e w v)
  else if addr = aDatumWdt then some (wdtWrite e w v)
  else (instAt addr 0x1000 16 4 0).map (fun n => (if backupOpen e n then e.setBackup n v else e, w))

/-- A write of the management space by Datum (R681, R682, R687, R688). -/
def regWrite (e : Env) (w : Work) (addr v : Nat) : Env × Work :=
  if (regLay addr).isNone || !powered e addr then (e, w)
  else match datumWrite e w addr v with
    | some x => x
    | none => match ctlWrite e w addr v with
      | some w => (e, w)
      | none => (e, plainWrite w addr v)

/-! ### Writes of a host (R681, R693, R694; 17 R623) -/

/-- A register of the host's page, at its offset from 0x3_0000. -/
def pageWrite (e : Env) (w : Work) (a off v : Nat) : Work :=
  if off = hInvalCtl then invalWrite e w a v
  else if off = hFaultHostCtl then hostCtlWrite w a v
  else if off = hFaultHostHead then hostHeadWrite e w a v
  else if hLatClear 0 ≤ off ∧ off ≤ hLatClear 3 then (if bitAt v 0 then latClear w a ((off - hLatClear 0) / 4) else w)
  else match hostLay off with
    | some l =>
      let m := if w.hfld a hFaultHostCtl 31 31 = 1 then l.rw else l.rw ||| l.rwl
      w.setHreg a off (w.hreg a off - (w.hreg a off &&& m) + (v &&& m))
    | none => w

/-- A ring page (08 Table 8-3). -/
def ringPageWrite (e : Env) (w : Work) (a r off v : Nat) : Work :=
  if off = 0 then tailWrite w a r v
  else if off = 8 then cqHeadWrite w a r v
  else if off = 0x10 then doorbellCmd e w a r v
  else w

/-- The doorbell BAR's place in the addresses of REGISTER_WRITE (log 92): the setup BAR lies at 0. -/
def doorbellBase : Nat := 2 ^ 48

/-- A 32-bit write of a host to one of its BARs. -/
def hostWrite (e : Env) (w : Work) (a addr v : Nat) : Work :=
  if doorbellBase ≤ addr ∧ addr < doorbellBase + 0x400000 then
    doorIn e w a (fun w =>
      if addr % 4 ≠ 0 then w else ringPageWrite e w a ((addr - doorbellBase) / 0x1000) ((addr - doorbellBase) % 0x1000) v)
  else barIn e w a (fun w =>
    if doorbellBase + 2 ^ 47 ≤ addr then w.emit (.hostUr a 0)
    else if addr % 4 ≠ 0 then w
    else if doorbellBase ≤ addr then w
    else if 0x30000 ≤ addr ∧ addr < 0x40000 then pageWrite e w a (addr - 0x30000) v
    else w)

def execRegisterWrite (agent addr : Nat) (v : Word) (s : State) : Host.Outcome State Fault Refusal :=
  whole s (fun e w =>
    if agent = 0x7F then (if mainRuns e then regWrite e w addr v.toNat else (e, w))
    else if agent < 64 ∧ poolRuns e = true then (e, hostWrite e w agent addr v.toNat)
    else (e, w))

/-! ### Reads of the management space (R684, R689, R691) -/

/-- MERIDIAN.STATUS (Table 19-2). A follower reads aligned until a frame has passed without a flit (log 152). -/
def merStatus (e : Env) (w : Work) : Nat :=
  (if isSource e w || (e.clk.aligned && decide (e.clk.noFlit ≤ 1)) then 2 ^ 31 else 0) + (if e.merPending.isSome then 2 ^ 30 else 0) +
  2 ^ 26 * e.syncMode + 2 ^ 24 * shownSource e w + 2 ^ 16 * e.periodCode + w.fld aMeridianStatus 15 0

/-- A directory entry (05 Table 5-2). -/
def entryWord (w : Work) (die : Nat) (x : DirWay) : Nat :=
  let d := x.entry
  let ptr (i : Nat) : Nat := d.holders.getD i 0 * 2 ^ (7 + 8 * i)
  2 ^ 44 * (x.line / 2 ^ gazK w die % 2 ^ 20) +
  2 ^ 42 * (match d.st with | .uncached => 0 | .shared => 1 | .exclusive => 2) +
  (if d.coarse then 2 ^ 41 + d.regions.toNat * 2 ^ 7 else 2 ^ 39 * (d.holders.length - 1) + sumOf (List.range 4) ptr) +
  d.peerSet.toNat * 2 ^ 3 + (if d.peerOwned then 4 else 0) + d.peerOwner % 4

/-- The bookkeeping word of a way (Table 19-3). -/
def bookWord (w : Work) (die set : Nat) (x : DirWay) : Nat :=
  let age := ((List.range 17).filter (fun k => match mget w.dir.cache ((2 ^ 17 * die + set) * 32 + k) with
    | some y => decide (x.stamp < y.stamp)
    | none => false)).length
  2 ^ 15 + (if x.dirty then 2 ^ 14 else 0) + 2 ^ 10 * min age 15 + storeSet w x.line / 2 ^ 17 % 2 ^ (gazK w die - 17)

/-- PROBE_DATA[k] of the way that PROBE selects. -/
def probeData (w : Work) (die k : Nat) : Nat :=
  let set := w.fld (aGazProbe die) 16 0
  let way := w.fld (aGazProbe die) 21 17
  if w.dir.outWays.contains (die, set, way) then 0
  else match mget w.dir.cache ((2 ^ 17 * die + set) * 32 + way) with
    | none => 0
    | some x => if k = 2 then bookWord w die set x else bitsOf (entryWord w die x) (32 * k + 31) (32 * k)

/-- Occupancy of all queues in 1/256 (11 R453); what they hold together the spec does not state. -/
def occupancy (w : Work) : Nat := Config.unstated 31 (allReqs w).length % 257

/-- HOSTPAGE[a], with the true value of QOS.GLOBAL. -/
def pageRead (w : Work) (a off : Nat) : Nat :=
  if (hostLay off).isNone then 0
  else if off = hQosGlobal then occupancy w
  else if off = hQosGlobal + 4 then w.reg (aQosGlobal + 4)
  else w.hreg a off

/-- What Datum reads at an address. -/
def regRead (e : Env) (w : Work) (addr : Nat) : Nat :=
  if addr % 4 ≠ 0 || !powered e addr then 0
  else if 0x100000 ≤ addr ∧ addr < 0x140000 then pageRead w ((addr - 0x100000) / 0x1000) (addr % 0x1000)
  else if (regLay addr).isNone then 0
  else if addr = aMeridianStatus then merStatus e w
  else if addr = aFaultStatus then w.fld aFaultStatus 15 0 + 2 ^ 16 * w.flt.fifo.length + 2 ^ 25 * w.flt.hold.length
  else if addr = aQosGlobal then occupancy w
  else if addr = aSyncRun then bitsOf (e.backupWord 4) 13 0
  else match instAt addr 0x1000 16 4 0 with
    | some n => e.backupWord n
    | none => match (List.range 3).findSome? (fun k => (instAt addr 0x2000 2 0x100 (0xC + 4 * k)).map (fun d => probeData w d k)) with
      | some x => x
      | none => w.reg addr

/-- The lower registers of 64-bit RO counters: energies of Kiln, of hosts, of contexts, and in the host pages. -/
def counterLow (addr : Nat) : Bool :=
  addr == aKilnInputEnergy || addr == aKilnDeviceEnergy ||
  (instAt addr 0x5800 64 8 0).isSome || (instAt addr 0x40000 4096 8 0).isSome || (instAt addr 0x100000 64 0x1000 hEnergy).isSome

/-- A read of Datum: the lower register of a counter latches the upper half, which the next read of the upper one returns. -/
def counterRead (e : Env) (w : Work) (addr : Nat) : Work :=
  if counterLow addr then
    { w with half := mset w.half (addr + 4) (BitVec.ofNat 32 (regRead e w (addr + 4))) }.emit (.read 0x7F addr (regRead e w addr))
  else match mget w.half addr with
    | some v => { w with half := mdel w.half addr }.emit (.read 0x7F addr v.toNat)
    | none => w.emit (.read 0x7F addr (regRead e w addr))

def execCounterLowerRead (addr : Nat) (s : State) : Host.Outcome State Fault Refusal := serve s (fun e w => counterRead e w addr)

end Sys2Proof.Machine
end

