-- ==== Sys2Proof/Machine/Dispatch.lean ====
section
/-! DEFINITION. Every command and its meaning. -/

namespace Sys2Proof.Machine

def exec (i : Instr) (s : State) : Host.Outcome State Fault Refusal :=
  match i with
  | .frameBoundary errs => Sys2Proof.Machine.execFrameBoundary errs s
  | .snapshotAbandon => Sys2Proof.Machine.execSnapshotAbandon s
  | .revokeDrainForced parcel => Sys2Proof.Machine.execRevokeDrainForced parcel s
  | .holderRemovalDrainForced parcel agent => Sys2Proof.Machine.execHolderRemovalDrainForced parcel agent s
  | .planLatch r => Sys2Proof.Machine.execPlanLatch r s
  | .kilnSample stages => Sys2Proof.Machine.execKilnSample stages s
  | .meridianSyncEdge t highNs => Sys2Proof.Machine.execMeridianSyncEdge t highNs s
  | .timingFlitReceive frame code src boundary => Sys2Proof.Machine.execTimingFlitReceive frame code src boundary s
  | .meridianSourceLost => Sys2Proof.Machine.execMeridianSourceLost s
  | .meridianCommit v => Sys2Proof.Machine.execMeridianCommit v s
  | .tileIssue ring n t dur bytes energy => Sys2Proof.Machine.execTileIssue ring n t dur bytes energy s
  | .tileDispatch ring n idx epoch => Sys2Proof.Machine.execTileDispatch ring n idx epoch s
  | .staleRole ring n idx tun => Sys2Proof.Machine.execStaleRole ring n idx tun s
  | .staleResponseDiscard tun epoch => Sys2Proof.Machine.execStaleResponseDiscard tun epoch s
  | .tileTranslate ring n idx => Sys2Proof.Machine.execTileTranslate ring n idx s
  | .tileComplete ring n idx t => Sys2Proof.Machine.execTileComplete ring n idx t s
  | .arithRetry ring n idx third rerunOk thirdOk => Sys2Proof.Machine.execArithRetry ring n idx third rerunOk thirdOk s
  | .strikeLapse tun core => Sys2Proof.Machine.execStrikeLapse tun core s
  | .roleTileAbandon ring n idx tun => Sys2Proof.Machine.execRoleTileAbandon ring n idx tun s
  | .tunRoleCommit tun v => Sys2Proof.Machine.execTunRoleCommit tun v s
  | .hostMemrdI q => Sys2Proof.Machine.execHostMemrdI q s
  | .hostMemrdS q => Sys2Proof.Machine.execHostMemrdS q s
  | .hostMemrdA q => Sys2Proof.Machine.execHostMemrdA q s
  | .hostMemwr q mv d => Sys2Proof.Machine.execHostMemwr q mv d s
  | .hostMemwrptl q mv d mask => Sys2Proof.Machine.execHostMemwrptl q mv d mask s
  | .hostMemclnevct q => Sys2Proof.Machine.execHostMemclnevct q s
  | .hostMemspecrd q => Sys2Proof.Machine.execHostMemspecrd q s
  | .hostAtomicFetchadd q size x => Sys2Proof.Machine.execHostAtomicFetchadd q size x s
  | .hostAtomicSwap q size x => Sys2Proof.Machine.execHostAtomicSwap q size x s
  | .hostAtomicCas q size cmp new => Sys2Proof.Machine.execHostAtomicCas q size cmp new s
  | .retry line dev agent tag => Sys2Proof.Machine.execRetry line dev agent tag s
  | .birsp agent line resp => Sys2Proof.Machine.execBirsp agent line resp s
  | .biconflict agent line => Sys2Proof.Machine.execBiconflict agent line s
  | .snoopTimeout agent line => Sys2Proof.Machine.execSnoopTimeout agent line s
  | .graceDeadline agent => Sys2Proof.Machine.execGraceDeadline agent s
  | .hostLostSweep dev agent count => Sys2Proof.Machine.execHostLostSweep dev agent count s
  | .nearCacheEvict line => Sys2Proof.Machine.execNearCacheEvict line s
  | .stripeWriteBack line => Sys2Proof.Machine.execStripeWriteBack line s
  | .dramReadReturn line err => Sys2Proof.Machine.execDramReadReturn line err s
  | .dramAccessArrive chan isWrite line t d => Sys2Proof.Machine.execDramAccessArrive chan isWrite line t d s
  | .refreshSlot chan sub rank => Sys2Proof.Machine.execRefreshSlot chan sub rank s
  | .rfmSlot chan sub rank bank => Sys2Proof.Machine.execRfmSlot chan sub rank bank s
  | .zqCalibration chan sub rank => Sys2Proof.Machine.execZqCalibration chan sub rank s
  | .ecsOperation chan sub rank => Sys2Proof.Machine.execEcsOperation chan sub rank s
  | .mr4Read chan sub rank double => Sys2Proof.Machine.execMr4Read chan sub rank double s
  | .spdThermalRead chan reading => Sys2Proof.Machine.execSpdThermalRead chan reading s
  | .recentreSlot chan alert groups => Sys2Proof.Machine.execRecentreSlot chan alert groups s
  | .dramAlert chan sub t => Sys2Proof.Machine.execDramAlert chan sub t s
  | .dramAlertCleared chan sub t => Sys2Proof.Machine.execDramAlertCleared chan sub t s
  | .channelQuiesce chan => Sys2Proof.Machine.execChannelQuiesce chan s
  | .channelPowerOff chan => Sys2Proof.Machine.execChannelPowerOff chan s
  | .channelPowerOnTrain chan => Sys2Proof.Machine.execChannelPowerOnTrain chan s
  | .channelRetrain chan => Sys2Proof.Machine.execChannelRetrain chan s
  | .channelRebuild chan => Sys2Proof.Machine.execChannelRebuild chan s
  | .channelOut chan => Sys2Proof.Machine.execChannelOut chan s
  | .trainingPassed chan m groups => Sys2Proof.Machine.execTrainingPassed chan m groups s
  | .trainFailed chan code group sub rank => Sys2Proof.Machine.execTrainFailed chan code group sub rank s
  | .rebuildStep chan => Sys2Proof.Machine.execRebuildStep chan s
  | .pprSppr chan v resource confirmed bad => Sys2Proof.Machine.execPprSppr chan v resource confirmed bad s
  | .pprHppr chan v resource confirmed => Sys2Proof.Machine.execPprHppr chan v resource confirmed s
  | .channelSchedWrite chan v => Sys2Proof.Machine.execChannelSchedWrite chan v s
  | .bankMaskWrite chan k v => Sys2Proof.Machine.execBankMaskWrite chan k v s
  | .patrolRead errs => Sys2Proof.Machine.execPatrolRead errs s
  | .mirrorWr h parcel gen off m => Sys2Proof.Machine.execMirrorWr h parcel gen off m s
  | .mirrorAck h a => Sys2Proof.Machine.execMirrorAck h a s
  | .establish v => Sys2Proof.Machine.execEstablish v s
  | .resilver v => Sys2Proof.Machine.execResilver v s
  | .establishChunk slot => Sys2Proof.Machine.execEstablishChunk slot s
  | .resilverPlot slot => Sys2Proof.Machine.execResilverPlot slot s
  | .copyWr h line d => Sys2Proof.Machine.execCopyWr h line d s
  | .mark h parcel value => Sys2Proof.Machine.execMark h parcel value s
  | .slotClaim h c => Sys2Proof.Machine.execSlotClaim h c s
  | .prdcur h x line => Sys2Proof.Machine.execPrdcur h x line s
  | .prds h x line => Sys2Proof.Machine.execPrds h x line s
  | .prdx h x line => Sys2Proof.Machine.execPrdx h x line s
  | .pupg h x line => Sys2Proof.Machine.execPupg h x line s
  | .pwr h x line d mask => Sys2Proof.Machine.execPwr h x line d mask s
  | .pwb h x line d => Sys2Proof.Machine.execPwb h x line d s
  | .pevict h x line => Sys2Proof.Machine.execPevict h x line s
  | .pgnt h line st d => Sys2Proof.Machine.execPgnt h line st d s
  | .psnpinv h line => Sys2Proof.Machine.execPsnpinv h line s
  | .psnpshr h line => Sys2Proof.Machine.execPsnpshr h line s
  | .psnpcur h line => Sys2Proof.Machine.execPsnpcur h line s
  | .psnptake h line => Sys2Proof.Machine.execPsnptake h line s
  | .psnphost h parcel line lines kind regions hosts => Sys2Proof.Machine.execPsnphost h parcel line lines kind regions hosts s
  | .prsp h line st dirty d => Sys2Proof.Machine.execPrsp h line st dirty d s
  | .proxyDrop dev line => Sys2Proof.Machine.execProxyDrop dev line s
  | .peerLostSweep dev count => Sys2Proof.Machine.execPeerLostSweep dev count s
  | .hostHoldDeadline dev => Sys2Proof.Machine.execHostHoldDeadline dev s
  | .pageResolution parcel page => Sys2Proof.Machine.execPageResolution parcel page s
  | .fwdRdI h x => Sys2Proof.Machine.execFwdRdI h x s
  | .fwdRdS h x => Sys2Proof.Machine.execFwdRdS h x s
  | .fwdRdA h x => Sys2Proof.Machine.execFwdRdA h x s
  | .fwdWr h x mv d => Sys2Proof.Machine.execFwdWr h x mv d s
  | .fwdWrPtl h x mv d mask => Sys2Proof.Machine.execFwdWrPtl h x mv d mask s
  | .fwdClnevct h x => Sys2Proof.Machine.execFwdClnevct h x s
  | .fwdAtomic h x op => Sys2Proof.Machine.execFwdAtomic h x op s
  | .mashRd h x => Sys2Proof.Machine.execMashRd h x s
  | .mashWr h x d mask => Sys2Proof.Machine.execMashWr h x d mask s
  | .mashRmw h x op => Sys2Proof.Machine.execMashRmw h x op s
  | .data h d => Sys2Proof.Machine.execData h d s
  | .cmp h => Sys2Proof.Machine.execCmp h s
  | .err h => Sys2Proof.Machine.execErr h s
  | .hostSnpRsp h agent line resp => Sys2Proof.Machine.execHostSnpRsp h agent line resp s
  | .syncOp h x line ctx ring dtag k => Sys2Proof.Machine.execSyncOp h x line ctx ring dtag k s
  | .syncRelease h ring n status result => Sys2Proof.Machine.execSyncRelease h ring n status result s
  | .hostLostMsg h agent => Sys2Proof.Machine.execHostLostMsg h agent s
  | .sweepDone h agent => Sys2Proof.Machine.execSweepDone h agent s
  | .linkFail dev link => Sys2Proof.Machine.execLinkFail dev link s
  | .lost h dev => Sys2Proof.Machine.execLost h dev s
  | .depart h => Sys2Proof.Machine.execDepart h s
  | .datum h step ok body => Sys2Proof.Machine.execDatum h step ok body s
  | .windowReport win bank die => Sys2Proof.Machine.execWindowReport win bank die s
  | .vorirCrcError link lane => Sys2Proof.Machine.execVorirCrcError link lane s
  | .daothEnable n v => Sys2Proof.Machine.execDaothEnable n v s
  | .daothDisable n v => Sys2Proof.Machine.execDaothDisable n v s
  | .daothTestSet n => Sys2Proof.Machine.execDaothTestSet n s
  | .daothTestClear n => Sys2Proof.Machine.execDaothTestClear n s
  | .linkTrained n width rate => Sys2Proof.Machine.execLinkTrained n width rate s
  | .payloadFlit n f msgs => Sys2Proof.Machine.execPayloadFlit n f msgs s
  | .payloadMessage n tagOk => Sys2Proof.Machine.execPayloadMessage n tagOk s
  | .idle n f => Sys2Proof.Machine.execIdle n f s
  | .replayReq n f => Sys2Proof.Machine.execReplayReq n f s
  | .timing n f frame code src offset arrival => Sys2Proof.Machine.execTiming n f frame code src offset arrival s
  | .ident n f x => Sys2Proof.Machine.execIdent n f x s
  | .probe n f turnaround => Sys2Proof.Machine.execProbe n f turnaround s
  | .echo n f roundTrip turnaround => Sys2Proof.Machine.execEcho n f roundTrip turnaround s
  | .creditInit n f => Sys2Proof.Machine.execCreditInit n f s
  | .testPattern n f => Sys2Proof.Machine.execTestPattern n f s
  | .messageSend n m => Sys2Proof.Machine.execMessageSend n m s
  | .groupPad n => Sys2Proof.Machine.execGroupPad n s
  | .ackAdvance n elapsedNs => Sys2Proof.Machine.execAckAdvance n elapsedNs s
  | .creditReturnIdle n elapsedNs => Sys2Proof.Machine.execCreditReturnIdle n elapsedNs s
  | .xoffChange n c => Sys2Proof.Machine.execXoffChange n c s
  | .keepalive n => Sys2Proof.Machine.execKeepalive n s
  | .replayTimeout n => Sys2Proof.Machine.execReplayTimeout n s
  | .replayReqRepeat n => Sys2Proof.Machine.execReplayReqRepeat n s
  | .noFlitTimeout n => Sys2Proof.Machine.execNoFlitTimeout n s
  | .phyLockLoss n => Sys2Proof.Machine.execPhyLockLoss n s
  | .linkFailback n => Sys2Proof.Machine.execLinkFailback n s
  | .peerLostTimeout dev => Sys2Proof.Machine.execPeerLostTimeout dev s
  | .isolationReset => Sys2Proof.Machine.execIsolationReset s
  | .ringEnable r v => Sys2Proof.Machine.execRingEnable r v s
  | .ringDisable r v => Sys2Proof.Machine.execRingDisable r v s
  | .tail agent r v => Sys2Proof.Machine.execTail agent r v s
  | .cqHead agent r v => Sys2Proof.Machine.execCqHead agent r v s
  | .stop agent r => Sys2Proof.Machine.execStop agent r s
  | .start agent r => Sys2Proof.Machine.execStart agent r s
  | .resume agent r ctx => Sys2Proof.Machine.execResume agent r ctx s
  | .descriptorFetch r => Sys2Proof.Machine.execDescriptorFetch r s
  | .descriptorStart r n tun => Sys2Proof.Machine.execDescriptorStart r n tun s
  | .completionRecordWrite r n => Sys2Proof.Machine.execCompletionRecordWrite r n s
  | .deferredLimit r n => Sys2Proof.Machine.execDeferredLimit r n s
  | .copy ring n idx => Sys2Proof.Machine.execCopy ring n idx s
  | .fill ring n idx => Sys2Proof.Machine.execFill ring n idx s
  | .convert ring n idx => Sys2Proof.Machine.execConvert ring n idx s
  | .reduce ring n idx => Sys2Proof.Machine.execReduce ring n idx s
  | .axpby ring n idx => Sys2Proof.Machine.execAxpby ring n idx s
  | .dot ring n idx => Sys2Proof.Machine.execDot ring n idx s
  | .gatherSum ring n idx => Sys2Proof.Machine.execGatherSum ring n idx s
  | .scatterAdd ring n idx => Sys2Proof.Machine.execScatterAdd ring n idx s
  | .optStep ring n idx => Sys2Proof.Machine.execOptStep ring n idx s
  | .quantize ring n idx => Sys2Proof.Machine.execQuantize ring n idx s
  | .dequant ring n idx => Sys2Proof.Machine.execDequant ring n idx s
  | .checksum ring n idx => Sys2Proof.Machine.execChecksum ring n idx s
  | .cowPage ring n idx => Sys2Proof.Machine.execCowPage ring n idx s
  | .barrierArrive ring n => Sys2Proof.Machine.execBarrierArrive ring n s
  | .gateWait ring n => Sys2Proof.Machine.execGateWait ring n s
  | .gateSignal ring n => Sys2Proof.Machine.execGateSignal ring n s
  | .fence ring n => Sys2Proof.Machine.execFence ring n s
  | .recipe ring n idx => Sys2Proof.Machine.execRecipe ring n idx s
  | .windowEnable w v => Sys2Proof.Machine.execWindowEnable w v s
  | .windowDisable w v => Sys2Proof.Machine.execWindowDisable w v s
  | .contextLoad v => Sys2Proof.Machine.execContextLoad v s
  | .contextDisable v => Sys2Proof.Machine.execContextDisable v s
  | .stage1Walk tun ctx cva write => Sys2Proof.Machine.execStage1Walk tun ctx cva write s
  | .prefetchWalk tun ctx cva => Sys2Proof.Machine.execPrefetchWalk tun ctx cva s
  | .faultWaitExpiry r n => Sys2Proof.Machine.execFaultWaitExpiry r n s
  | .invalContext agent v => Sys2Proof.Machine.execInvalContext agent v s
  | .invalPages agent v => Sys2Proof.Machine.execInvalPages agent v s
  | .invalLdContexts agent v => Sys2Proof.Machine.execInvalLdContexts agent v s
  | .invalTileAbandon agent => Sys2Proof.Machine.execInvalTileAbandon agent s
  | .invalDone agent => Sys2Proof.Machine.execInvalDone agent s
  | .arrive q cmd => Sys2Proof.Machine.execArrive q cmd s
  | .signal q cmd => Sys2Proof.Machine.execSignal q cmd s
  | .broadcast q cmd => Sys2Proof.Machine.execBroadcast q cmd s
  | .disarm q cmd => Sys2Proof.Machine.execDisarm q cmd s
  | .syncDebugWrite line d mask => Sys2Proof.Machine.execSyncDebugWrite line d mask s
  | .syncTimeout die start value ctx => Sys2Proof.Machine.execSyncTimeout die start value ctx s
  | .syncCtxSave v => Sys2Proof.Machine.execSyncCtxSave v s
  | .syncCtxRestore v => Sys2Proof.Machine.execSyncCtxRestore v s
  | .syncView d v => Sys2Proof.Machine.execSyncView d v s
  | .qosCommit v => Sys2Proof.Machine.execQosCommit v s
  | .qosHostCommit a v => Sys2Proof.Machine.execQosHostCommit a v s
  | .calendarSlot die slot room queued => Sys2Proof.Machine.execCalendarSlot die slot room queued s
  | .latHwmRead a c => Sys2Proof.Machine.execLatHwmRead a c s
  | .latClear a c v => Sys2Proof.Machine.execLatClear a c v s
  | .counterLowerRead addr => Sys2Proof.Machine.execCounterLowerRead addr s
  | .portEnable p v => Sys2Proof.Machine.execPortEnable p v s
  | .portDisable p v => Sys2Proof.Machine.execPortDisable p v s
  | .ldEnable p l => Sys2Proof.Machine.execLdEnable p l s
  | .ldDisable p l => Sys2Proof.Machine.execLdDisable p l s
  | .ldDisableAnswer agent => Sys2Proof.Machine.execLdDisableAnswer agent s
  | .headTrained p head width rate flit => Sys2Proof.Machine.execHeadTrained p head width rate flit s
  | .headDown p head => Sys2Proof.Machine.execHeadDown p head s
  | .ideIntegrityFail p head => Sys2Proof.Machine.execIdeIntegrityFail p head s
  | .cxlHotReset p head => Sys2Proof.Machine.execCxlHotReset p head s
  | .functionLevelReset agent => Sys2Proof.Machine.execFunctionLevelReset agent s
  | .cxlReset agent => Sys2Proof.Machine.execCxlReset agent s
  | .hdmDecoderCommit agent idx hpa size lda ways => Sys2Proof.Machine.execHdmDecoderCommit agent idx hpa size lda ways s
  | .msixUnmask agent vector => Sys2Proof.Machine.execMsixUnmask agent vector s
  | .globalPersistentFlush agent => Sys2Proof.Machine.execGlobalPersistentFlush agent s
  | .addDcResponse agent lda accept => Sys2Proof.Machine.execAddDcResponse agent lda accept s
  | .releaseDcResponse agent lda => Sys2Proof.Machine.execReleaseDcResponse agent lda s
  | .addCapacityTimeout agent lda => Sys2Proof.Machine.execAddCapacityTimeout agent lda s
  | .forcedRevoke parcel agent => Sys2Proof.Machine.execForcedRevoke parcel agent s
  | .contextGet agent entry => Sys2Proof.Machine.execContextGet agent entry s
  | .contextSet agent ctx entry => Sys2Proof.Machine.execContextSet agent ctx entry s
  | .contextPut agent ctx => Sys2Proof.Machine.execContextPut agent ctx s
  | .syncSave agent ctx => Sys2Proof.Machine.execSyncSave agent ctx s
  | .syncRestore agent ctx => Sys2Proof.Machine.execSyncRestore agent ctx s
  | .ringSet agent ctl dqParcel dqOff cqParcel cqOff => Sys2Proof.Machine.execRingSet agent ctl dqParcel dqOff cqParcel cqOff s
  | .ringPut agent r => Sys2Proof.Machine.execRingPut agent r s
  | .getPoisonList agent start count => Sys2Proof.Machine.execGetPoisonList agent start count s
  | .injectPoison agent lda => Sys2Proof.Machine.execInjectPoison agent lda s
  | .clearPoison agent lda d => Sys2Proof.Machine.execClearPoison agent lda d s
  | .getLdInfo m => Sys2Proof.Machine.execGetLdInfo m s
  | .getLdAllocations m port => Sys2Proof.Machine.execGetLdAllocations m port s
  | .setLdAllocations m port lds => Sys2Proof.Machine.execSetLdAllocations m port lds s
  | .getMultiHeadedInfo m => Sys2Proof.Machine.execGetMultiHeadedInfo m s
  | .getHeadInfo m port head => Sys2Proof.Machine.execGetHeadInfo m port head s
  | .getDcdInfo m => Sys2Proof.Machine.execGetDcdInfo m s
  | .getHostDcRegionConfig m agent => Sys2Proof.Machine.execGetHostDcRegionConfig m agent s
  | .getDcRegionExtentLists m agent => Sys2Proof.Machine.execGetDcRegionExtentLists m agent s
  | .setDcRegionConfig m agent region block => Sys2Proof.Machine.execSetDcRegionConfig m agent region block s
  | .initiateDcAdd m d => Sys2Proof.Machine.execInitiateDcAdd m d s
  | .initiateDcRelease m d => Sys2Proof.Machine.execInitiateDcRelease m d s
  | .keyProg agent session stream key => Sys2Proof.Machine.execKeyProg agent session stream key s
  | .kSetGo agent session stream => Sys2Proof.Machine.execKSetGo agent session stream s
  | .kSetStop agent session stream => Sys2Proof.Machine.execKSetStop agent session stream s
  | .getMeasurements m index => Sys2Proof.Machine.execGetMeasurements m index s
  | .getCertificate m slot => Sys2Proof.Machine.execGetCertificate m slot s
  | .challenge m nonce => Sys2Proof.Machine.execChallenge m nonce s
  | .keyExchange m mutualAuth anchor => Sys2Proof.Machine.execKeyExchange m mutualAuth anchor s
  | .setCertificate m => Sys2Proof.Machine.execSetCertificate m s
  | .getCsr m => Sys2Proof.Machine.execGetCsr m s
  | .getFwInfo m => Sys2Proof.Machine.execGetFwInfo m s
  | .transferFw m img => Sys2Proof.Machine.execTransferFw m img s
  | .activateFw m h => Sys2Proof.Machine.execActivateFw m h s
  | .fwHandover => Sys2Proof.Machine.execFwHandover s
  | .fwBankSwitch => Sys2Proof.Machine.execFwBankSwitch s
  | .fwCommit m => Sys2Proof.Machine.execFwCommit m s
  | .svnAdvance m => Sys2Proof.Machine.execSvnAdvance m s
  | .slotRetire m item slot => Sys2Proof.Machine.execSlotRetire m item slot s
  | .enrolArm m host pos hash => Sys2Proof.Machine.execEnrolArm m host pos hash s
  | .debugAuthority m key => Sys2Proof.Machine.execDebugAuthority m key s
  | .debugChallenge m => Sys2Proof.Machine.execDebugChallenge m s
  | .debugOpen m t => Sys2Proof.Machine.execDebugOpen m t s
  | .debugClose m session => Sys2Proof.Machine.execDebugClose m session s
  | .debugSessionExpiry session => Sys2Proof.Machine.execDebugSessionExpiry session s
  | .backupWrite m n v => Sys2Proof.Machine.execBackupWrite m n v s
  | .recoveryExit m => Sys2Proof.Machine.execRecoveryExit m s
  | .idcode => Sys2Proof.Machine.execIdcode s
  | .bypass opcode => Sys2Proof.Machine.execBypass opcode s
  | .samplePreload => Sys2Proof.Machine.execSamplePreload s
  | .extest => Sys2Proof.Machine.execExtest s
  | .clamp => Sys2Proof.Machine.execClamp s
  | .highz => Sys2Proof.Machine.execHighz s
  | .extestPulse => Sys2Proof.Machine.execExtestPulse s
  | .extestTrain => Sys2Proof.Machine.execExtestTrain s
  | .spargeZero v => Sys2Proof.Machine.execSpargeZero v s
  | .spargeRateWrite v => Sys2Proof.Machine.execSpargeRateWrite v s
  | .spargeZeroStep lines => Sys2Proof.Machine.execSpargeZeroStep lines s
  | .zeroingDone => Sys2Proof.Machine.execZeroingDone s
  | .pageMove v => Sys2Proof.Machine.execPageMove v s
  | .pageMoveCopy => Sys2Proof.Machine.execPageMoveCopy s
  | .pageMoveDone => Sys2Proof.Machine.execPageMoveDone s
  | .pageMoveAbort => Sys2Proof.Machine.execPageMoveAbort s
  | .cadastreCommit v => Sys2Proof.Machine.execCadastreCommit v s
  | .memmapEnable v => Sys2Proof.Machine.execMemmapEnable v s
  | .gazEnable d v => Sys2Proof.Machine.execGazEnable d v s
  | .kilnCommit v => Sys2Proof.Machine.execKilnCommit v s
  | .faultFwEnable v => Sys2Proof.Machine.execFaultFwEnable v s
  | .faultFwDisable v => Sys2Proof.Machine.execFaultFwDisable v s
  | .faultHostEnable agent v => Sys2Proof.Machine.execFaultHostEnable agent v s
  | .faultHostDisable agent v => Sys2Proof.Machine.execFaultHostDisable agent v s
  | .faultFwHead v => Sys2Proof.Machine.execFaultFwHead v s
  | .faultHostHead agent v => Sys2Proof.Machine.execFaultHostHead agent v s
  | .faultRecordWrite => Sys2Proof.Machine.execFaultRecordWrite s
  | .nearCacheSetSweep tract set both => Sys2Proof.Machine.execNearCacheSetSweep tract set both s
  | .blockResetTun n hold => Sys2Proof.Machine.execBlockResetTun n hold s
  | .blockResetPort p hold => Sys2Proof.Machine.execBlockResetPort p hold s
  | .blockResetTract t hold => Sys2Proof.Machine.execBlockResetTract t hold s
  | .blockResetChannel c hold => Sys2Proof.Machine.execBlockResetChannel c hold s
  | .blockResetDaoth n hold => Sys2Proof.Machine.execBlockResetDaoth n hold s
  | .blockRelease kind inst => Sys2Proof.Machine.execBlockRelease kind inst s
  | .isolationWrapperAnswer kind inst => Sys2Proof.Machine.execIsolationWrapperAnswer kind inst s
  | .rstNReset t => Sys2Proof.Machine.execRstNReset t s
  | .rstNGlitch lowNs => Sys2Proof.Machine.execRstNGlitch lowNs s
  | .resetWarm v => Sys2Proof.Machine.execResetWarm v s
  | .warmResetEntry => Sys2Proof.Machine.execWarmResetEntry s
  | .warmResetDrainEnd => Sys2Proof.Machine.execWarmResetDrainEnd s
  | .nearCacheFlushDone t => Sys2Proof.Machine.execNearCacheFlushDone t s
  | .flushTimeout => Sys2Proof.Machine.execFlushTimeout s
  | .bringupStart t romOk => Sys2Proof.Machine.execBringupStart t romOk s
  | .selfRefreshExit found => Sys2Proof.Machine.execSelfRefreshExit found s
  | .initPass plots => Sys2Proof.Machine.execInitPass plots s
  | .resetDone t => Sys2Proof.Machine.execResetDone t s
  | .startTimeout t => Sys2Proof.Machine.execStartTimeout t s
  | .datumSwreset v => Sys2Proof.Machine.execDatumSwreset v s
  | .datumWatchdog t => Sys2Proof.Machine.execDatumWatchdog t s
  | .wdtKick v => Sys2Proof.Machine.execWdtKick v s
  | .powerOn t board => Sys2Proof.Machine.execPowerOn t board s
  | .standbyLost lowNs => Sys2Proof.Machine.execStandbyLost lowNs s
  | .vinLow mv ns => Sys2Proof.Machine.execVinLow mv ns s
  | .junctionTrip sensor reading => Sys2Proof.Machine.execJunctionTrip sensor reading s
  | .refclkLoss ns => Sys2Proof.Machine.execRefclkLoss ns s
  | .rstNRelease t => Sys2Proof.Machine.execRstNRelease t s
  | .vinCollapse mv => Sys2Proof.Machine.execVinCollapse mv s
  | .registerWrite agent addr v => Sys2Proof.Machine.execRegisterWrite agent addr v s
  | .dramCommandIssue chan sub t ready => Sys2Proof.Machine.execDramCommandIssue chan sub t ready s
  | .hostMemrddata q => Sys2Proof.Machine.execHostMemrddata q s
  | .heartbeat m session => Sys2Proof.Machine.execHeartbeat m session s
  | .keyUpdate m session => Sys2Proof.Machine.execKeyUpdate m session s

end Sys2Proof.Machine
end

