-- ==== Sys2Proof/Safety.lean ====
section
/-! DEFINITION. What counts as a safe run, and the conditions on the clock, mode and JTAG state that every step keeps. -/

namespace Sys2Proof

/-- The commands of the clock, of security and of resets, which may change what `Env` holds. -/
def Instr.ownsEnv (c : Instr) : Bool :=
  match c with
  | .frameBoundary _ | .snapshotAbandon | .planLatch _ | .meridianSyncEdge _ _ | .timingFlitReceive _ _ _ _ | .meridianSourceLost
  | .meridianCommit _ | .lost _ _ | .datum _ _ _ _ | .timing _ _ _ _ _ _ _ | .ident _ _ _ | .isolationReset | .cxlHotReset _ _
  | .cxlReset _ | .getMeasurements _ _ | .getCertificate _ _ | .challenge _ _ | .keyExchange _ _ _ | .setCertificate _
  | .getCsr _ | .getFwInfo _ | .transferFw _ _ | .activateFw _ _ | .fwHandover | .fwBankSwitch | .fwCommit _ | .svnAdvance _
  | .slotRetire _ _ _ | .enrolArm _ _ _ _ | .debugAuthority _ _ | .debugChallenge _ | .debugOpen _ _ | .debugClose _ _
  | .debugSessionExpiry _ | .backupWrite _ _ _ | .recoveryExit _ | .idcode | .bypass _ | .samplePreload | .extest | .clamp
  | .highz | .extestPulse | .extestTrain | .rstNReset _ | .rstNGlitch _ | .resetWarm _ | .warmResetEntry | .warmResetDrainEnd
  | .nearCacheFlushDone _ | .flushTimeout | .bringupStart _ _ | .selfRefreshExit _ | .resetDone _ | .startTimeout _
  | .datumSwreset _ | .datumWatchdog _ | .wdtKick _ | .powerOn _ _ | .standbyLost _ | .vinLow _ _ | .junctionTrip _ _
  | .refclkLoss _ | .rstNRelease _ | .vinCollapse _ | .registerWrite _ _ _ | .heartbeat _ _ | .keyUpdate _ _ => true
  | _ => false

/-- The outcome is a next state. -/
def answersNext (o : Host.Outcome Machine.State Machine.Fault Machine.Refusal) : Prop := ∃ t, o = .next t

/-- The next command runs. -/
def safeStep (s : Machine.State) : Prop := answersNext (Machine.step s)

namespace Machine

/-- A legal period code (02 Table 2-3): P from 2 us to 64 us in units of 0.5 us. -/
def periodLegal (p : Nat) : Prop := 0x04 ≤ p ∧ p ≤ 0x80

/-- The clock, mode and JTAG state that the spec allows: the frame counter has 48 bits (02 R36); the live period, the one of a
pending commit and the one taken from the source are legal, and no live or pending mode is the reserved one (02 Table 2-3, R61);
READY is high in service alone (18 R671, 20 Table 20-4); the JTAG instruction in force is one of the nine that the model numbers (17 R660). -/
def Env.legal (e : Env) : Prop :=
  e.clk.frame < 2 ^ 48 ∧
  periodLegal e.periodCode ∧ e.syncMode ≠ 3 ∧
  (∀ p, e.merPending = some p → periodLegal p.period ∧ p.mode < 3 ∧ p.src < 4) ∧
  (∀ n c d, e.clk.follow = some (n, c, d) → periodLegal c) ∧
  (e.rst.ready = true → e.rst.phase = .service) ∧
  e.jtag ≤ 8

/-! ### Requests on their way to a home -/

/-- A host's port takes its request and sends it on (11 R450, Table 11-1; 12 R480, R490; 05 R214): the head is up, the host's queue
has room, the host is in the plan and not LOST, its logical device is enabled, and the stream is secure where the port asks for
that. `w` is the state once the line is counted. -/
def portTakes (s : State) (w : Work) (q : HostReq) : Prop :=
  poolRuns s.env = true ∧ ldReachable s.w q.agent = true ∧
  (hostReqs s.env s.w q.agent).length < max 1 (s.w.livF (aQosHostQueue q.agent) 9 0) ∧
  w.livF (aQosHostCtl q.agent) 30 30 ≠ 0 ∧ (w.ld q.agent).enabled = true ∧
  (w.fld (aPortCtl (portOf q.agent)) 21 21 = 1 → q.secure = true) ∧ (w.host s.env.board q.agent).coh ≠ .lost

/-- The same for an AtomicOp (05 R195, R196; 12 R480, R490): the head is up, the logical device is enabled, the stream is secure
where the port asks for that, and size and alignment are those of an AtomicOp. -/
def apertureTakes (s : State) (w : Work) (q : HostReq) (o : Rmw) : Prop :=
  poolRuns s.env = true ∧ ldReachable s.w q.agent = true ∧ (w.ld q.agent).enabled = true ∧
  (w.fld (aPortCtl (portOf q.agent)) 21 21 = 1 → q.secure = true) ∧ rmwOk o q.lda = true

/-- The request that a port forms for the home of the line, in extent `x` (03 R82, R86; 05 R187; 12 R476). -/
def portReq (e : Env) (w : Work) (q : HostReq) (x : Extent) (op : HomeOp) : Req :=
  { op := portOp (w.ld q.agent) (bitAt (eWriters (cadEntry w x.parcel)) q.agent) op, dev := e.board, agent := q.agent,
    tag := q.tag, frame := e.clk.frame, parcel := x.parcel, gen := x.gen, off := q.lda - x.lda, line := 0, acct := q.agent,
    born := e.clk.now }

/-- The line that a port has taken, counted (11 R438) and, on a secure stream, processed by IDE (16 Table 16-1). -/
def taken (s : State) (q : HostReq) (op : HomeOp) : Work := ideLine (countLine s.w q.agent op) q

/-- The Sheet look-up of a request at its resolution point (01 R25). -/
def looked (e : Env) (w : Work) (r : Req) : Work :=
  if r.off / 2 ^ 21 < eSize (cadEntry w r.parcel) then sheetTouch e w (pairDie e w r.dev r.agent r.line) r.acct r.parcel r.off else w

/-- The request at the home of place `p`: its Sheet entry is looked up, its message crosses the fabric to the home's die (01 R16), and the
home agent serves it. -/
def homed (e : Env) (w : Work) (r : Req) (p : Place) : Work :=
  let q := { r with line := p.dpa / 64 }
  homeReq e (carryReq e (looked e w r) q q.op.hasData) q

/-- A message that a peer sends arrives: the pool runs, it comes from another device, and the agents `ids`, with its source and its
destination, are assigned ones (01 R34). -/
def fromPeer (s : State) (h : Hdr) (ids : List Nat) : Prop :=
  poolRuns s.env = true ∧ h.dev ≠ s.env.board ∧ agentKnown h.src = true ∧ agentKnown h.dst = true ∧ ∀ a ∈ ids, agentKnown a = true

/-- A host may access the line (03 Table 3-5): its extent has the generation of an ASSIGNED parcel that it holds, and writes for
a write. -/
def hostMay (w : Work) (a : Nat) (x : Extent) (write : Bool) : Prop :=
  let y := cadEntry w x.parcel
  eState y = stAssigned ∧ eGen y = x.gen ∧ bitAt (eHolders y) a = true ∧ (write = true → bitAt (eWriters y) a = true)

/-- A peer may access the line (03 R83, Table 3-5): the parcel's generation is the request's, its state serves requests accepted
before the revoke, and the device belongs to the parcel. -/
def peerMay (w : Work) (d : Nat) (r : Req) : Prop :=
  let y := cadEntry w r.parcel
  (eState y = stAssigned ∨ (eState y = stRevoking ∨ eState y = stScrubbing) ∧ r.frame < eRevoke y) ∧
  eGen y = r.gen ∧ bitAt (eDevSet y) d = true

/-- The request resolves to `p` on this device by entries that can be read and places that are populated, in a parcel of kind `k` (03
Table 3-3: 0 memory, 1 window, 2 sync, 3 firmware), with nothing in front of the home: no page move holds it (03 R97), no block reset of the tract answers it (18 R679), no promoted page is
still to be resolved or was cut off (06 R251, 04 R138). -/
def resolvesAs (k : Nat) (e : Env) (w : Work) (r : Req) (p : Place) : Prop :=
  (p0Read e w (cadAddr e r.parcel) 64).isSome = true ∧ locOk e w (locate e w (cadEntry w r.parcel) r.off) = true ∧
  (locate e w (cadEntry w r.parcel) r.off).primary w = some p ∧ p.dev = e.board ∧
  moveHolds e w r = false ∧ blockHeld w 3 (tractOf w (64 * (p.dpa / 64))) = false ∧
  (unresolved e w r = false ∨ 0x7E ≤ r.agent) ∧ (cutOff e w r = false ∨ readsLine r = false) ∧ eKind (cadEntry w r.parcel) = k

/-- The same in a parcel of kind MEMORY. -/
def resolvesHere (e : Env) (w : Work) (r : Req) (p : Place) : Prop := resolvesAs 0 e w r p

/-- The pages that a phase of a tile needs, each translated from the caches or left to its walk (09 R371, R373). -/
def pagesTried (e : Env) (w : Work) (d : Desc) (t : Tile) : List TPage × Work :=
  (wantPages t.pages (spansOf w d t)).foldl (fun (a : List TPage × Work) p =>
    let (p, w) := tryPage e a.2 t.tun (dCtx d.img) p
    (a.1 ++ [p], w)) ([], w)

end Machine

end Sys2Proof
end

