-- ==== Sys2Proof/Certificates/Slice0/Obligations.lean ====
section
/-! DEFINITION. The statements for the provers. -/

open Sys2Proof Sys2Proof.Machine

/-- A step runs the command at the front of the queue

For every command c and state s, a step of s with c at the front of its queue is exec of c on s with the rest of the queue; with
an empty queue the block idles and the step answers the same state (the model's choice, log 12). -/
def Obligations.StepRunsFrontCommand : Prop :=
  (∀ (c : Instr) (rest : List Instr) (s : State), s.pending = c :: rest → step s = exec c { s with pending := rest }) ∧
  (∀ s : State, s.pending = [] → step s = .next s)

/-- Every command answers a next state and leaves the queue alone

No command of the table ends in a fault or a refusal, in any state and for any operands, and none adds to the queue or takes from
it: a step takes exactly the front command off the queue. -/
def Obligations.EveryCommandCompletes : Prop :=
  (∀ (c : Instr) (s : State), ∃ t, exec c s = .next t ∧ t.pending = s.pending) ∧
  (∀ s : State, ∃ t, step s = .next t ∧ t.pending = s.pending.tail)

/-- Fuses are blown once: no step takes back a retirement, lowers the rollback counter or unblows the provisioned fuse

Whatever command a step runs, a retired slot stays retired (R629), the rollback counter does not go down (R633), and the
provisioned fuse stays blown (R660), through warm resets, power-on and the loss of standby power as well. -/
def Obligations.FusesAreBlownOnce : Prop :=
  ∀ s t : State, step s = .next t →
    (∀ k, bitAt s.env.sec.retired k = true → bitAt t.env.sec.retired k = true) ∧
    s.env.sec.rollback ≤ t.env.sec.rollback ∧
    (s.env.sec.provisioned = true → t.env.sec.provisioned = true)

/-- The clock, mode and JTAG state stays legal in every step

From every state whose Env is legal a step leads to one whose Env is legal: the frame counter has 48 bits (R36), the live period
code lies in 0x04 to 0x80 and the live synchronisation mode is not the reserved one, the same holds of a pending commit and of a
period taken from the source's flit (Table 2-3, R54, R58), READY is high only in service (Table 20-4), and the JTAG instruction is
one of the nine that the model numbers (R660). -/
def Obligations.LegalClockIsKept : Prop :=
  ∀ s t : State, s.env.legal → step s = .next t → t.env.legal

/-- The machine right after reset

After reset the clock, mode and JTAG state is legal; the frame counter reads 0 and the period is 8 us (R35, R36); every register
reads its reset value and so does every value in force (R685); the queue is empty and READY is low. Pool memory lists nothing and
is in canonical form, and every byte reads as zero (the model's choice, log 5). -/
def Obligations.ResetState : Prop :=
  State.reset.env.legal ∧ State.reset.env.clk.frame = 0 ∧ State.reset.env.period = 8000000 ∧
  (∀ a, State.reset.w.reg a = regReset a ∧ State.reset.w.liv a = regReset a) ∧
  State.reset.pending = [] ∧ State.reset.env.rst.ready = false ∧
  Memory.wf State.reset.w.pool.mem = true ∧ ∀ a, memRd State.reset.w.pool.mem a = 0

/-- Traffic changes nothing of the clock, of security or of the reset state, and is silent while the main domain is held

A command that is not one of the clock, of security or of resets leaves the frame counter, the Meridian configuration, the backup
words, the fuses, banks and sessions, the phase of a reset and the JTAG instruction as they are. While the main domain has no
power or is held in reset (18 Table 18-3 step 7, R707; log 96) such a command changes nothing at all. -/
def Obligations.TrafficLeavesTheClockAlone : Prop :=
  ∀ (c : Instr) (s t : State), c.ownsEnv = false → exec c s = .next t →
    t.env = s.env ∧ (mainRuns s.env = false → t = s)

/-- Pool memory: a line reads back as it was written, a write leaves every other byte alone, and the canonical form stays

For every memory, line number l and data d: after a write of d to line l, line l reads d, least significant byte at the lowest
address (R2); every byte outside the 64 bytes of line l reads as before; and a memory in canonical form stays in it. -/
def Obligations.MemoryWriteReadsBack : Prop :=
  ∀ (m : List Host.Cell) (l : Nat) (d : Line),
    memLine (memPutLine m l d) l = d ∧
    (∀ i, i < 64 → memRd (memPutLine m l d) (64 * l + i) = BitVec.ofNat 8 (d.toNat / 256 ^ i)) ∧
    (∀ a, a < 64 * l ∨ 64 * l + 64 ≤ a → memRd (memPutLine m l d) a = memRd m a) ∧
    (Memory.wf m = true → Memory.wf (memPutLine m l d) = true)

/-- The frame counter increases by one at every boundary

The frame counter is a number below 2^48 that reads 0 after power-on; at every boundary of a device with standby power it goes up by
one modulo 2^48, or takes the number that the source's timing flit gives for that boundary (R54), in service, in recovery mode and
while the main domain is held in a reset alike; the frame that begins starts at the instant the boundary was scheduled for, and
the period of the one that ends is noted. No command but a boundary, a MERIDIAN_SYNC edge that ends the frame, power-on and the
loss of standby power changes the counter, so it runs on through a warm reset. -/
def Obligations.FrameCounterCountsBoundaries : Prop :=
  (∀ (errs : List SramErr) (s : State), s.env.rst.phase ≠ .off → ∃ t, exec (.frameBoundary errs) s = .next t ∧
    t.env.clk.frame = (match s.env.clk.follow with
      | some (n, _, _) => n % 2 ^ 48
      | none => (s.env.clk.frame + 1) % 2 ^ 48) ∧
    t.env.clk.start = s.env.clk.next ∧ t.env.clk.lastPeriod = s.env.period ∧ t.env.clk.follow = none ∧ t.pending = s.pending) ∧
  (∀ (errs : List SramErr) (s : State), s.env.rst.phase = .off → exec (.frameBoundary errs) s = .next s) ∧
  (∀ (p board : Nat) (s : State), s.env.rst.phase = .off → ∃ t, exec (.powerOn p board) s = .next t ∧ t.env.clk.frame = 0) ∧
  (∀ (c : Instr) (s t : State), (∀ errs, c ≠ .frameBoundary errs) → (∀ x h, c ≠ .meridianSyncEdge x h) →
    (∀ x b, c ≠ .powerOn x b) → (∀ x, c ≠ .standbyLost x) → exec c s = .next t → t.env.clk.frame = s.env.clk.frame)

/-- A Meridian commit is checked and queued

A write of MERIDIAN.CTL with commit set first writes the staged fields; then MERIDIAN.STATUS.reason takes the lowest reason code of
Table 2-4 that the staged configuration earns, and only code 0x0000 queues the change, in the place of an earlier one. A boundary
before the effective frame leaves it pending, and the commit that reaches its frame and passes again is what the live
configuration then holds. Nothing else changes. -/
def Obligations.MeridianCommitIsChecked : Prop :=
  (∀ (v : Word) (s : State), mainRuns s.env = true → bitAt v.toNat 31 = true →
    let w := s.w.setMask aMeridianCtl 0x0F0000FF v.toNat
    let p := merStaged w
    let code := if p.period < 0x04 ∨ 0x80 < p.period then 0x0701
      else if p.frame < s.env.clk.frame + 2 then 0x0702
      else if p.mode = 3 then 0x0703
      else if present s.env w p.src = false then 0x0704
      else if snapOk s.env w p = false then 0x0705
      else 0
    exec (.meridianCommit v) s = .next { s with
      env := if code = 0 then { s.env with mer := { s.env.mer with pending := ⟨some p, some p, some p⟩ } } else s.env
      w := w.setFld aMeridianStatus 15 0 code }) ∧
  (∀ (v : Word) (s : State), mainRuns s.env = true → bitAt v.toNat 31 = false →
    exec (.meridianCommit v) s = .next { s with w := s.w.setMask aMeridianCtl 0x0F0000FF v.toNat }) ∧
  (∀ (e : Env) (w : Work) (p : MerPending), e.merPending = some p → e.clk.frame < p.frame → applyMeridian e w = (e, w)) ∧
  (∀ (e : Env) (w : Work) (p : MerPending), e.merPending = some p → p.frame ≤ e.clk.frame → merCheck e w p true = 0 →
    (applyMeridian e w).1.merPending = none ∧ (applyMeridian e w).2 = w ∧
    (p.period < 256 → p.src < 4 → p.mode < 4 →
      (applyMeridian e w).1.periodCode = p.period ∧ (applyMeridian e w).1.srcDev = p.src ∧ (applyMeridian e w).1.syncMode = p.mode))

/-- An accepted MERIDIAN_SYNC edge after a boundary lengthens the frame that began there

An edge that the source samples at B + d with d > 0, in the window of the boundary B just passed, in no window of the next one
that is nearer, and first in its window, counts as accepted; B stays and the next boundary falls at B + d + P. An edge outside
every window in TRACK counts as ignored and moves no boundary (R50, R51). Nothing else changes. -/
def Obligations.LateSyncEdgeLengthensTheFrame : Prop :=
  (∀ (t highNs : Nat) (s : State), mainRuns s.env = true → isSource s.env s.w = true → s.env.syncMode ≠ 0 → 20 ≤ highNs →
    s.env.clk.start < t → t ≤ s.env.clk.next → 8 * (t - s.env.clk.start) ≤ s.env.clk.lastPeriod →
    (s.env.period < 8 * (s.env.clk.next - t) ∨ t - s.env.clk.start ≤ s.env.clk.next - t) →
    (∀ x, s.env.clk.taken = some x → x < t) →
    exec (.meridianSyncEdge t highNs) s = .next { s with
      env := { s.env with clk := { s.env.clk with
        now := t, taken := some (s.env.clk.start + s.env.clk.lastPeriod / 8), next := t + s.env.period } }
      w := s.w.inc aMeridianSyncAccepted 1 }) ∧
  (∀ (t highNs : Nat) (s : State), mainRuns s.env = true → isSource s.env s.w = true → s.env.syncMode = 1 → 20 ≤ highNs →
    s.env.clk.start ≤ t → t ≤ s.env.clk.next → s.env.clk.lastPeriod < 8 * (t - s.env.clk.start) →
    s.env.period < 8 * (s.env.clk.next - t) →
    exec (.meridianSyncEdge t highNs) s = .next { s with
      env := { s.env with clk := { s.env.clk with now := t } }
      w := s.w.inc aMeridianSyncIgnored 1 })

/-- A follower takes the source's boundary, frame number and period, and chooses a new source after four silent frames

A timing flit of the source whose boundary is off by at most P/8 moves the follower's next boundary onto it, once a frame, and its
frame number and period are adopted at that boundary (R53, R54). A follower without a flit for 4 frames chooses the surviving
device with the lowest board number for its next boundary (R56). Nothing else changes. -/
def Obligations.FollowerAlignsToTheSource : Prop :=
  (∀ (frame code src boundary : Nat) (s : State), mainRuns s.env = true → isSource s.env s.w = false →
    s.env.clk.returned = false → src = meridianSource s.env s.w → periodLegal code → s.env.clk.slewing = false →
    (offSource s.env.clk.next boundary (500000 * code)).1.natAbs ≤ s.env.period / 8 →
    let d := offSource s.env.clk.next boundary (500000 * code)
    exec (.timingFlitReceive frame code src boundary) s = .next { s with
      env := { s.env with clk := { s.env.clk with
        noFlit := 0, slewing := true, follow := some (frame + d.2, code, src), aligned := true
        next := if 0 < d.1 then s.env.clk.next - d.1.natAbs else s.env.clk.next + d.1.natAbs } } }) ∧
  (∀ s : State, mainRuns s.env = true → isSource s.env s.w = false → 4 ≤ s.env.clk.noFlit →
    exec .meridianSourceLost s = .next { s with
      env := { s.env with clk := { s.env.clk with
        srcNext := some (((presentDevs s.env s.w).filter
          (fun d => d != meridianSource s.env s.w && !isLost s.w d)).headD s.env.board) } } })

/-- An abandoned snapshot leaves its header alone and is counted

A snapshot whose write is not complete is abandoned: pool memory, with the slot's previous header, stays as it is,
MERIDIAN.SNAP_SKIPPED goes up by one and no other register changes, and no snapshot is being written any more; the slot and the
sequence do not advance. -/
def Obligations.AbandonedSnapshotKeepsItsHeader : Prop :=
  ∀ (s : State) (x : SnapWrite), poolRuns s.env = true → s.env.mer.writing = some x →
    ∃ t, exec .snapshotAbandon s = .next t ∧
      t.env = { s.env with mer := { s.env.mer with writing := none } } ∧ t.pending = s.pending ∧
      t.w.pool = s.w.pool ∧
      t.w.reg aMeridianSnapSkipped = satAdd 32 (s.w.reg aMeridianSnapSkipped) 1 ∧
      (∀ a, a ≠ aMeridianSnapSkipped → t.w.reg a = s.w.reg a)

/-- Plan latch, Kiln samples, and drains that end

The plan for the next frame stands once it is latched (R39, R613). A sample of the converter stages adds its energy, the sum of
voltage times current over a microsecond, to the input energy and to what the frame has measured (R603), and KILN.INPUT_ENERGY shows it.
A REVOKING parcel whose fourth boundary has passed without an outstanding request enters SCRUBBING with its zeroed mark cleared,
and is so after a forced drain as well (R92, R650); the removal of a holder ends likewise, with its extent (R89). -/
def Obligations.LatchSamplesAndDrains : Prop :=
  (∀ (r : Sensors) (s : State), poolRuns s.env = true → s.env.mer.writing = none →
    ∃ t, exec (.planLatch r) s = .next t ∧ t.env = s.env ∧ t.pending = s.pending ∧ t.w.kiln.next.isSome = true) ∧
  (∀ (stages : List (Nat × Nat)) (s : State), poolRuns s.env = true →
    let pj := (stages.map (fun x => x.1 * x.2)).sum
    exec (.kilnSample stages) s = .next { s with
      w := { s.w with kiln := { s.w.kiln with input := s.w.kiln.input + pj, measured := s.w.kiln.measured + pj } }.setReg2
        aKilnInputEnergy ((s.w.kiln.input + pj) / 1000000 % 2 ^ 64) }) ∧
  (∀ (parcel : Nat) (s : State), poolRuns s.env = true → eState (cadEntry s.w parcel) = stRevoking →
    eRevoke (cadEntry s.w parcel) + 4 ≤ s.env.clk.frame →
    ∃ t, exec (.revokeDrainForced parcel) s = .next t ∧ t.env = s.env ∧ t.pending = s.pending ∧
      eState (cadEntry t.w parcel) = stScrubbing ∧ t.w.pool.zeroed.contains parcel = false) ∧
  (∀ (parcel agent f : Nat) (s : State), poolRuns s.env = true →
    s.w.pool.removals.find? (fun x => x.1 == parcel && x.2.1 == agent) = some (parcel, agent, f) → f + 4 ≤ s.env.clk.frame →
    (allReqs s.w).any (countsFor s.env parcel (some agent)) = false →
    exec (.holderRemovalDrainForced parcel agent) s = .next { s with
      w := { s.w with pool := { s.w.pool with removals := s.w.pool.removals.filter (· != (parcel, agent, f)) } }.setLd agent
        { s.w.ld agent with extents := (s.w.ld agent).extents.filter (fun y => y.parcel != parcel) } })

/-- An accepted request of a host reaches the home of its line

A request that the port takes, from a host that may access the line, whose line resolves to this device with nothing in front of
its home, is counted, looked up in the Sheet, carried over the fabric to the home die of its line (01 R16) and served by the line's
home agent as the request of that host: MemRd with MetaValue I, S or A, MemRdData,
MemWr, MemWrPtl and MemClnEvct (Table 5-5, R86, R82), and an AtomicOp of legal size and alignment (R195, R196), which the
plan and the queue do not gate. No other part of the state changes. -/
def Obligations.HostRequestsReachTheirHome : Prop :=
  (∀ (q : HostReq) (x : Extent) (p : Place) (s : State) (op : HomeOp),
    let w := taken s q op
    let r := portReq s.env w q x op
    portTakes s w q → extentOf (w.ld q.agent) q.lda = some x → hostMay w q.agent x (hostWrites op) → resolvesHere s.env w r p →
    let t := { s with w := homed s.env w r p }
    (op = .rd .i → exec (.hostMemrdI q) s = .next t ∧ exec (.hostMemrddata q) s = .next t) ∧
    (op = .rd .s → exec (.hostMemrdS q) s = .next t) ∧
    (op = .rd .a → exec (.hostMemrdA q) s = .next t) ∧
    (∀ mv d, op = .wr mv d (BitVec.allOnes 64) true → exec (.hostMemwr q mv d) s = .next t) ∧
    (∀ mv d mask, op = .wr mv d mask false → exec (.hostMemwrptl q mv d mask) s = .next t) ∧
    (op = .evict → exec (.hostMemclnevct q) s = .next t)) ∧
  (∀ (q : HostReq) (x : Extent) (p : Place) (s : State) (o : Rmw),
    let w := countLine s.w q.agent (.rmw o)
    let r := portReq s.env w q x (.rmw o)
    apertureTakes s w q o → extentOf (w.ld q.agent) q.lda = some x → hostMay w q.agent x true → resolvesHere s.env w r p →
    let t := { s with w := homed s.env w r p }
    (∀ n v, o = .fetchAdd n v → exec (.hostAtomicFetchadd q n v) s = .next t) ∧
    (∀ n v, o = .swap n v → exec (.hostAtomicSwap q n v) s = .next t) ∧
    (∀ n c v, o = .cas n c v → exec (.hostAtomicCas q n c v) s = .next t))

/-- A host that may not access a line gets poisoned data or an error, and the line is untouched

A read through an extent whose parcel is not ASSIGNED or has another generation, or is not the host's, is answered with poisoned
data and no value of the pool (Table 3-5); so is a read of an address in no extent (R86).
A write is answered with an error completion. Pool memory, the near cache and the directory stay as they are. -/
def Obligations.RefusedHostRequestsTouchNothing : Prop :=
  ∀ (q : HostReq) (s : State) (op : HomeOp),
    let w := taken s q op
    portTakes s w q →
    (extentOf (w.ld q.agent) q.lda = none ∨
      ∃ x, extentOf (w.ld q.agent) q.lda = some x ∧ (eState (cadEntry w x.parcel) ≠ stAssigned ∨
        eGen (cadEntry w x.parcel) ≠ x.gen ∨ bitAt (eHolders (cadEntry w x.parcel)) q.agent = false)) →
    (∀ c, (op = .rd .i ∧ c = .hostMemrdI q ∨ op = .rd .i ∧ c = .hostMemrddata q ∨ op = .rd .s ∧ c = .hostMemrdS q ∨
        op = .rd .a ∧ c = .hostMemrdA q) →
      ∃ t k load, exec c s = .next t ∧ t.env = s.env ∧ t.w.pool = s.w.pool ∧ t.w.dir = s.w.dir ∧
        t.w.home = s.w.home ∧ t.w.out = .hostData q.agent q.tag k ⟨0, true⟩ load :: s.w.out) ∧
    (∀ mv d mask c, (op = .wr mv d (BitVec.allOnes 64) true ∧ c = .hostMemwr q mv d ∨
        op = .wr mv d mask false ∧ c = .hostMemwrptl q mv d mask) →
      ∃ t load, exec c s = .next t ∧ t.env = s.env ∧ t.w.pool = s.w.pool ∧ t.w.dir = s.w.dir ∧
        t.w.home = s.w.home ∧ t.w.out = .hostCmp q.agent q.tag true load :: s.w.out)

/-- A request that a peer sends reaches the home of its line

A forwarded request names its requester in the extension (R82, R233, Table 13-7), and so does a request of a proxy (Table 6-4); a
host's request also reports that host (06 R246). When the requester's device may access the parcel (R83) and the line resolves here with nothing in
front of its home, the request is carried to the home die and the home agent serves it, as one of the class in which it came; nothing
else changes. A PRdCur that a home sends for its line's secondary copy here is answered with that copy (04 R115). -/
def Obligations.PeerRequestsReachTheirHome : Prop :=
  (∀ (h : Hdr) (x : Ext) (p : Place) (s : State) (op : HomeOp),
    let w := reported s.env s.w x.dev x.agent
    let r := msgReq h x op 0
    fromPeer s h [x.agent] → x.dev ≠ s.env.board → (0x7E ≤ x.agent ∨ peerMay w x.dev r) → resolvesHere s.env w r p →
    let t := { s with w := homed s.env w r p }
    (op = .rd .i → exec (.fwdRdI h x) s = .next t) ∧ (op = .rd .s → exec (.fwdRdS h x) s = .next t) ∧
    (op = .rd .a → exec (.fwdRdA h x) s = .next t) ∧
    (∀ mv d, op = .wr mv d (BitVec.allOnes 64) true → exec (.fwdWr h x mv d) s = .next t) ∧
    (∀ mv d mask, op = .wr mv d mask false → exec (.fwdWrPtl h x mv d mask) s = .next t) ∧
    (op = .evict → exec (.fwdClnevct h x) s = .next t) ∧
    (∀ o, op = .rmw o → exec (.fwdAtomic h x o) s = .next t) ∧
    (op = .mashRd → exec (.mashRd h x) s = .next t) ∧
    (∀ d mask, op = .mashWr d mask (mask == BitVec.allOnes 64) → exec (.mashWr h x d mask) s = .next t) ∧
    (∀ o, op = .mashRmw o → exec (.mashRmw h x o) s = .next t)) ∧
  (∀ (h : Hdr) (x : Ext) (line : Nat) (p : Place) (s : State) (op : HomeOp),
    let r := msgReq h x op line
    fromPeer s h [x.agent] → x.dev ≠ s.env.board → (0x7E ≤ x.agent ∨ peerMay s.w x.dev r) → resolvesHere s.env s.w r p →
    let t := { s with w := homed s.env s.w r p }
    (op = .pRdCur → secondaryHere s.env s.w h.dev x line = false → exec (.prdcur h x line) s = .next t) ∧
    (op = .pRdS → exec (.prds h x line) s = .next t) ∧ (op = .pRdX → exec (.prdx h x line) s = .next t) ∧
    (op = .pUpg → exec (.pupg h x line) s = .next t) ∧
    (∀ d mask, op = .pWr d mask (mask == BitVec.allOnes 64) → exec (.pwr h x line d mask) s = .next t) ∧
    (∀ d, op = .pWb d → exec (.pwb h x line d) s = .next t) ∧ (op = .pEvict → exec (.pevict h x line) s = .next t)) ∧
  (∀ (h : Hdr) (x : Ext) (line : Nat) (s : State), fromPeer s h [x.agent] → secondaryHere s.env s.w h.dev x line = true →
    let a := readSecondary s.env s.w h.dev x.parcel line
    exec (.prdcur h x line) s = .next { s with
      w := a.2.emit (.peer { op := 0x20, dev := h.dev, dst := h.src, tag := h.tag, line := line, args := [0], data := some a.1 }) } ∧
    (serving s.w line = true → ∀ d, rawRead s.w (keyOf s.env s.w x.parcel) line = some d → a.1 = d))

/-- Hints, retries, snoop answers, conflicts and evictions of a host's lines

MemSpecRd changes nothing (Table 12-5). A requester's reissue puts a request retried here before its home again in RTY, and sends one
that a peer's home retried to that home again in RTY (R190, 01 R18). A BIRsp goes to the transaction that waits for it, or answers a
snoop relayed for another home (R191, 06 R223). A BIConflict is answered with BIConflictAck at once where no earlier request of the
host on the line is on its way to another home, and waits for those that are (R192). An evicted
near-cache line of this device is written back with its stripe's dirty lines and dropped (R107), and a stripe's write-back writes
them without dropping the line (R108). -/
def Obligations.HostLinesAtTheirHome : Prop :=
  (∀ (q : HostReq) (s : State), exec (.hostMemspecrd q) s = .next s) ∧
  (∀ (line dev agent tag : Nat) (r : Req) (s : State), poolRuns s.env = true →
    s.w.home.waiting.find? (fun r => r.line == line && r.dev == dev && r.agent == agent && r.tag == tag) = some r →
    exec (.retry line dev agent tag) s = .next { s with w := toHome s.env s.w { r with rty := true } }) ∧
  (∀ (line dev agent tag : Nat) (d : Nat) (r : Req) (s : State), poolRuns s.env = true →
    s.w.home.waiting.find? (fun r => r.line == line && r.dev == dev && r.agent == agent && r.tag == tag) = none →
    s.w.home.forwarded = [(d, r)] → r.dev = dev → r.agent = agent → r.tag = tag → s.w.home.conflicts = [] →
    ∃ t, exec (.retry line dev agent tag) s = .next t ∧ t.env = s.env ∧ t.w.pool = s.w.pool ∧ t.w.dir = s.w.dir ∧
      t.w.home.forwarded = [(d, { r with lat := 3, rty := true })] ∧
      t.w.out = .peer (fwdMsg { r with lat := 3, rty := true } d) :: s.w.out) ∧
  (∀ (agent line : Nat) (resp : SnpResp) (x : Txn) (s : State), poolRuns s.env = true → headUp s.w agent = true →
    s.w.home.txns.find? (fun t => t.req.line == line && t.waits.any (isHost s.env.board agent)) = some x →
    exec (.birsp agent line resp) s = .next { s with
      w := pagesDone s.env (hostAnswer s.env s.w x s.env.board agent resp) }) ∧
  (∀ (agent line : Nat) (resp : SnpResp) (y : Relay) (s : State), poolRuns s.env = true → headUp s.w agent = true →
    s.w.home.txns = [] → s.w.home.relays = [y] → y.line ≤ line → line < y.line + max 1 y.lines →
    y.agents.contains (relayIx y line agent) = true →
    exec (.birsp agent line resp) s = .next { s with w := relayAnswer s.env s.w y agent line resp }) ∧
  (∀ (agent line : Nat) (s : State), poolRuns s.env = true → headUp s.w agent = true → s.w.home.conflicts = [] →
    let ahead := s.w.home.forwarded.any (fun y => y.2.dev == s.env.board && y.2.agent == agent && y.2.line == line && !y.2.rty)
    (ahead = false → exec (.biconflict agent line) s = .next { s with w := s.w.emit (.biConflictAck agent line) }) ∧
    (ahead = true → exec (.biconflict agent line) s = .next { s with
      w := { s.w with home := { s.w.home with conflicts := [(agent, line)] } } })) ∧
  (∀ (line : Nat) (n : NcLine) (s : State), poolRuns s.env = true → ncGet s.w s.env.board line = some n →
    let t := { s with w := ncDrop (writeBackLine s.env s.w line) s.env.board line }
    exec (.nearCacheEvict line) s = .next t ∧ ncGet t.w s.env.board line = none ∧
    (n.dirty = false → t.w = ncDrop s.w s.env.board line)) ∧
  (∀ (line : Nat) (n : NcLine) (s : State), poolRuns s.env = true → ncGet s.w s.env.board line = some n →
    eClass (cadEntry s.w n.parcel) = 1 → n.dirty = true →
    let d := dirtyOf s.env s.w (stripeAt s.w line).1
    let a := writeStripe s.env s.w (accOwn n.parcel s.env) (keyOf s.env s.w n.parcel) (stripeAt s.w line).1 d
    exec (.stripeWriteBack line) s = .next { s with
      w := if a.1 then d.foldl (fun w x => ncClean w s.env.board (stripeLine w (stripeAt s.w line).1 x.1)) a.2 else a.2 })

/-- Suspect and lost hosts

An unanswered snoop makes an ACTIVE host SUSPECT at the next boundary (R203), with its grace deadline at the first boundary at or
after the end of the grace period (R204, R205). At that deadline the host returns or is declared LOST (R204, R209). HOST_LOST from a
peer, and the hold deadline of an absent device's SUSPECT hosts, make them LOST here and open a sweep of this device's stores (R210,
R211, 06 R247); the sweep is over when no entry names the host any more: a sweep for this device's own host is noted, one for
a peer's host is reported to that peer, and a peer's report is noted (R211). -/
def Obligations.SuspectAndLostHosts : Prop :=
  (∀ (agent line : Nat) (s : State), poolRuns s.env = true → snoopOpen s.env s.w agent line = true →
    (s.w.host s.env.board agent).coh = .active → s.w.due.contains (.suspect agent) = false →
    exec (.snoopTimeout agent line) s = .next { s with w := s.w.queue (.suspect agent) }) ∧
  (∀ (agent : Nat) (e : Env) (w : Work), (w.host e.board agent).coh = .active →
    (dueFirst e w (.suspect agent)).host e.board agent =
      { coh := .suspect, since := e.clk.start, deadline := some (e.clk.start + gracePs w) }) ∧
  (∀ (agent d : Nat) (s : State), poolRuns s.env = true → (s.w.host s.env.board agent).coh = .suspect →
    (s.w.host s.env.board agent).deadline = some d → d ≤ s.env.clk.start →
    exec (.graceDeadline agent) s = .next { s with
      w := if mayReturn s.env s.w agent then becomeActive s.env s.w s.env.board agent else becomeLost s.env s.w agent }) ∧
  (∀ (h : Hdr) (agent : Nat) (s : State), fromPeer s h [] →
    exec (.hostLostMsg h agent) s = .next { s with
      w := dropLostHost s.env (openSweep s.env (s.w.setHost h.dev agent { coh := .lost, since := s.env.clk.start }) h.dev (some agent))
        h.dev agent }) ∧
  (∀ (dev agent count : Nat) (s : State), poolRuns s.env = true →
    s.w.dir.sweeps.any (fun x => x.dev == dev && x.agent == some agent) = true →
    sweepLines s.w (fun d => !d.coarse && d.names (holderOf dev agent)) = [] →
    ∃ t, exec (.hostLostSweep dev agent count) s = .next t ∧ t.env = s.env ∧ t.pending = s.pending ∧
      t.w.dir.sweeps = s.w.dir.sweeps.filter (fun x => !(x.dev == dev && x.agent == some agent)) ∧
      (dev = s.env.board → (t.w.host dev agent).sweepsOpen = (s.w.host dev agent).sweepsOpen.filter (· != s.env.board)) ∧
      (dev ≠ s.env.board → t.w.out = .peer { op := 0x51, dev := dev, args := [agent] } :: s.w.out)) ∧
  (∀ (h : Hdr) (agent : Nat) (s : State), fromPeer s h [] → (s.w.host s.env.board agent).coh = .lost →
    exec (.sweepDone h agent) s = .next { s with
      w := s.w.setHost s.env.board agent { s.w.host s.env.board agent with
        sweepsOpen := (s.w.host s.env.board agent).sweepsOpen.filter (· != h.dev) } }) ∧
  (∀ (dev : Nat) (s : State), poolRuns s.env = true → dev ≠ s.env.board →
    exec (.hostHoldDeadline dev) s = .next { s with
      w := (List.range 64).foldl (fun w a =>
        match (w.host dev a).coh, (w.host dev a).deadline with
        | .suspect, some t =>
          if t ≤ s.env.clk.start then
            dropLostHost s.env
              (openSweep s.env (w.setHost dev a { coh := .lost, since := s.env.clk.start }) dev (some a)) dev a
          else w
        | _, _ => w) s.w })

/-- A proxy answers a peer's snoop by the state it holds

A proxy without the line answers I, without data. With it, PSnpInv drops the line and answers I, with the data of M, O and E;
PSnpShr leaves M and O as O, others as S, and sends the data; PSnpCur leaves the state and sends the data; PSnpTake makes the line O and
dirty and sends the data (Table 6-3). The dirty flag tells of M and O, and of O after PSnpTake. The answer goes to the
agent that sent the snoop, with its tag; snoop and answer cross the fabric between the port's die and the proxy die (01 R16), and nothing
else changes. While a write of this proxy to the line is outstanding, the snoop waits for it (R227). -/
def Obligations.ProxyAnswersSnoops : Prop :=
  ∀ (h : Hdr) (line : Nat) (s : State), fromPeer s h [] →
    let came := carryRelay s.env s.w h.dev 0x7F line
    let w := carryRelayed s.env came h.dev 0x7F line (ncGet s.w h.dev line).isSome
    let waits (op : Nat) : State := { s with w := { came with home := { came.home with snoops := came.home.snoops ++
      [{ op := op, dev := h.dev, src := h.src, dst := h.dst, tag := h.tag, line := line }] } } }
    let ans (st : PeerSt) (dirty : Bool) (d : Option Payload) : Out :=
      .peer { op := 0x1D, dev := h.dev, src := h.dst, dst := h.src, tag := h.tag, line := line, data := d,
              args := [stCode st, if dirty then 1 else 0] }
    (ownPending s.w h.dev line = true →
      exec (.psnpinv h line) s = .next (waits 0x18) ∧ exec (.psnpshr h line) s = .next (waits 0x19) ∧
      exec (.psnpcur h line) s = .next (waits 0x1A) ∧ exec (.psnptake h line) s = .next (waits 0x1B)) ∧
    (ownPending s.w h.dev line = false →
      match ncGet s.w h.dev line with
      | none =>
        let t : State := { s with w := w.emit (ans .i false none) }
        exec (.psnpinv h line) s = .next t ∧ exec (.psnpshr h line) s = .next t ∧ exec (.psnpcur h line) s = .next t ∧
        exec (.psnptake h line) s = .next t
      | some n =>
        let d : Option Payload := some ⟨n.data, n.poison⟩
        let dirty := n.st == some .m || n.st == some .o
        let st : PeerSt := if dirty then .o else .s
        exec (.psnpinv h line) s = .next { s with
          w := (ncDrop w h.dev line).emit (ans .i dirty (if dirty || n.st == some .e then d else none)) } ∧
        exec (.psnpshr h line) s = .next { s with
          w := (ncPut w h.dev line { n with st := some st }).emit (ans st dirty d) } ∧
        exec (.psnpcur h line) s = .next { s with w := w.emit (ans (n.st.getD .i) dirty d) } ∧
        exec (.psnptake h line) s = .next { s with
          w := (ncPut w h.dev line { n with st := some .o, dirty := true }).emit (ans .o true d) })

/-- A proxy drops an S copy silently, an M or O copy with PWb, an E copy with PEvict

Dropping a peer-homed line removes it from the near cache. Nothing is sent for an S copy; for an M or O copy the home is sent
PWb with the data, for an E copy PEvict, and the message stays noted until the home completes it. Only the fabric and the
account that it is carried for change besides. A line with a request of this proxy outstanding is not dropped (R230). -/
def Obligations.ProxyDropTellsTheHome : Prop :=
  ∀ (dev line : Nat) (n : NcLine) (s : State), poolRuns s.env = true → dev ≠ s.env.board → ncGet s.w dev line = some n →
    let w := ncDrop s.w dev line
    let r (op : HomeOp) : Req :=
      { op := op, dev := s.env.board, agent := 0x7F, tag := line % 2 ^ 16, frame := s.env.clk.frame, parcel := n.parcel,
        gen := n.gen, off := n.off, line := line }
    let sent (op : HomeOp) (m : PeerMsg) : State :=
      { s with w := (carryOut s.env { w with home := { w.home with forwarded := w.home.forwarded ++ [(dev, r op)] } }
          (r op) dev op.hasData).emit (.peer m) }
    let m : PeerMsg :=
      { op := 0x16, dev := dev, src := 0x7F, tag := line % 2 ^ 16, line := line,
        ext := some (n.parcel, n.gen, n.off, s.env.clk.frame), args := [s.env.board, 0x7F, 1] }
    (proxyBusy s.w dev line = true → exec (.proxyDrop dev line) s = .next s) ∧
    (proxyBusy s.w dev line = false →
      (n.st = some .s → exec (.proxyDrop dev line) s = .next { s with w := w }) ∧
      (n.st = some .m ∨ n.st = some .o → exec (.proxyDrop dev line) s =
        .next (sent (.pWb ⟨n.data, n.poison⟩) { m with op := 0x15, data := some ⟨n.data, n.poison⟩ })) ∧
      (n.st = some .e → exec (.proxyDrop dev line) s = .next (sent .pEvict m)))

/-- Answers that come back to this device's requests, and answers to its snoops

PGnt installs the line in the near cache in the granted state, with the data that came or was held, and serves the read that asked
for it; for a write that asked, the line is M with the written data (R215, R219, Table 6-1). Data, Cmp and Err complete the request
sent to that peer under that tag: a read gets its data, a write its completion, an Err refuses it; Data for a read of a copy on another
device goes to the transaction that asked (04 R115); a Cmp or Err without a request
answers the claim of an operation slot (04 R140). A PRsp and a relayed
BIRsp go to the open transaction of the line (Table 6-4, R223). PSnpHost emits the snoops of the hosts named (R223, R730). Where
proxy accesses, snoops or conflicts waited for the request, they go on (R227, R230, 05 R192). -/
def Obligations.PeerAnswersAreTaken : Prop :=
  (∀ (h : Hdr) (line : Nat) (st : PeerSt) (d : Payload) (x : Nat × Req) (s : State), fromPeer s h [] →
    sentReq s.w h.dev h.dst h.tag = some x → x.2.line = line →
    let w := dropSent (carryBack s.env s.w x.2 x.1 true) x
    let n : NcLine :=
      { data := d.data, poison := d.poison, dirty := false, parcel := x.2.parcel, st := some st, gen := x.2.gen, off := x.2.off }
    (x.2.after = some .mashRd → exec (.pgnt h line st (some d)) s = .next { s with
      w := dueProxy s.env (dueSnoops s.env (replyData s.env (ncFill s.env w x.1 line n) x.2 .cmp d)) }) ∧
    (∀ v m full, x.2.after = some (.mashWr v m full) →
      let q := mergedWrite d v m full
      exec (.pgnt h line st (some d)) s = .next { s with
        w := dueProxy s.env (dueSnoops s.env (replyCmp s.env
          (ncFill s.env w x.1 line { n with data := q.data, poison := q.poison, dirty := true, st := some .m }) x.2 true)) })) ∧
  (∀ (h : Hdr) (d : Payload) (x : Nat × Req) (s : State), fromPeer s h [] → copyTxn s.w h.dev h.tag = none →
    sentReq s.w h.dev h.dst h.tag = some x → (∃ m, x.2.op = .rd m) →
    let w := dropSent (carryBack s.env s.w x.2 x.1 true) x
    exec (.data h d) s = .next { s with
      w := dueConflicts s.env (dueProxy s.env (dueSnoops s.env (replyData s.env w x.2 (grantOf w x.2) d))) }) ∧
  (∀ (h : Hdr) (d : Payload) (x : Txn) (s : State), fromPeer s h [] → copyTxn s.w h.dev h.tag = some x →
    exec (.data h d) s = .next { s with
      w := dueConflicts s.env (dueProxy s.env (dueSnoops s.env (copyArrived s.env s.w x d))) }) ∧
  (∀ (h : Hdr) (x : Nat × Req) (s : State), fromPeer s h [] → sentReq s.w h.dev h.dst h.tag = some x →
    exec (.cmp h) s = .next { s with
      w := dueConflicts s.env (dueProxy s.env (dueSnoops s.env
        (replyCmp s.env (dropSent (carryBack s.env s.w x.2 x.1 false) x) x.2 true))) }) ∧
  (∀ (h : Hdr) (x : Nat × Req) (s : State), fromPeer s h [] → copyTxn s.w h.dev h.tag = none →
    sentReq s.w h.dev h.dst h.tag = some x → (∀ o, x.2.op ≠ .rmw o) →
    exec (.err h) s = .next { s with
      w := dueConflicts s.env (dueProxy s.env (dueSnoops s.env
        (refuseReq s.env (dropSent (carryBack s.env s.w x.2 x.1 (isRead x.2.op)) x) x.2))) }) ∧
  (∀ (h : Hdr) (k : Nat) (o : OpSlot) (s : State), fromPeer s h [] → sentReq s.w h.dev h.dst h.tag = none →
    s.w.ops.find? (fun x => !x.2.claimed && x.2.peer == h.dev) = some (k, o) →
    exec (.cmp h) s = .next { s with w := setSlot s.w k { o with claimed := true } } ∧
    (copyTxn s.w h.dev h.tag = none → mirrorTxn s.w h.dev h.tag = none →
      exec (.err h) s = .next { s with w := (clearSlot s.w k).setReg aProtectStatus 0x010D })) ∧
  (∀ (h : Hdr) (line : Nat) (st : PeerSt) (dirty : Bool) (d : Option Payload) (x : Txn) (s : State), fromPeer s h [] →
    findTxn s.w line = some x →
    exec (.prsp h line st dirty d) s = .next { s with w := pagesDone s.env (peerAnswer s.env s.w x h.dev st dirty d) }) ∧
  (∀ (h : Hdr) (agent line : Nat) (resp : SnpResp) (x : Txn) (s : State), fromPeer s h [] → findTxn s.w line = some x →
    exec (.hostSnpRsp h agent line resp) s = .next { s with
      w := pagesDone s.env (hostAnswer s.env s.w x h.dev agent resp) }) ∧
  (∀ (h : Hdr) (parcel line agent : Nat) (s : State), fromPeer s h [agent] → agent < 64 →
    (s.w.host s.env.board agent).coh = .active → headUp s.w agent = true →
    let w := carryRelay s.env s.w h.dev agent line
    exec (.psnphost h parcel line 1 2 0 [agent]) s = .next { s with
      w := { w with
        out := .hostSnp agent line .inv :: w.out
        home := { w.home with relays := w.home.relays ++ [
          { dev := h.dev, tag := h.tag, line := line, lines := 1, kind := .inv, agents := [agent], held := [], whole := false,
            since := s.env.clk.now }] } } })

/-- TWIN mirror writes and copies at the other device

A MirrorWr that passes the access check writes this device's copy, notes the recent write (R134), marks the plot where the home says
that it cannot write its own copy (R133), and is acknowledged with the home's line (R114). The acknowledgement lets the home write its
own copy and complete the write. A slot claim takes a free slot for
the mirror's part, to establish or to resilver as the parcel's entry asks, and is answered with Cmp (R140). MARK gives the
watermark for the mirror's next boundary (R142), and a copied line is written to the mirror's copy (R141). -/
def Obligations.TwinMirrorSide : Prop :=
  (∀ (h : Hdr) (parcel gen off : Nat) (d : Payload) (up : Bool) (l : Loc) (p m : Place) (s : State), fromPeer s h [] →
    accessCheck s.env s.w (.fwd h.dev gen 0) parcel off true = .served l →
    mirrorPlace s.env s.w h.dev parcel off = some (p, m) →
    let a := mirrorIn s.env (carryFromPeer s.env s.w acctDev .request h.dev (m.dpa / 64) true) h parcel off (m.dpa / 64) d up
    exec (.mirrorWr h parcel gen off ⟨d, up⟩) s = .next { s with
      w := (carryToPeer s.env a.2 acctDev .answer h.dev (m.dpa / 64) false).emit
        (.peer { op := 0x31, dev := h.dev, dst := h.src, tag := h.tag, line := p.dpa / 64, args := [if a.1 then 0 else 1] }) }) ∧
  (∀ (h : Hdr) (parcel off line : Nat) (d : Payload) (e : Env) (w : Work), serving w line = true → findTxn w line = none →
    w.pool.recent.length < 4096 →
    let a := mirrorIn e w h parcel off line d true
    a.1 = true ∧ rawRead a.2 (keyOf e w parcel) line = some (if d.poison then ⟨0, true⟩ else d) ∧
    a.2.pool.recent.getLast? = some (parcel, (sheetIndex (cadEntry w parcel) off).2, h.dev, e.clk.frame)) ∧
  (∀ (h : Hdr) (line : Nat) (ok : Bool) (x : Txn) (d : Payload) (s : State), fromPeer s h [] → findTxn s.w line = some x →
    x.mirror = some (h.dev, d) → x.rewrite = none →
    let w := carryFromPeer s.env s.w x.req.acct .answer h.dev line false
    let a := storeLine s.env (if ok then w else setDirtyPlot s.env w x.req.parcel x.req.off) x.req d ok
    exec (.mirrorAck h ⟨line, ok⟩) s = .next { s with
      w := settle s.env (closeTxn s.env a.2 { x with mirror := none } a.1 (x.taken.getD d)) 16 }) ∧
  (∀ (h : Hdr) (parcel k : Nat) (plots : List Nat) (s : State), fromPeer s h [] → mirrorSlot s.w parcel = none → takeSlot s.w = some k →
    let kind := match locate s.env s.w (cadEntry s.w parcel) 0 with
      | .copies _ (some _) _ _ _ => 3
      | _ => 2
    exec (.slotClaim h ⟨parcel, plots⟩) s = .next { s with
      w := (setSlot s.w k { kind := kind, parcel := parcel, peer := h.dev, mirror := true, plots := plots }).emit
        (.peer { op := 0x21, dev := h.dev, dst := h.src, tag := h.tag }) }) ∧
  (∀ (h : Hdr) (parcel value k : Nat) (o : OpSlot) (s : State), fromPeer s h [] →
    mirrorSlot s.w parcel = some (k, o) → o.peer = h.dev → o.st ≠ 4 →
    exec (.mark h parcel value) s = .next { s with w := { s.w with ops := mset s.w.ops k { o with next := some value } } }) ∧
  (∀ (h : Hdr) (line k : Nat) (d : Payload) (o : OpSlot) (s : State), fromPeer s h [] → s.w.pool.move = none →
    s.w.ops.find? (fun x => x.2.mirror && x.2.peer == h.dev && x.2.st != 4 && eState (cadEntry s.w x.2.parcel) == stAssigned) =
      some (k, o) →
    serving s.w line = true →
    let w := memWrite (aesLine (carryFromPeer s.env s.w acctBg .request h.dev line true) (accBg o.parcel s.env)
      (keyOf s.env s.w o.parcel) 1) acctBg line 1
    exec (.copyWr h line d) s = .next { s with w := rawWrite w (keyOf s.env s.w o.parcel) line d })

/-- Sync operations of peers, releases, window reports, and sweeps after a peer is lost

A sync operation that a peer's descriptor sends, on a line of a SYNC parcel that this device homes, and that passes the access check
is carried out by the engine of its object, unless the line is open, which gives RETRY, and answered (R405, R421). A release ends a
held descriptor with its status and result. A die's report that its lines have reached N crosses to the window's owning die and
is noted, and the bank is FULL once both dies that hold lines have reported (08 R352). The sweep for a lost device is over when no
entry names it (R241). Resolution opens the recalls of a promoted page that a request waits for, or of the lowest one left as the
background allotment allows; a page of a parcel that is recovered is left alone (R251, R252). -/
def Obligations.PeerSyncWindowsAndSweeps : Prop :=
  (∀ (h : Hdr) (x : Ext) (line ctx ring dtag : Nat) (k : SyncKind) (l : Loc) (p : Place) (s : State), fromPeer s h [] →
    accessCheck s.env s.w (.fwd h.dev x.gen x.frame) x.parcel x.off true = .served l → l.primary s.w = some p →
    p.dev = s.env.board → eKind (cadEntry s.w x.parcel) = 2 →
    let w := carryFromPeer s.env s.w acctDev .request h.dev line false
    let o : Obj := ⟨x.parcel, x.off / 64 * 64, p.dpa / 64⟩
    exec (.syncOp h x line ctx ring dtag k) s = .next { s with w := syncOpAt s.env w h o ctx ring dtag k } ∧
    (∀ n, k = .signal n → ring ≠ noRing → findTxn s.w o.line = none → reservation s.w o.line = none →
      let a := syncSignal s.env w o ⟨h.dev, h.src, some ctx, ring, dtag, h.tag⟩ n
      syncOpAt s.env w h o ctx ring dtag k = syncReply s.env a.2 h o.line ring dtag a.1)) ∧
  (∀ (h : Hdr) (ring n status result : Nat) (d : Desc) (s : State), fromPeer s h [] →
    getDesc s.w ring n = some d → d.phase = .held →
    exec (.syncRelease h ring n status result) s = .next { s with w := finishDesc s.w ring n status result 0 }) ∧
  (∀ (win bank die : Nat) (x : Win) (s : State), poolRuns s.env = true → mget s.w.mash.wins win = some x →
    (winBank x bank).st = 0 → die < 2 → 0 < linesOnDie s.env s.w win x.parcel bank die →
    linesOnDie s.env s.w win x.parcel bank die ≤ (if die = 0 then (winBank x bank).atN0 else (winBank x bank).atN1) →
    let reps := sadd (winBank x bank).reports die
    let full := linesOnDie s.env s.w win x.parcel bank (1 - die) = 0 ∨ reps.length = 2
    ∃ w, exec (.windowReport win bank die) s = .next { s with
        w := putWin w win (winSetBank x bank { winBank x bank with reports := reps, st := if full then 1 else 0 }) } ∧
      w = { s.w with vorir := w.vorir }) ∧
  (∀ (dev count : Nat) (s : State), poolRuns s.env = true →
    s.w.dir.sweeps.any (fun x => x.dev == dev && x.agent == none) = true →
    sweepLines s.w (fun d => d.peers.contains dev) = [] →
    exec (.peerLostSweep dev count) s = .next { s with
      w := { s.w with dir := { s.w.dir with
        sweeps := s.w.dir.sweeps.filter (fun x => !(x.dev == dev && x.agent == none)) } } }) ∧
  (∀ (parcel page : Nat) (s : State), poolRuns s.env = true →
    let asked := s.w.home.waiting.any (fun r => r.parcel == parcel && pageOf r.off == page)
    (asked = true → exec (.pageResolution parcel page) s = .next { s with w := resolvePage s.env s.w parcel page }) ∧
    (asked = false → nextPage s.env s.w (cadEntry s.w parcel) = some page → bgOpen s.w (parcelPart s.w parcel) = true →
      exec (.pageResolution parcel page) s = .next { s with
        w := resolvePage s.env (bgDraw s.w (parcelPart s.w parcel) 4096) parcel page })) ∧
  (∀ (e : Env) (w : Work) (parcel page : Nat),
    (w.pool.recovered.contains parcel = true → resolvePage e w parcel page = w) ∧
    (∀ (p : Place) (a b : Option Place) (c : Nat),
      locate e w (cadEntry w parcel) (4096 * page) = .copies p a b true c → p.dev = e.board →
      tracked w parcel = true → w.pool.recovered.contains parcel = false →
      p0Bit e w (recoveryBase (cadEntry w parcel)) page = false → w.home.resolving.contains (parcel, page) = false →
      w.home.txns = [] →
      resolvePage e w parcel page = pagesDone e ((List.range 64).foldl (pageLine e parcel page (p.dpa / 64))
        { w with home := { w.home with resolving := w.home.resolving ++ [(parcel, page)] } })))

/-- A tile is issued only where it fits, is refused by a Tun of another epoch, and is then sent again

A running descriptor's next tile is issued at an instant of the frame when its time, bytes and energy fit (R40, R41), in a calendar
slot that serves its host's partition (11 R460): the allotment is drawn on, the tile is in flight with the Tun's epoch and the descriptor counts it; a tile that would end after the boundary
is not issued. On arrival a tile with the current epoch takes an idle core; with another epoch it is refused, counted and
answered STALE_ROLE (R290), and is sent anew to a Tun that serves, with that Tun's epoch (R291). A response of an
earlier epoch is discarded and counted. Nothing else changes. -/
def Obligations.TilesAreIssuedAndDispatched : Prop :=
  (∀ (ring n x dur bytes energy u : Nat) (d : Desc) (s : State), poolRuns s.env = true →
    getDesc s.w ring n = some d → d.tun = some u → mayIssue s.env s.w d u = true → s.env.clk.start ≤ x → x < s.env.clk.next →
    timeFits s.env s.w u x dur = true → allotted s.w (ringOwner s.w ring) bytes energy = true →
    underCeiling s.w (ringOwner s.w ring) bytes = true → slotOwned s.env s.w (slotAt s.env x) (ringOwner s.w ring) = true →
    let a := ringOwner s.w ring
    let p := planOf s.w a
    let w := putPlan s.w a { p with mash := p.mash - bytes, mashE := p.mashE.map (· - energy) }
    let w := { w with qos := { w.qos with mashLines := mmod w.qos.mashLines a 0 (· + (bytes + 63) / 64) } }
    let w := addTile w { ring := ring, n := n, idx := d.issued, tun := u, epoch := tunEpoch s.w u, frame := s.env.clk.frame,
                         blocks := tileBlocks d (sizeOf s.w d) d.issued }
    exec (.tileIssue ring n x dur bytes energy) s = .next { s with
      w := (putDesc w { d with issued := d.issued + 1, lastIssue := some s.env.clk.frame, deferred := 0 }).emit
        (.work 0 ring n d.issued u) }) ∧
  (∀ (ring n x dur bytes energy : Nat) (s : State), dur < s.env.period → s.env.clk.start + s.env.period ≤ x + dur →
    exec (.tileIssue ring n x dur bytes energy) s = .next s) ∧
  (∀ (ring n idx : Nat) (t : Tile) (s : State), poolRuns s.env = true → getTile s.w ring n idx = some t → t.st = .sentOut →
    exec (.tileDispatch ring n idx t.epoch) s = .next { s with
      w := if t.epoch = tunEpoch s.w t.tun then putTile s.w { t with st := .arrived, core := idleCore s.w t.tun }
        else ((putTile s.w { t with st := .stale }).inc (aTunStaleCount t.tun) 1).emit (.work 1 ring n idx t.tun) }) ∧
  (∀ (ring n idx tun : Nat) (t : Tile) (d : Desc) (s : State), poolRuns s.env = true → getTile s.w ring n idx = some t →
    getDesc s.w ring n = some d → t.st = .stale → tunDie tun = tunDie t.tun → 
    (d.tun = some tun ∧ tunRole s.w tun = roleServe ∨ d.tun ≠ some tun ∧ takesDesc s.w tun (ringOwner s.w ring) = true) →
    exec (.staleRole ring n idx tun) s = .next { s with
      w := (putDesc (putTile s.w { t with st := .sentOut, tun := tun, epoch := tunEpoch s.w tun }) { d with tun := some tun }).emit
        (.work 0 ring n idx tun) }) ∧
  (∀ (tun epoch : Nat) (s : State), poolRuns s.env = true →
    exec (.staleResponseDiscard tun epoch) s = .next { s with
      w := if epoch = tunEpoch s.w tun then s.w else s.w.inc (aTunStaleCount tun) 1 })

/-- Translation of a tile, demand walks and prefetch walks

A tile that has arrived, or whose walks it waits for, is translated in its descriptor's order, phase by phase: when the caches and the
walks that have ended give every page of the phase without a fault, its reads are issued, and with them the prefetches of the tiles
ahead (R371, R373, R380); one whose context is not enabled ends with PERMISSION; while pages are missing it waits for their walks, and with a faulted page
it goes on as its fault says (R386). A walk without a walker waits; with one it goes as far as the table entries that have come let it, and a walk whose
context is gone is dropped (R376, R381). A prefetch walk is taken only where at most 7 others of the die and a walker are free, and
delivers to no tile (R380). -/
def Obligations.TilesAreTranslatedByWalks : Prop :=
  (∀ (ring n idx : Nat) (t : Tile) (d : Desc) (x : Ctx) (s : State), poolRuns s.env = true → getTile s.w ring n idx = some t →
    getDesc s.w ring n = some d → d.phase = .running → inOrder s.w d idx = true → blockHeld s.w 1 t.tun = false →
    t.st = .arrived ∨ t.st = .walking → getCtx s.w (dCtx d.img) = some x → x.on = true →
    let ph := if isSync (dOp d.img) ∨ phase1 d (sizeOf s.w d) idx = [] then 2 else 0
    let t1 : Tile := if t.st = .arrived then { t with ph := ph, pages := [], lines := [] } else t
    let a := pagesTried s.env s.w d t1
    let t2 : Tile := { t1 with
      st := .walking, wframe := if t.st = .walking then t.wframe else s.env.clk.frame, pages := a.1 }
    let w := putTile a.2 t2
    (a.1.all pageDone = true → a.1.any (fun p => p.fault.isSome) = false → (t2.ph = 2 → scatterUnit w d t2 = false) →
      exec (.tileTranslate ring n idx) s = .next { s with
        w := if t2.ph = 2 ∧ isSync (dOp d.img) = false then prefetch (issueReads s.env w d t2) d t2 (xPrefetch x.entry)
          else issueReads s.env w d t2 }) ∧
    (a.1.all pageDone = true → a.1.any (fun p => p.fault.isSome) = true →
      exec (.tileTranslate ring n idx) s = .next { s with w := faultTile s.env w d t2 x.entry }) ∧
    (a.1.all pageDone = false → exec (.tileTranslate ring n idx) s = .next { s with w := w })) ∧
  (∀ (ring n idx : Nat) (t : Tile) (d : Desc) (s : State), poolRuns s.env = true → getTile s.w ring n idx = some t →
    getDesc s.w ring n = some d → d.phase = .running → inOrder s.w d idx = true → blockHeld s.w 1 t.tun = false → t.st = .arrived →
    (∀ x, getCtx s.w (dCtx d.img) = some x → x.on = false) →
    exec (.tileTranslate ring n idx) s = .next { s with w := endAt s.env s.w d t.idx stPermission }) ∧
  (∀ (e : Env) (w : Work) (d : Desc) (t : Tile), (∀ x, getCtx w (dCtx d.img) = some x → x.on = false) →
    translatePhase e w d t = endAt e w d t.idx stPermission) ∧
  (∀ (tun ctx cva : Nat) (write : Bool) (k : Walk) (s : State), poolRuns s.env = true →
    s.w.xlat.walks.find? (fun k => sameWalk k { tun := tun, ctx := ctx, cva := cva, write := write }) = some k →
    exec (.stage1Walk tun ctx cva write) s = .next { s with
      w := if k.level = 0 ∧ k.reading = false ∧ walkersOf s.w ≤ walkersBusy s.w tun ctx then s.w else runWalk s.env s.w k }) ∧
  (∀ (e : Env) (w : Work) (k : Walk), getCtx w k.ctx = none → runWalk e w k = dropWalk w k) ∧
  (∀ (tun ctx cva : Nat) (s : State), poolRuns s.env = true →
    let k : Walk := { tun := tun, ctx := ctx, cva := 4096 * (cva / 4096), write := false, pre := true }
    s.w.xlat.walks.find? (fun x => sameWalk x k) = none → s.w.xlat.pre.contains (tun, ctx, cva / 4096) = true →
    let w := { s.w with xlat := { s.w.xlat with pre := s.w.xlat.pre.filter (· != (tun, ctx, cva / 4096)) } }
    exec (.prefetchWalk tun ctx cva) s = .next { s with
      w := if 8 ≤ busyWalks w (tunDie tun) true ∨ walkersOf w ≤ walkersBusy w tun ctx then w
        else runWalk s.env (keepWalk w k) k })

/-- Tun roles, strikes, and tiles of an old role

A commit of a Tun's role is checked (Table 7-14): the reserved role answers 0x0601; code 0 makes the change pending, in the place of
an earlier one, and the role in force stays until the boundary (R293). The epoch after an epoch is the next number, never 0
(R288). A strike lapses after its frames (R277), and a second one that meets it asks for the core's retirement. A tile of
the old role that still runs at the second boundary is abandoned, and its descriptor goes on, once no other tile of it is in
flight, at the Tun that takes it (R295). -/
def Obligations.TunRolesAndStrikes : Prop :=
  (∀ (tun : Nat) (v : Word) (s : State), poolRuns s.env = true → bitAt v.toNat 31 = true →
    let role := bitsOf v.toNat 17 16
    let w := s.w.setFld (aTunRoleCtl tun) 17 16 role
    let code := roleCheck w tun role
    let w' := w.setFld (aTunStatus tun) 15 0 code
    exec (.tunRoleCommit tun v) s = .next { s with
      w := if code = 0 then (w'.setTun tun { w.tun tun with pend := some role }).setFld (aTunStatus tun) 21 21 1 else w' } ∧
    (role = 3 → code = 0x0601)) ∧
  (∀ (tun : Nat) (v : Word) (s : State), poolRuns s.env = true → bitAt v.toNat 31 = false →
    exec (.tunRoleCommit tun v) s = .next { s with w := s.w.setFld (aTunRoleCtl tun) 17 16 (bitsOf v.toNat 17 16) }) ∧
  (∀ x, x < 2 ^ 16 → nextEpoch x ≠ 0 ∧ nextEpoch x < 2 ^ 16 ∧ (x ≠ 0xFFFF → nextEpoch x = x + 1)) ∧
  (∀ (tun core f : Nat) (s : State), poolRuns s.env = true → mget (s.w.tun tun).strikes core = some f →
    exec (.strikeLapse tun core) s = .next { s with
      w := if f + strikeFrames s.w ≤ s.env.clk.frame
        then s.w.setTun tun { s.w.tun tun with strikes := mdel (s.w.tun tun).strikes core } else s.w }) ∧
  (∀ (e : Env) (w : Work) (tun core f : Nat), mget (w.tun tun).strikes core = some f → e.clk.frame < f + strikeFrames w →
    strike e w tun core = (true, w.setTun tun { w.tun tun with retire := sadd (w.tun tun).retire core })) ∧
  (∀ (ring n idx tun f : Nat) (t : Tile) (d d' : Desc) (s : State), poolRuns s.env = true → getTile s.w ring n idx = some t →
    getDesc s.w ring n = some d → (s.w.tun t.tun).changed = some f → t.st ≠ .sent → f + 2 ≤ s.env.clk.frame → t.frame ≤ f →
    tunRole s.w t.tun ≠ roleServe → getDesc (abandonTile s.w t) ring n = some d' →
    tilesOf (abandonTile s.w t) ring n = [] → takesDesc (abandonTile s.w t) tun (ringOwner (abandonTile s.w t) ring) = true →
    tunDie tun = tunDie t.tun →
    exec (.roleTileAbandon ring n idx tun) s = .next { s with
      w := putDesc (abandonTile s.w t) { d' with tun := some tun, slot := none } })

/-- A tile whose inputs are staged runs its descriptor's operation and holds its results

For each operation of Table 8-6: a tile of a descriptor of that operation, whose reads have all come back, is
COMPUTED with the writes and the partial result that the operation gives on its staged inputs; its core cycles are charged to its
descriptor's context, and poisoned inputs are noted and raise POISON_CONSUMED (15 Table 15-5); nothing is written to the pool yet, and
nothing else changes. A tile of another operation, or one whose
inputs are not all there, is left alone. FILL repeats the 64-bit pattern (R320). -/
def Obligations.MashOperationsRun : Prop :=
  (∀ (ring n idx op : Nat) (c : Instr) (t : Tile) (d : Desc) (s : State), poolRuns s.env = true →
    (op, c) ∈ [(opCopy, .copy ring n idx), (opFill, .fill ring n idx), (opConvert, .convert ring n idx), (opReduce, .reduce ring n idx),
      (opAxpby, .axpby ring n idx), (opDot, .dot ring n idx), (opGather, .gatherSum ring n idx), (opScatter, .scatterAdd ring n idx),
      (opStep, .optStep ring n idx), (opQuantize, .quantize ring n idx), (opDequant, .dequant ring n idx),
      (opChecksum, .checksum ring n idx), (opCow, .cowPage ring n idx), (opRecipe, .recipe ring n idx)] →
    getTile s.w ring n idx = some t → getDesc s.w ring n = some d →
    (dOp d.img = op → t.st = .reading → t.ph = 2 → readsIn s.w t = true → blockHeld s.w 1 t.tun = false → d.tainted = false →
      let m := tileMem s.w t
      let x := d.img
      let o : TileOut :=
        if op = opCopy ∨ op = opCow then copyOut m x (sizeOf s.w d) t.idx
        else if op = opFill then fillOut x (sizeOf s.w d) t.idx
        else if op = opConvert ∨ op = opQuantize ∨ op = opDequant then convertOut m x (sizeOf s.w d) t.idx
        else if op = opReduce then reduceOut m x d.tab (sizeOf s.w d) t.idx
        else if op = opAxpby then axpbyOut m x (sizeOf s.w d) t.idx
        else if op = opDot then
          { part := [valToNat (dotPart m x (tileRange x (sizeOf s.w d) t.idx).1 (tileRange x (sizeOf s.w d) t.idx).2)] }
        else if op = opGather then (match d.cuts[t.idx]? with
          | some c => gatherOut m x d.carry c
          | none => {})
        else if op = opScatter then scatterOut m x (sizeOf s.w d) t.idx
        else if op = opStep then optOut m x (sizeOf s.w d) t.idx
        else if op = opRecipe then recipeOut m x d.act (sizeOf s.w d) t.idx
        else {}
      let p := m.any (·.2.poison)
      let w := putDesc (chargeCycles (putTile s.w { t with st := .computed, writes := o.writes, part := o.part, poison := p }) d t)
        { d with poisoned := d.poisoned || p || (op == opRecipe && d.act.getD 7 0 == 1) }
      exec c s = .next { s with w := if p then consumed s.env w d t else w }) ∧
    (dOp d.img ≠ op ∨ t.st ≠ .reading ∨ readsIn s.w t = false → exec c s = .next s)) ∧
  (∀ pat k j, pat < 2 ^ 64 → j < k → fillVal pat (8 * k) / 2 ^ (64 * j) % 2 ^ 64 = pat)

/-- A failed check is tried again, and a tile that completes sends its results

When a failed check's second run passes, the first core is struck and ARITH_RETRIED raised; when a third run, on another active core, passes,
both cores are (R276); when it fails too, ARITH is raised and the descriptor ends with that status at the tile. The cycles of each run are
charged (16 R605). A tile whose checks passed completes: it leaves its core and the writes of the descriptor's passed tiles are sent in tile order (08
R341); one that completes at an instant within its frame, or at the boundary after it, is no overrun, one later is counted once (02 R42). -/
def Obligations.TilesCompleteOrAreRetried : Prop :=
  (∀ (ring n idx third : Nat) (thirdOk : Bool) (t : Tile) (d : Desc) (s : State), poolRuns s.env = true →
    getTile s.w ring n idx = some t → getDesc s.w ring n = some d → t.st = .computed →
    exec (.arithRetry ring n idx third true thirdOk) s = .next { s with
      w := raise s.env (strikeAll s.env (chargeCycles s.w d t) d t.tun [t.core]) (arithRec s.env (chargeCycles s.w d t) d t 0x4001 0) }) ∧
  (∀ (ring n idx third : Nat) (t : Tile) (d : Desc) (s : State), poolRuns s.env = true →
    getTile s.w ring n idx = some t → getDesc s.w ring n = some d → t.st = .computed →
    thirdCore s.w t.tun t.core (rerunCore s.w t.tun t.core) third = true →
    let w := chargeCycles (chargeCycles s.w d t) d t
    exec (.arithRetry ring n idx third false true) s = .next { s with
      w := raise s.env (strikeAll s.env w d t.tun ([t.core, rerunCore s.w t.tun t.core].eraseDups)) (arithRec s.env w d t 0x4001 0) } ∧
    (noRoom w (arithRec s.env w d t 0x4002 1) = false → exec (.arithRetry ring n idx third false false) s = .next { s with
      w := endAt s.env (raise s.env w (arithRec s.env w d t 0x4002 1)) d idx stArith })) ∧
  (∀ (ring n idx x : Nat) (t : Tile) (s : State), poolRuns s.env = true → getTile s.w ring n idx = some t → t.st = .computed →
    t.frame = s.env.clk.frame ∨ t.frame + 1 = s.env.clk.frame ∧ x ≤ s.env.clk.start →
    exec (.tileComplete ring n idx x) s = .next { s with
      w := settleDesc s.env (sendTiles s.env (putTile s.w { t with st := .passed }) ring n 8) ring n settleFuel }) ∧
  (∀ (e : Env) (w : Work) (ring n k : Nat) (t : Tile) (d : Desc), getDesc w ring n = some d →
    (tilesOf w ring n).filter (fun t => t.st != .sent) = [t] → t.st = .passed → overtaken e w t = false →
    let j := joinTile w d t
    let t1 : Tile := { t with st := .sent, writes := j.2 }
    sendTiles e w ring n (k + 1) = sendTiles e (j.2.zipIdx.foldl (fun w x =>
      tileSend e w t1 j.1 (2 ^ 20 + x.2) (64 * x.1.line + x.1.byte) x.1.op) (putTile (putDesc w j.1) t1)) ring n k) ∧
  (∀ (w : Work) (t : Tile) (d : Desc), t.late = false → getDesc w t.ring t.n = some d →
    (countOverrun w t).mash.overruns = mmod (mmod w.mash.overruns t.tun 0 (fun x => satAdd 32 x 1)) (0x1000 + dCtx d.img) 0
      (fun x => satAdd 32 x 1))

/-- Reads and writes at a channel's controller, and lines that come back with an error

A read of a channel that takes accesses enters the read queue of 128 entries, and makes a queued write to its line urgent; a write
takes one of 64 entries or replaces the data of the entry of its line (R539, R542, R543); with a full queue none arrives. At a controller
cycle the refreshes that are forced go first, then the access that is chosen among those that can be issued; of a read whose row is
open the burst is sent and the entry freed (R540, R547). Outside drain mode a read past the age cap goes first, then a write past it, and a
write that is not past it waits for every read (R540, R541). Nothing is sent while ALERT_n is low or in a re-centring slot (R551, R562). A line decoded as clean or as poison changes nothing; a correctable one is corrected and counted (R572, Table 15-1). -/
def Obligations.ChannelQueuesAndReads : Prop :=
  (∀ (chan line x : Nat) (d : Line) (s : State), poolRuns s.env = true → channelOf s.w line = chan →
    takesAccess s.w chan = true →
    let c := s.w.chan chan
    exec (.dramAccessArrive chan false line x d) s = .next { s with
      w := if c.reads.length < 128 then s.w.setChan chan { c with
          reads := c.reads ++ [{ line := line, t := x, acct := mgetD s.w.chans.asked line acctDev }]
          writes := c.writes.map (fun q => if q.line = line then { q with urgent := true } else q) } else s.w } ∧
    (c.writes.any (fun q => q.line == line) = true →
      exec (.dramAccessArrive chan true line x d) s = .next { s with
        w := s.w.setChan chan (drainOf s.w chan { c with
          writes := c.writes.map (fun q => if q.line = line then { q with data := d } else q) }) }) ∧
    (c.writes.any (fun q => q.line == line) = false →
      exec (.dramAccessArrive chan true line x d) s = .next { s with
        w := if c.writes.length < 64 then s.w.setChan chan (drainOf s.w chan { c with
          writes := c.writes ++ [{ line := line, t := x, data := d, acct := mgetD s.w.chans.asked line acctDev }] }) else s.w })) ∧
  (∀ (chan sub x : Nat) (ready : List Nat) (s : State), poolRuns s.env = true →
    let w := forcedSub s.w chan sub x
    (mhas (s.w.chan chan).alert sub = true ∨ inRecentre s.env s.w chan x = true →
      exec (.dramCommandIssue chan sub x ready) s = .next s) ∧
    (mhas (s.w.chan chan).alert sub = false → inRecentre s.env s.w chan x = false →
      (pickAccess w chan sub x ready = none → exec (.dramCommandIssue chan sub x ready) s = .next { s with w := w }) ∧
      (∀ wr q, pickAccess w chan sub x ready = some (wr, q) →
        exec (.dramCommandIssue chan sub x ready) s = .next { s with w := issueAccess w chan sub x wr q }) ∧
      (∀ q, (∀ r, r < 4 → ((s.w.chan chan).rank sub r).owed < 4096) → pickAccess s.w chan sub x ready = some (false, q) → rowOpen s.w chan q.line = true →
        exec (.dramCommandIssue chan sub x ready) s = .next { s with
          w := (s.w.setChan chan ({ s.w.chan chan with reads := (s.w.chan chan).reads.erase q }.note
              { kind := 0, t := x, sub := sub, rank := lineRank s.w q.line, bank := lineBank s.w q.line, line := q.line,
                again := q.again, acct := q.acct })).emit
            (.dram chan sub busRd (lineRank s.w q.line) (lineBank s.w q.line)) }))) ∧
  (∀ (w : Work) (chan x : Nat) (rd wr : List QEntry),
    (∀ q, rd.find? (aged w chan x) = some q → chosen w chan x false rd wr = some (false, q)) ∧
    (∀ q, rd.find? (aged w chan x) = none → wr.find? (aged w chan x) = some q → chosen w chan x false rd wr = some (true, q)) ∧
    (rd ≠ [] → wr.find? (aged w chan x) = none → ∃ q, q ∈ rd ∧ chosen w chan x false rd wr = some (false, q))) ∧
  (∀ (line : Nat) (err : Image) (s : State), poolRuns s.env = true → serving s.w line = true →
    (decodeLine s.w line err = .clean ∨ decodeLine s.w line err = .poison → exec (.dramReadReturn line err) s = .next s) ∧
    (∀ i, decodeLine s.w line err = .correctable i →
      exec (.dramReadReturn line err) s = .next { s with w := noteCe s.env (corrected s.w line err i) line i }) ∧
    (decodeLine s.w line err = .uncorrectable →
      exec (.dramReadReturn line err) s = .next { s with w := readBad s.env s.w line }))

/-- Refresh, RFM, calibration and sensor slots of a channel

A refresh slot that is left sends REFsb to the rank's next bank address, once its time has come (R546). ZQ calibration and a manual ECS operation take a
slot in place of its REFsb, which is owed again (R550). An RFM slot sends RFMsb to the bank whose count has reached RAAIMT, and
to none below it, and those a rank's banks need once no slot is left are sent at once (R548, R549; the module's numbers are free values,
log 20). MR4 sets whether the rank's rate is doubled
from the next boundary (R545), the SPD5 sensors' reading is kept for Kiln (R537), and an ALERT abandons a re-centring slot: the
groups keep their centres (R552). -/
def Obligations.ChannelSlotsAreUsed : Prop :=
  (∀ (chan sub rank : Nat) (s : State), poolRuns s.env = true → ((s.w.chan chan).rank sub rank).owed < 4096 →
    let r := (s.w.chan chan).rank sub rank
    let less := s.w.setChan chan ((s.w.chan chan).setRank sub rank { r with slots := r.slots - 1 })
    let swap (kind : Nat) := (s.w.setChan chan ((s.w.chan chan).setRank sub rank { r with slots := r.slots - 1, owed := r.owed + 256 })).emit
      (.dram chan sub kind rank 0)
    (s.env.clk.now < slotTime s.env (s.w.chan chan) rank r → exec (.refreshSlot chan sub rank) s = .next s) ∧
    (r.slots = 0 → exec (.refreshSlot chan sub rank) s = .next s ∧ exec (.zqCalibration chan sub rank) s = .next s ∧
      exec (.ecsOperation chan sub rank) s = .next s) ∧
    (r.slots ≠ 0 →
      (slotTime s.env (s.w.chan chan) rank r ≤ s.env.clk.now →
        exec (.refreshSlot chan sub rank) s = .next { s with w := issueRef less chan sub rank s.env.clk.now }) ∧
      (issueRef less chan sub rank s.env.clk.now).out = .dram chan sub busRef rank r.bank :: s.w.out ∧
      ((issueRef less chan sub rank s.env.clk.now).chan chan).rank sub rank =
        { r with slots := r.slots - 1, bank := (r.bank + 1) % 4 } ∧
      exec (.zqCalibration chan sub rank) s = .next { s with w := swap 5 } ∧
      exec (.ecsOperation chan sub rank) s = .next { s with w := swap 6 })) ∧
  (∀ (chan sub rank bank : Nat) (s : State), poolRuns s.env = true → ((s.w.chan chan).rank sub rank).rfm ≠ 0 →
    let x := s.w.chan chan
    let w := s.w.setChan chan (x.setRank sub rank { x.rank sub rank with rfm := (x.rank sub rank).rfm - 1 })
    let w := if Config.moduleValue x.serial 1 ≤ mgetD x.acts (bankKey sub rank bank) 0 then issueRfm w chan sub rank bank s.env.clk.now
      else w
    exec (.rfmSlot chan sub rank bank) s = .next { s with w := lateRfm w chan sub rank s.env.clk.now }) ∧
  (∀ (chan sub rank reading : Nat) (double : Bool) (m : Module) (s : State), poolRuns s.env = true → (s.w.chan chan).mod = some m →
    exec (.mr4Read chan sub rank double) s = .next { s with
      w := (s.w.setChan chan ((s.w.chan chan).setRank sub rank { (s.w.chan chan).rank sub rank with double := double })).emit
        (.dram chan sub 7 rank 0) } ∧
    exec (.spdThermalRead chan reading) s = .next { s with w := s.w.setChan chan { s.w.chan chan with spd := reading } }) ∧
  (∀ (chan : Nat) (groups : List (Nat × Drift)) (s : State), poolRuns s.env = true → recentreDue s.env s.w chan = true →
    takesAccess s.w chan = true → (s.w.chan chan).alert.isEmpty = true →
    exec (.recentreSlot chan false groups) s = .next { s with w := recentre s.env s.w chan groups } ∧
    exec (.recentreSlot chan true groups) s = .next s)

/-- Service commands of a channel answer a reason code, and only 0x0000 queues the transition

QUIESCE, POWER_OFF, POWER_ON_TRAIN, RETRAIN and REBUILD put their command number in CHANNEL[c].SVC and one code of Table 4-6 in
SVC_REASON; with code 0x0000 the transition waits for the next boundary, and with another nothing is queued. A command that is not
legal in the channel's state answers 0x0205. No other state changes. -/
def Obligations.ChannelServiceCommands : Prop :=
  ∀ (chan cmd : Nat) (c : Instr) (s : State), poolRuns s.env = true →
    (cmd, c) ∈ [(1, .channelQuiesce chan), (2, .channelPowerOff chan), (3, .channelPowerOnTrain chan), (4, .channelRetrain chan),
      (5, .channelRebuild chan)] →
    let w := s.w.setFld (aChannelSvc chan) 27 24 cmd
    let code := svcCheck s.env w chan cmd
    let w' := w.setFld (aChannelSvcReason chan) 15 0 code
    exec c s = .next { s with w := if code = 0 then w'.queue (svcDue chan cmd) else w' } ∧
    code ∈ [0, 0x0203, 0x0205, 0x0206, 0x0207, 0x0208] ∧
    (cmd = 3 → chanState w chan ≠ chOff → code = 0x0205) ∧
    (cmd = 2 ∨ cmd = 4 → chanState w chan ≠ chOut → code = 0x0205)

/-- Alerts stop a subchannel and undo its window; an entry to OUT drains the channel

ALERT_n sampled low stops the subchannel, counts, and raises DRAM_ALERT (R562); while it is low another sample changes nothing. When it
returns high every command of the alert window counts as not performed and is undone in its way: a read is issued again, or poisoned the
second time; a write is repaired; a refresh is owed again; an RFM is sent again; a row is not open (R562-R564). Once the drain of
an entry to OUT is complete the queues are empty and CHANNEL_OUT names the channel and the cause (04 R117). -/
def Obligations.AlertsAndChannelOut : Prop :=
  (∀ (chan sub x : Nat) (m : Module) (s : State), poolRuns s.env = true → (s.w.chan chan).mod = some m →
    (mhas (s.w.chan chan).alert sub = true → exec (.dramAlert chan sub x) s = .next s) ∧
    (mhas (s.w.chan chan).alert sub = false →
      let w := (s.w.setChan chan { s.w.chan chan with alert := mset (s.w.chan chan).alert sub x }).inc (aChannelAlertCount chan) 1
      let w := raise s.env w { ty := 0x1003, unit := dramUnit chan 0 sub 0 }
      let n := mgetD w.chans.alertWin chan 0 + 1
      let w := { w with chans := { w.chans with alertWin := mset w.chans.alertWin chan n } }
      exec (.dramAlert chan sub x) s = .next { s with
        w := if n ≥ errLimit w chan 30 24 then crossed s.env w chan 3 else w })) ∧
  (∀ (chan sub x a : Nat) (s : State), poolRuns s.env = true → mget (s.w.chan chan).alert sub = some a → a ≤ x →
    let c := s.w.chan chan
    let hit (i : Issued) : Bool := i.sub == sub && decide (a ≤ i.t + alertWindow c) && decide (i.t ≤ a)
    let w := s.w.setChan chan { c with alert := mdel c.alert sub, issued := c.issued.filter (fun i => !hit i) }
    exec (.dramAlertCleared chan sub x) s = .next { s with w := (c.issued.filter hit).foldl (undoCommand s.env chan) w }) ∧
  (∀ (e : Env) (chan : Nat) (w : Work) (i : Issued),
    let x := w.chan chan
    (i.kind = 0 → undoCommand e chan w i = if i.again then raiseUe e w i.line
      else w.setChan chan { x with reads := { line := i.line, t := i.t, again := true, acct := i.acct } :: x.reads }) ∧
    (i.kind = 1 → undoCommand e chan w i = repairWrite e w i.line) ∧
    (i.kind = 2 → undoCommand e chan w i =
      w.setChan chan (x.setRank i.sub i.rank { x.rank i.sub i.rank with owed := (x.rank i.sub i.rank).owed + 256 })) ∧
    (i.kind = 3 → undoCommand e chan w i = w.emit (.dram chan i.sub busRfm i.rank i.bank)) ∧
    (i.kind = 4 → undoCommand e chan w i = w.setChan chan { x with rows := mdel x.rows (bankKey i.sub i.rank i.bank) })) ∧
  (∀ (chan : Nat) (d : Drain) (s : State), poolRuns s.env = true → (s.w.chan chan).out = some d →
    exec (.channelOut chan) s = .next { s with
      w := raise s.env
        (s.w.setChan chan { s.w.chan chan with out := none, reads := [], writes := [], drain := false, issued := [] })
        { ty := 0x100C, sev := 1, unit := dramUnit chan 0 0 0, detail2 := d.cause } })

/-- Training, rebuild, row repair, SCHED and bank masks

A module that matches a row of Table 14-1 and 14-2, and whose groups' sweeps find their runs, passes training: its record is kept with
the centres the sweeps settle, and READY, or ONLINE in a cold bring-up, waits for the boundary; another module, sweeps that find none, or
a failed step put their code and DRAM_TRAIN_FAIL, and OUT with cause 4 follows (R534, R553-R556). A rebuild step without lines of
another device, while its channel's background allotment is open and no repair holds a bank of it, draws on the allotment, rebuilds the next 64
lines and advances the watermark (04 R125, R127). A go of sPPR or hPPR is checked: one that fails takes the code of Table 14-13, and one that
passes is BUSY; it ends DONE, or FAILED with a record where the module does not confirm it, and an sPPR leaves the lines it lost as the
poison pattern (R567, R568). SCHED and the bank masks take effect at the next boundary, and a mask bit is cleared only while the channel
is OUT (R544, 15 R601). -/
def Obligations.TrainingRebuildAndRepair : Prop :=
  (∀ (chan : Nat) (m : Module) (groups : List (Nat × Sweeps)) (s : State), poolRuns s.env = true → trainingOpen s.w chan = true →
    (supported m = false → exec (.trainingPassed chan m groups) s = .next { s with w := failTraining s.env s.w chan 2 0 0 0 }) ∧
    (∀ k code, supported m = true → sweepFault m groups = some (k, code) →
      exec (.trainingPassed chan m groups) s = .next { s with w := failTraining s.env s.w chan code (k % 10) (k / 10 % 2) (k / 20) }) ∧
    (supported m = true → sweepFault m groups = none →
      ∃ t, exec (.trainingPassed chan m groups) s = .next t ∧ t.env = s.env ∧ t.pending = s.pending ∧ t.w.pool = s.w.pool ∧
        (t.w.chan chan).mod = some m ∧
        (t.w.chan chan).groups = (groupKeys m).foldl (fun g k => mset g k (trainedGroup (sweepsOf groups k))) [] ∧
        t.w.reg (aChannelTrainStatus chan) % 2 ^ 16 = 0 ∧
        t.w.due = s.w.due ++ [.chanTo chan (if (s.w.chan chan).cold then chOnline else chReady)])) ∧
  (∀ (chan code group sub rank : Nat) (s : State), poolRuns s.env = true → trainingOpen s.w chan = true →
    exec (.trainFailed chan code group sub rank) s = .next { s with
      w := if code = 0 then s.w else failTraining s.env s.w chan code group sub rank }) ∧
  (∀ (chan k : Nat) (o : OpSlot) (s : State), poolRuns s.env = true → rebuildSlot s.w chan = some (k, o) →
    chanState s.w chan = chRebuilding → o.mark < rebuildEnd s.w chan → o.st = 1 → o.next ≠ some o.mark →
    bgOpen s.w (bgPart s.w (chan / 10)) = true → (unitLines s.w chan o.mark).any (repairHolds s.w chan) = false →
    (∀ l, l ∈ unitLines s.w chan o.mark → remoteSource s.env s.w o l = none) →
    let lines := unitLines s.w chan o.mark
    let w := bgDraw s.w (bgPart s.w (chan / 10)) (lines.foldl (fun n l => n + rebuildBytes s.env s.w o l) 0)
    exec (.rebuildStep chan) s = .next { s with w := advanceMark (lines.foldl (rebuildLine s.env o) w) k chan o }) ∧
  (∀ (chan : Nat) (v : Word) (resource confirmed : Bool) (bad : List Nat) (s : State), poolRuns s.env = true →
    let u (hard : Nat) := putBits v.toNat 28 28 hard
    let w (hard : Nat) := s.w.setReg (aChannelPprCtl chan) (2 ^ 20 * bitsOf (u hard) 28 20 + bitsOf (u hard) 16 0)
    let code (hard : Nat) := pprCheck (w hard) chan (u hard) (pprHard (u hard)) resource
    let answer (hard : Nat) := (w hard).setFld (aChannelPprStatus chan) 15 0 (code hard)
    let busy (hard : Nat) (bad : List Nat) := ((answer hard).setFld (aChannelPprStatus chan) 18 16 1).setChan chan
      { (answer hard).chan chan with ppr := some ⟨u hard, confirmed, bad⟩ }
    exec (.pprSppr chan v resource confirmed bad) s = .next { s with w := if code 0 = 0 then busy 0 bad else answer 0 } ∧
    exec (.pprHppr chan v resource confirmed) s = .next { s with w := if code 1 = 0 then busy 1 [] else answer 1 } ∧
    (chanState (w 1) chan ≠ chOut → code 1 = 0x020E)) ∧
  (∀ (e : Env) (w : Work) (chan : Nat) (p : Repair), (w.chan chan).ppr = some p →
    let x := (repairRow (w.setChan chan { w.chan chan with ppr := none }) chan p).emit
      (.dram chan (bitsOf p.v 25 25) (if pprHard p.v then 9 else 8) (pprRank p.v) (bitsOf p.v 24 20))
    repairDone e w chan = (if p.confirmed then x.setFld (aChannelPprStatus chan) 18 16 2
      else raise e (x.setFld (aChannelPprStatus chan) 18 16 3)
        { ty := 0x100A, sev := 1, unit := dramUnit chan (pprRank p.v) (bitsOf p.v 25 25) 0 })) ∧
  (∀ (w : Work) (chan l : Nat) (p : Repair), pprHard p.v = false → l ∈ rowLines w chan p.v → l ∈ p.bad ∨ l ∈ w.pool.bad →
    rawRead (repairRow w chan p) none l = some ⟨0, true⟩) ∧
  (∀ (chan : Nat) (v : Word) (s : State), poolRuns s.env = true →
    exec (.channelSchedWrite chan v) s = .next { s with
      w := (s.w.setReg (aChannelSched chan) (bitsOf v.toNat 23 0)).queue (.sched chan) }) ∧
  (∀ (chan k : Nat) (v : Word) (s : State), poolRuns s.env = true →
    exec (.bankMaskWrite chan k v) s = .next { s with
      w := (s.w.setReg (aChannelBankMask chan k)
        (if chanState s.w chan = chOut then v.toNat else s.w.reg (aChannelBankMask chan k) ||| v.toNat)).queue (.bankMask chan k) })

/-- A zeroing command answers a code of Table 17-6, and only 0x0000 starts the zeroing

A write of SPARGE.ZERO_CTL with go, for the parcel in SPARGE.ZERO_PARCEL, puts the rate in the register and one code of
Table 17-6 in SPARGE.STATUS.reason; with code 0x0000, and no other, the zeroing of that parcel waits for the boundary. Without go only
the rate is written. A parcel that is not SCRUBBING answers 0x0112. Nothing else changes. -/
def Obligations.ZeroingIsChecked : Prop :=
  ∀ (v : Word) (s : State), poolRuns s.env = true →
    let w := s.w.setReg aSpargeZeroCtl (bitsOf v.toNat 15 0)
    let p := w.fld aSpargeZeroParcel 15 0
    let code := zeroCheck s.env w p (bitsOf v.toNat 15 0)
    let w' := w.setFld aSpargeStatus 15 0 code
    exec (.spargeZero v) s = .next { s with w := if code = 0 then w'.queue (.zero p) else w' } ∧
    code ∈ [0, 0x0112, 0x0113, 0x0114] ∧
    (eState (cadEntry w p) ≠ stScrubbing → code = 0x0112) ∧
    exec (.spargeRateWrite v) s = .next { s with w := w }

/-- The zeroing engine writes lines in order, ends with the zeroed mark, and the patrol passes over the channels

A step writes the next lines of the parcel and shows the plots done (R649); with nothing left of its plan's background allotment it
waits (16 R613). Once every line is written and no write of the engine is
under way, the status is DONE, the parcel has its zeroed mark and no zeroing runs (R650). The patrol does nothing while it is
disabled or a tract's background allotment is used up; else it reads the next line of every channel and checks the stripes, and at the
end of a pass counts the pass (R652, 04 R111). -/
def Obligations.ZeroingAndPatrolAdvance : Prop :=
  (∀ (lines p done : Nat) (s : State), poolRuns s.env = true → s.w.pool.zero = some (p, done) →
    let n := min lines (parcelLines s.w p - done)
    let w := (List.range n).foldl (fun w i => zeroOffset s.env w p (64 * (done + i))) (bgDraw s.w (parcelPart s.w p) (64 * n))
    (bgOpen s.w (parcelPart s.w p) = false → exec (.spargeZeroStep lines) s = .next s) ∧
    (bgOpen s.w (parcelPart s.w p) = true → exec (.spargeZeroStep lines) s = .next { s with
      w := { w with pool := { w.pool with zero := some (p, done + n) } }.setReg aSpargeZeroMark ((done + n) / 32768) })) ∧
  (∀ (p done : Nat) (s : State), poolRuns s.env = true → s.w.pool.zero = some (p, done) →
    (done < parcelLines s.w p → exec .zeroingDone s = .next s) ∧
    (parcelLines s.w p ≤ done → (allReqs s.w).any (fun r => r.agent == 0x7E && r.parcel == p) = false →
      ∃ t, exec .zeroingDone s = .next t ∧ t.env = s.env ∧ t.pending = s.pending ∧ t.w.fld aSpargeStatus 18 16 = 2 ∧
        t.w.pool = { s.w.pool with zero := none, zeroed := sadd s.w.pool.zeroed p } ∧
        (∀ a, a ≠ aSpargeStatus → t.w.reg a = s.w.reg a))) ∧
  (∀ (errs : List (Nat × Image)) (s : State), poolRuns s.env = true →
    (s.w.fld aSpargePatrol 31 31 = 0 ∨ patrolOpen s.w = false → exec (.patrolRead errs) s = .next s) ∧
    (s.w.fld aSpargePatrol 31 31 ≠ 0 → patrolOpen s.w = true →
      let x := s.w.pool.patrol
      let w := (List.range 8).foldl (patrolStripe s.env x) ((List.range 80).foldl (patrolLine s.env errs x) s.w)
      exec (.patrolRead errs) s = .next { s with
        w := if x + 1 < patrolEnd w then { w with pool := { w.pool with patrol := x + 1 } } else patrolPass s.env w }))

/-- A page moves by steps, or its move is abandoned

A go of the page-move unit starts a move unless one runs or the move is refused, which STATUS tells (R97). From the frame after until
three quarters of the second one the page is recalled, and once no line of it is held or in progress it is copied; later nothing is. At the third boundary a
move that was copied ends DONE and one that was not ends ABORTED (R98); the requests that it held are served again under the
entry that stands. -/
def Obligations.PagesMove : Prop :=
  (∀ (v : Word) (s : State), poolRuns s.env = true → s.w.pool.move = none →
    let w := s.w.setReg aSheetMoveCtl (2 ^ 28 * bitsOf v.toNat 28 28 + bitsOf v.toNat 8 0)
    let p := w.fld aSheetMoveParcel 15 0
    let i := w.fld aSheetMovePlot 25 0
    (moveRefused s.env w p i = true → exec (.pageMove v) s = .next { s with w := w.setReg aSheetMoveStatus 4 }) ∧
    (moveRefused s.env w p i = false → exec (.pageMove v) s = .next { s with
      w := { w with pool := { w.pool with move := some {
        parcel := p, plot := i, page := bitsOf v.toNat 8 0, copy := bitsOf v.toNat 28 28, tdev := (moveTarget w).1
        tpage := (moveTarget w).2, frame := s.env.clk.frame } } }.setReg aSheetMoveStatus 1 })) ∧
  (∀ (m : PageMove) (q : Nat) (s : State), poolRuns s.env = true → s.w.pool.move = some m → m.copied = false →
    m.frame + 1 ≤ s.env.clk.frame → moveEntry s.env s.w m = some q →
    let home := if sPriDev q = s.env.board then pageLines (qPriPage q) else []
    let w := recallPage s.env s.w m home
    (moveInTime s.env s.w m = false → exec .pageMoveCopy s = .next s) ∧
    (moveInTime s.env s.w m = true → exec .pageMoveCopy s = .next { s with
      w := if home.any (fun l => (findTxn w l).isSome || heldLine w (w.pool.move.getD m) l) then w else copyPage s.env w m q })) ∧
  (∀ (e : Env) (w : Work) (m : PageMove), moveInTime e w m = true →
    e.clk.frame < m.frame + 2 ∨ (e.clk.frame = m.frame + 2 ∧ e.clk.now ≤ e.clk.start + 3 * e.period / 4)) ∧
  (∀ (m : PageMove) (s : State), poolRuns s.env = true → s.w.pool.move = some m → m.frame + 3 ≤ s.env.clk.frame →
    (m.copied = true → exec .pageMoveDone s = .next { s with w := endMove s.env s.w 2 } ∧ exec .pageMoveAbort s = .next s) ∧
    (m.copied = false → exec .pageMoveAbort s = .next { s with w := endMove s.env s.w 3 } ∧ exec .pageMoveDone s = .next s)) ∧
  (∀ (e : Env) (w : Work) (st : Nat), w.home.held = [] →
    endMove e w st = { w with pool := { w.pool with move := none }, home := { w.home with held := [] } }.setReg aSheetMoveStatus st)

/-- The address map and the Gazetteer slices are enabled once, after their checks

A write of MEMMAP.CTL with enable to a map that is not enabled puts the code of Table 3-2 in MEMMAP.STATUS, and with code 0x0000 the
masks are kept and the map is enabled (R68). A write of GAZ[d].CTL to a disabled slice writes its fields; with enable it puts the
code of Table 5-4 in GAZ[d].STATUS and, with code 0x0000, initialises a header whose k field is zero, shows the lost sets, and enables
the slice (05 R183, R184). Once enabled, neither register is written. -/
def Obligations.MapAndGazetteerAreEnabled : Prop :=
  (∀ (v : Word) (s : State), poolRuns s.env = true → bitAt v.toNat 31 = true → s.w.fld aMemmapCtl 31 31 = 0 →
    exec (.memmapEnable v) s = .next { s with
      w := if memmapCheck s.w = 0 then
          { s.w.setReg aMemmapStatus 0 with pool := { s.w.pool with maskRec := some (allMasks (s.w.setReg aMemmapStatus 0)) } }.setReg
            aMemmapCtl (2 ^ 31)
        else s.w.setReg aMemmapStatus (memmapCheck s.w) }) ∧
  (∀ (v : Word) (s : State), s.w.fld aMemmapCtl 31 31 = 1 → exec (.memmapEnable v) s = .next s) ∧
  (∀ (d : Nat) (v : Word) (s : State), poolRuns s.env = true → bitAt v.toNat 31 = true → gazOn s.w d = false →
    let w := s.w.setReg (aGazCtl d) (bitsOf v.toNat 20 0)
    let code := gazCheck s.env w d
    let w' := w.setFld (aGazStatus d) 15 0 code
    exec (.gazEnable d v) s = .next { s with
      w := if code = 0 then (showLost (headerNew s.env w' d) d).setFld (aGazCtl d) 31 31 1 else w' }) ∧
  (∀ (e : Env) (w : Work) (d : Nat), headerRead e w (storeParcel w d) (gazK w d) % 32 ≠ 0 → headerNew e w d = w) ∧
  (∀ (d : Nat) (v : Word) (s : State), gazOn s.w d = true → exec (.gazEnable d v) s = .next s)

/-- ESTABLISH and RESILVER answer a code of Table 4-9, and their copies advance

A write of PROTECT.OP_CTL of kind ESTABLISH or RESILVER writes its fields; on go one code of Table 4-9 goes to PROTECT.STATUS.reason,
and only 0x0000 queues the operation for the boundary; without go only the fields are written. A running establishment copies
the dirty plots below its watermark first and then the chunk at the watermark, which advances, and reads DONE when it covers the
parcel (R141, R144, R145). A resilver copies each plot whose bit is set and is DONE when none is left (R136). Each draws what it copies
from the background allotment (R127), and a range with a write that has not reached both copies waits for it (R137). -/
def Obligations.TwinOperationsStartAndCopy : Prop :=
  (∀ (kind : Nat) (c : Instr) (v : Word) (s : State), poolRuns s.env = true → (kind, c) ∈ [(1, .establish v), (2, .resilver v)] →
    let parcel := bitsOf v.toNat 15 0
    let peer := bitsOf v.toNat 17 16
    let w := s.w.setReg aProtectOpCtl (2 ^ 29 * kind + 2 ^ 16 * peer + parcel)
    let code := opCheck s.env w kind parcel peer
    let w' := w.setFld aProtectStatus 15 0 code
    (bitAt v.toNat 31 = true →
      exec c s = .next { s with w := if code = 0 then w'.queue (.opStart kind parcel peer) else w' } ∧
      code ∈ [0, 0x010C, 0x010D, 0x010E, 0x010F]) ∧
    (bitAt v.toNat 31 = false → exec c s = .next { s with w := w })) ∧
  (∀ (slot i : Nat) (o : OpSlot) (s : State), poolRuns s.env = true → runningSlot s.w slot 2 = some o →
    nextDirty s.env s.w o.parcel ((o.mark + 31) / 32) = some i →
    exec (.establishChunk slot) s = .next { s with
      w := if rangeOpen s.w o (2 ^ 21 * i) (2 ^ 21) then s.w
        else copyPlot s.env (bgDraw s.w (parcelPart s.w o.parcel) (2 * min (2 ^ 21) (65536 * o.mark - 2 ^ 21 * i))) o i (65536 * o.mark) }) ∧
  (∀ (slot : Nat) (o : OpSlot) (s : State), poolRuns s.env = true → runningSlot s.w slot 2 = some o →
    nextDirty s.env s.w o.parcel ((o.mark + 31) / 32) = none →
    let w := copyRange s.env o (bgDraw s.w (parcelPart s.w o.parcel) (2 * 65536)) (65536 * o.mark) 1024
    exec (.establishChunk slot) s = .next { s with
      w := if rangeOpen s.w o (65536 * o.mark) 65536 then s.w
        else setSlot w slot { o with mark := o.mark + 1, st := if chunksOf w o.parcel ≤ o.mark + 1 then 3 else o.st } }) ∧
  (∀ (slot : Nat) (o : OpSlot) (s : State), poolRuns s.env = true → runningSlot s.w slot 3 = some o →
    exec (.resilverPlot slot) s = .next { s with
      w := match nextDirty s.env s.w o.parcel (eSize (cadEntry s.w o.parcel)) with
        | some i =>
          if rangeOpen s.w o (2 ^ 21 * i) (2 ^ 21) then s.w
          else setSlot (copyPlot s.env (bgDraw s.w (parcelPart s.w o.parcel) (2 ^ 22)) o i (2 ^ 21 * (i + 1))) slot
            { o with mark := max o.mark (32 * (i + 1)) }
        | none => setSlot s.w slot { o with mark := chunksOf s.w o.parcel, st := 3 } })

/-- A Daoth link is enabled, trains, identifies its peer and becomes ACTIVE

An enable of a disabled link writes the test bit, puts a code in STATUS and with code 0 starts training or takes back a disable that
waits (R498, 19 R735); a disable waits for the boundary. TEST is set and cleared by its bit alone (R533). Lanes trained
in full take the link to INIT; too few lanes, or too low a rate, hold it with 0x0505. An IDENT that fails a check holds
the link with its code, one that passes is noted (R501, R526, R530). PROBE is answered with ECHO, and ECHO gives the link's delay
(R532). CREDIT_INIT, with INIT complete, makes the link ACTIVE with all counts at zero (R512). A DATUM message without a
link in INIT is one between firmwares (17 R624). With one the session is opened: the responder answers the first message once the
membership record holds the peer's identity, and each end derives the link's direction keys from the exchange once the other's
signature is right; a failed check holds the links with 0x0503 (17 R644-R646). -/
def Obligations.LinksAreSetUp : Prop :=
  (∀ (n : Nat) (v : Word) (s : State), poolRuns s.env = true →
    let a := aDaothPortCtl n
    let w := s.w.setFld a 30 30 (bitsOf v.toNat 30 30)
    let code := daothCheck s.env w n
    let w' := setLinkReason w n code
    (w.fld a 31 31 = 0 → (s.w.link n).off = false → exec (.daothEnable n v) s = .next { s with
      w := if code = 0 then startTraining s.env (w'.setFld a 31 31 1) n else w' }) ∧
    (w.fld a 31 31 = 0 → exec (.daothDisable n v) s = .next { s with w := w }) ∧
    (w.fld a 31 31 = 1 → exec (.daothEnable n v) s = .next { s with w := w } ∧
      exec (.daothDisable n v) s = .next { s with w := (w.setFld a 31 31 0).setLink n { s.w.link n with off := true } })) ∧
  (∀ (n : Nat) (s : State), poolRuns s.env = true → s.w.fld (aDaothPortCtl n) 31 31 = 1 →
    exec (.daothTestSet n) s = .next { s with w := s.w.setFld (aDaothPortCtl n) 30 30 1 } ∧
    exec (.daothTestClear n) s = .next { s with w := s.w.setFld (aDaothPortCtl n) 30 30 0 }) ∧
  (∀ (n width rate : Nat) (s : State), poolRuns s.env = true → linkState s.w n = lkTraining →
    (width < 8 ∨ rate < 64 → exec (.linkTrained n width rate) s = .next { s with w := holdLink s.w n 0x0505 }) ∧
    (16 ≤ width → 64 ≤ rate → exec (.linkTrained n width rate) s = .next { s with
      w := enterInit s.env (s.w.setFld (aDaothPortStatus n) 21 21 0) n })) ∧
  (∀ (n : Nat) (f : FlitHdr) (x : IdentInfo) (s : State), mainRuns s.env = true → linkState s.w n = lkInit → f.crcOk = true →
    let w := takeHeader s.w n f
    let d := peerDev s.env n
    let code := identCheck s.env w n x
    f.seq = (w.link n).expect →
    (code ≠ 0 → code ≠ 0x0507 → exec (.ident n f x) s = .next { s with w := holdLink w n code }) ∧
    (code = 0 → (w.pair d).run = some x.runId → exec (.ident n f x) s = .next { s with
      w := (setLinkState (w.setLink n { w.link n with identOk := true }) n lkInit).setPair d
        { w.pair d with run := some x.runId } })) ∧
  (∀ (n trip turn : Nat) (f : FlitHdr) (s : State), poolRuns s.env = true → linkState s.w n = lkInit → f.crcOk = true →
    let w := takeHeader s.w n f
    let l := w.link n
    let d := peerDev s.env n
    f.seq = l.expect →
    exec (.probe n f turn) s = .next { s with w := sendFlit w n fkCtrl l.next turn 0x03 } ∧
    (l.trip = none → l.echoes < 15 → exec (.echo n f trip turn) s = .next { s with
      w := (w.setLink n { l with echoes := l.echoes + 1, trip := some (trip - turn) }).setFld (aDaothPortDelay n) 15 0
        ((trip - turn) / 2) }) ∧
    (initDone l = true → isLost s.w d = false → isAbsent s.w d = false →
      let w := sendPlain w n fkCtrl 0x04
      let z := [0, 0, 0, 0]
      let w := w.setLink n
        { w.link n with cons := z, freedIn := z, freed := z, occ := z, unreported := 0, flits := 0, got := 0, since := s.env.clk.frame }
      exec (.creditInit n f) s = .next { s with
        w := settleSlots (claimAgain s.env (setLinkReason (setLinkState w n lkActive) n 0) d) })) ∧
  (∀ (h : Hdr) (step hash key sig : Nat) (ok : Bool) (s : State), mainRuns s.env = true → h.dev ≠ s.env.board →
    agentKnown h.src = true → agentKnown h.dst = true →
    let d := h.dev
    let p := s.w.pair d
    let ns := (portsTo s.env d).filter (fun n => linkState s.w n == lkInit)
    let say (e : Env) (w : Work) (k : Nat) (q : Pair) (args : List Nat) : Work :=
      (carryDatum e (w.setPair d q) .request d 0x7F).emit (.peer { op := 0x55, dev := d, args := k :: args })
    let open_ (e : Env) (w : Work) (peerKey : Nat) (tr : List Nat) : Work :=
      ns.foldl (fun w n => w.setLink n (openSession e d (sessionSecret p.eph peerKey tr) (w.link n))) w
    (ns = [] → exec (.datum h step ok ⟨hash, key, sig⟩) s = .next { s with w := s.w.setPair d { p with datum := p.datum + 1 } }) ∧
    (ns ≠ [] → d < s.env.board → memberOk s.env d hash = none →
      exec (.datum h 1 ok ⟨hash, key, sig⟩) s = .next { s with w := ns.foldl (fun w n => holdLink w n 0x0503) s.w }) ∧
    (ns ≠ [] → d < s.env.board → ∀ e, memberOk s.env d hash = some e →
      let x := s.w.free.1
      let tr := [key, hash, Config.publicKey x, Config.identity]
      exec (.datum h 1 ok ⟨hash, key, sig⟩) s = .next { s with
        env := e
        w := say e s.w.free.2 2 { p with step := 2, eph := x, transcript := tr ++ [Config.signature tr] }
          [Config.publicKey x, Config.identity, Config.signature tr] }) ∧
    (ns ≠ [] → s.env.board < d → p.step = 1 → ∀ e, memberOk s.env d hash = some e →
      let tr := p.transcript ++ [key, hash, sig]
      let own := Config.signature tr
      exec (.datum h 2 true ⟨hash, key, sig⟩) s = .next { s with
        env := e
        w := open_ e (say e s.w 3 { p with step := 3, transcript := tr ++ [own] } [own]) key (tr ++ [own]) }) ∧
    (ns ≠ [] → d < s.env.board → p.step = 2 →
      exec (.datum h 3 true ⟨hash, key, sig⟩) s = .next { s with
        w := open_ s.env (s.w.setPair d { p with step := 3, transcript := p.transcript ++ [sig] }) ((p.transcript ++ [sig]).headD 0)
          (p.transcript ++ [sig]) } ∧
      exec (.datum h 3 false ⟨hash, key, sig⟩) s = .next { s with w := ns.foldl (fun w n => holdLink w n 0x0503) s.w })) ∧
  (∀ (e : Env) (d : Nat) (s : BitVec 512) (l : Link), openSession e d s l =
    { l with session := true, outKey := some (dirKey s e.board d), inKey := some (dirKey s d e.board) })

/-- What a link does with the flits that arrive

A flit whose CRC fails is dropped, counted, and a replay is asked for (R503, R520). From another the header's ack, credits and
xoff bits are taken (R515, R517, R520); IDLE and test patterns do no more. A PAYLOAD flit with the number expected is accepted, a
duplicate is dropped, one too far ahead asks for a replay (R520); a complete group whose tag is right releases its messages
(R510). A replay request sends again what is held (R520). A timing flit gives the frame, the period and the boundary at its
source (R531, R532). -/
def Obligations.FlitsAreTaken : Prop :=
  (∀ (n : Nat) (f : FlitHdr) (msgs : List MsgHead) (s : State), poolRuns s.env = true → linkLive s.w n = true →
    (f.crcOk = false →
      let t := { s with w := askReplay (s.w.inc (aDaothPortCrcErr n) 1) n }
      exec (.idle n f) s = .next t ∧ exec (.testPattern n f) s = .next t ∧ exec (.payloadFlit n f msgs) s = .next t ∧
      exec (.replayReq n f) s = .next t) ∧
    (f.crcOk = true →
      let w := takeHeader s.w n f
      (f.seq = (w.link n).expect → exec (.idle n f) s = .next { s with w := w } ∧
        exec (.testPattern n f) s = .next { s with w := w }) ∧
      (let d := (4096 + (w.link n).expect - f.seq) % 4096
       exec (.payloadFlit n f msgs) s = .next { s with
         w := if d = 0 then acceptFlit s.env w n msgs else if d ≤ 2048 then w else askReplay w n }) ∧
      ((w.link n).held = [] → f.seq = (w.link n).next → f.seq < 4096 → exec (.replayReq n f) s = .next { s with w := w }) ∧
      (∀ x rest, (w.link n).held = x :: rest → f.seq = x.seq → f.seq < 4096 →
        exec (.replayReq n f) s = .next { s with w := resendOrDown s.env w n }))) ∧
  (∀ (n : Nat) (s : State), poolRuns s.env = true → (linkState s.w n = lkActive ∨ linkState s.w n = lkTest) →
    (s.w.link n).inGroup ≠ 0 → (s.w.link n).expect % 4 = 0 →
    let l := s.w.link n
    let w := s.w.setLink n { l with group := [], inGroup := 0 }
    exec (.payloadMessage n true) s = .next { s with
      w := l.group.foldl (fun w m => releaseMsg s.env w n m)
        (w.setLink n { l with group := [], inGroup := 0, verified := (4095 + l.expect) % 4096 }) } ∧
    exec (.payloadMessage n false) s = .next { s with
      w := linkDown s.env (linkRecord s.env (l.group.foldl (fun w m => freeSlots w n m) w) n 0x7008 1) n true }) ∧
  (∀ (n frame code src offset arrival : Nat) (f : FlitHdr) (s : State), mainRuns s.env = true → linkState s.w n = lkActive →
    f.crcOk = true →
    let w := takeHeader s.w n f
    let r := timingFlit s.env w frame code src (arrival - 250 * (w.fld (aDaothPortDelay n) 15 0 + offset))
    f.seq = (w.link n).expect → exec (.timing n f frame code src offset arrival) s = .next { s with env := r.1, w := r.2 })

/-- What a link sends

A message that the link carries, that flow control lets start and whose partition owns the slot (11 R460) takes the pair's next number and goes in a new PAYLOAD
flit, which the replay buffer keeps (R507, R513, R524). A partial group is completed with PAD (R509). Acks and freed
credits go in IDLE flits at their thresholds (R516, R517), xoff changes at half full and at a quarter (R518), and an idle link
sends IDLE (R522). What is held is sent again at a timeout; an unanswered replay request is repeated (R520). -/
def Obligations.LinksSend : Prop :=
  (∀ (n : Nat) (m : MsgHead) (s : State), poolRuns s.env = true → m.srcDev = s.env.board → m.dstDev = peerDev s.env n →
    carries s.w n m = true → canStart s.w n m = true → slotOpen s.env s.w m = true → (s.w.pair m.dstDev).frozen = [] →
    let x := numbered (s.w.pair m.dstDev) m
    exec (.messageSend n m) s = .next { s with w := sendMsg (s.w.setPair m.dstDev x.2) n x.1 }) ∧
  (∀ (n : Nat) (s : State), poolRuns s.env = true → (linkState s.w n = lkActive ∨ linkState s.w n = lkTest) →
    ((s.w.link n).next % 4 = 0 → exec (.groupPad n) s = .next s) ∧
    ((s.w.link n).next % 4 = 3 → (s.w.link n).held.length < 512 →
      let l := s.w.link n
      let w := s.w.setLink n (holdFlit l [])
      exec (.groupPad n) s = .next { s with w := sendFlit w n fkPayload l.next l.ackOut 0 })) ∧
  (∀ (n ns : Nat) (s : State), poolRuns s.env = true → linkLive s.w n = true →
    let l := s.w.link n
    exec (.keepalive n) s = .next { s with w := sendPlain s.w n fkIdle 0 } ∧
    (l.ackOut ≠ l.verified → (16 ≤ l.unadv ∨ 64 ≤ ns ∧ l.unadv ≠ 0) →
      exec (.ackAdvance n ns) s = .next { s with
        w := sendPlain (s.w.setLink n { l with ackOut := l.verified, unadv := (4095 + l.expect - l.verified) % 4096 }) n fkIdle 0 }) ∧
    (l.held ≠ [] → exec (.replayTimeout n) s = .next { s with w := resendOrDown s.env s.w n }) ∧
    (l.asking = 1 ∨ l.asking = 2 → exec (.replayReqRepeat n) s = .next { s with
      w := sendFlit (s.w.setLink n { l with asking := l.asking + 1 }) n fkReplay l.expect l.ackOut 0 })) ∧
  (∀ (n ns : Nat) (s : State), poolRuns s.env = true → linkState s.w n = lkActive →
    (32 ≤ (s.w.link n).unreported ∨ 64 ≤ ns ∧ (s.w.link n).unreported ≠ 0) →
    exec (.creditReturnIdle n ns) s = .next { s with w := sendPlain (s.w.setLink n { s.w.link n with unreported := 0 }) n fkIdle 0 }) ∧
  (∀ (n : Nat) (c : Cls) (s : State), poolRuns s.env = true → linkState s.w n = lkInit →
    let l := s.w.link n
    (bitAt l.xoffOut (clsIx c) = false → 256 ≤ l.occ.getD (clsIx c) 0 → exec (.xoffChange n c) s = .next { s with
      w := sendPlain (s.w.setLink n { l with xoffOut := setBitAt l.xoffOut (clsIx c) true }) n fkIdle 0 }) ∧
    (bitAt l.xoffOut (clsIx c) = true → l.occ.getD (clsIx c) 0 ≤ 128 → exec (.xoffChange n c) s = .next { s with
      w := sendPlain (s.w.setLink n { l with xoffOut := setBitAt l.xoffOut (clsIx c) false }) n fkIdle 0 }))

/-- Links go down and come back, devices are lost, Vorir lanes fail

Without flits, without phy lock, or on LINK_FAIL from the peer, a live link is declared down; one that is not live is left alone (R522,
R523). Traffic moves back to a returned link once nothing of it is left on its sibling (R525). A device that was absent for
lost_ms, LOST and DEPART make a device lost here (R527, R528); LOST of this device, and isolation, start a reset of it (R529). A
device that is lost already is not declared again. A CRC error of a Vorir lane counts and replays, and a lane at or past the
limit is marked for the boundary (01 R22-R24, 15 R582). -/
def Obligations.LinksFailAndReturn : Prop :=
  (∀ (n dev : Nat) (s : State), poolRuns s.env = true →
    exec (.noFlitTimeout n) s = .next { s with w := linkDown s.env s.w n true } ∧
    exec (.phyLockLoss n) s = .next { s with w := linkDown s.env s.w n true } ∧
    (peerDev s.env n = dev → linkState s.w (sibling n) = lkActive →
      exec (.linkFail dev n) s = .next { s with w := linkDown s.env s.w n false }) ∧
    (linkLive s.w n = false → exec (.noFlitTimeout n) s = .next s)) ∧
  (∀ (e : Env) (w : Work) (n : Nat), linkState w n = lkInit →
    let w' := setLinkState (linkRecord e w n 0x7009 1) n lkDown
    linkDown e w n false = w'.setLink n { freshLink (w'.link n) with away := (w'.link n).away }) ∧
  (∀ (n : Nat) (s : State), poolRuns s.env = true → (s.w.link n).away = true → linkState s.w n = lkActive →
    (s.w.link n).since < s.env.clk.frame →
    (unacked (s.w.link (sibling n))).all (fun m => everyLink m || boundPort n m != n) = true →
    exec (.linkFailback n) s = .next { s with w := s.w.setLink n { s.w.link n with away := false } }) ∧
  (∀ (dev f : Nat) (s : State), poolRuns s.env = true → s.w.home.absent.find? (fun x => x.1 == dev) = some (dev, f) →
    lostDue s.env s.w f = true → isolated s.env s.w = false →
    exec (.peerLostTimeout dev) s = .next { s with w := declareLost s.env s.w dev }) ∧
  (∀ (h : Hdr) (dev : Nat) (s : State), fromPeer s h [] →
    exec (.depart h) s = .next { s with w := declareLost s.env s.w h.dev } ∧
    (dev ≠ s.env.board → exec (.lost h dev) s = .next { s with w := declareLost s.env s.w dev }) ∧
    exec (.lost h s.env.board) s = .next { s with env := startEntry s.env 5 s.env.clk.now } ∧
    (isLost s.w h.dev = true → exec (.depart h) s = .next s)) ∧
  (∀ s : State, mainRuns s.env = true → isolated s.env s.w = true → s.w.home.absent.any (fun x => lostDue s.env s.w x.2) = true →
    exec .isolationReset s = .next { s with env := startEntry s.env 5 s.env.clk.now }) ∧
  (∀ (link lane : Nat) (s : State), poolRuns s.env = true → link < 9 →
    let k := 2 ^ 16 * link + lane
    let w := vorirReplay s.w link
    let errs := mmod w.vorir.errs k 0 (· + 1)
    w.vorir.replays = mmod s.w.vorir.replays link 0 (· + 1) ∧ w.vorir.errs = s.w.vorir.errs ∧
    exec (.vorirCrcError link lane) s = .next { s with
      w := { w with vorir := { w.vorir with
        errs := errs
        failing := if max 1 (w.fld aVorirLaneLimit 15 0) ≤ mgetD errs k 0 then sadd w.vorir.failing k else w.vorir.failing } } })

/-- A ring is enabled only with code 0x0000, and its TAIL moves only within the ring's entries

An enable of a disabled ring writes its fields and one code of Table 8-2 in RING[r].STATUS.reason; with 0x0000, and no other, the ring is
enabled and RUNNING with TAIL, HEAD, CQ_HEAD and the count of ignored tails at zero (R301). A disable of an enabled ring clears the
enable and stops it (R309); a disable of a disabled one writes its fields only. A write of TAIL by the owner takes t when
(t - HEAD) mod 2^32 and (t - previous TAIL) mod 2^32 do not exceed the entry count; any other value is ignored and counted in STATE
(R303). Beside the message that carries a doorbell write to the ring's die (01 R29), nothing else changes in either case. -/
def Obligations.RingWritesAreChecked : Prop :=
  (∀ (r : Nat) (v : Word) (s : State), poolRuns s.env = true →
    (s.w.fld (aRingCtl r) 31 31 = 0 → getRing s.w r = none →
      let w := s.w.setReg (aRingCtl r) (v.toNat &&& 0x0FFFFFFF)
      let code := ringCheck w r
      let w' := w.setFld (aRingStatus r) 15 0 code
      let w₁ := w'.setFld (aRingCtl r) 31 31 1
      let x : Machine.Ring := { dqGen := eGen (cadEntry w₁ (dqParcel w₁ r)), cqGen := eGen (cadEntry w₁ (cqParcel w₁ r)) }
      (exec (.ringEnable r v) s = .next { s with w := if code = 0 then setRingState (putRing w₁ r x) r 1 else w' }) ∧
      code ∈ [0, 0x0605, 0x0606, 0x0607, 0x0608] ∧
      x.tail = 0 ∧ x.head = 0 ∧ x.cqHead = 0 ∧ x.done = 0 ∧ x.ignored = 0 ∧ x.stopping = none ∧
      exec (.ringDisable r v) s = .next { s with w := w }) ∧
    (s.w.fld (aRingCtl r) 31 31 = 1 →
      exec (.ringEnable r v) s = .next s ∧
      exec (.ringDisable r v) s = .next { s with w := stopRing s.env (s.w.setFld (aRingCtl r) 31 31 0) r 0 })) ∧
  (∀ (agent r : Nat) (v : Word) (x : Machine.Ring) (s : State), poolRuns s.env = true → ldReachable s.w agent = true →
    ldOpen s.w agent = true → getRing s.w r = some x → ringState s.w r ≠ 0 → ringOwner s.w r = agent →
    let n := ringEntries s.w r
    let w := carryPlain s.w acctDev .doorbell agent (schedAgent s.w r) (dieOfPort (agent / 2)) (.tun (ringDie s.w r))
    let within := (2 ^ 32 + v.toNat - x.head % 2 ^ 32) % 2 ^ 32 ≤ n ∧ (2 ^ 32 + v.toNat - x.tail % 2 ^ 32) % 2 ^ 32 ≤ n
    (within → exec (.tail agent r v) s = .next { s with w := putRing w r { x with tail := v.toNat } }) ∧
    (¬within → exec (.tail agent r v) s = .next { s with w := putRing w r { x with ignored := satAdd 16 x.ignored 1 } }))

/-- The doorbell page: CQ_HEAD, STOP, START and RESUME; a foreign access changes nothing

The owner's CQ_HEAD is kept, STOP of a RUNNING ring stops it, START of a STOPPED one makes it RUNNING (Table 8-3, R309). RESUME makes
the ring's descriptors of the context that wait on a fault run again (09 R391), and changes nothing without one. The host's die forwards
each to the die of the ring (01 R29). A write of another agent, or to a disabled ring, is discarded (R302). -/
def Obligations.DoorbellPageWorks : Prop :=
  ∀ (agent r : Nat) (s : State), poolRuns s.env = true → ldReachable s.w agent = true → ldOpen s.w agent = true →
    (∀ (x : Machine.Ring), getRing s.w r = some x → ringOwner s.w r = agent →
      let w := carryPlain s.w acctDev .doorbell agent (schedAgent s.w r) (dieOfPort (agent / 2)) (.tun (ringDie s.w r))
      (∀ v : Word, ringState s.w r ≠ 0 →
        exec (.cqHead agent r v) s = .next { s with w := putRing w r { x with cqHead := v.toNat } }) ∧
      (ringState s.w r = 1 → x.stopping = none → exec (.stop agent r) s = .next { s with w := stopRing s.env w r 2 }) ∧
      (ringState s.w r = 2 → exec (.start agent r) s = .next { s with w := setRingState w r 1 }) ∧
      (ringState s.w r ≠ 0 → ∀ ctx,
        let ds := (ringDescs s.w r).filter (fun d => d.phase == .faulted && dCtx d.img == ctx)
        (∃ t, exec (.resume agent r ctx) s = .next t ∧ t.env = s.env ∧ t.pending = s.pending ∧ t.w.pool = s.w.pool ∧
          t.w.regs = s.w.regs) ∧
        (ds = [] → exec (.resume agent r ctx) s = .next { s with w := w }) ∧
        (∀ d, ds = [d] → ∃ t, exec (.resume agent r ctx) s = .next t ∧
          getDesc t.w d.ring d.n = some { d with phase := .running }))) ∧
    (getRing s.w r = none ∨ ringState s.w r = 0 ∨ ringOwner s.w r ≠ agent →
      (∀ v : Word, exec (.tail agent r v) s = .next s ∧ exec (.cqHead agent r v) s = .next s) ∧
      exec (.stop agent r) s = .next s ∧ exec (.start agent r) s = .next s ∧ ∀ ctx, exec (.resume agent r ctx) s = .next s)

/-- The life of a descriptor: fetch, start, limits, fence and completion record

A RUNNING ring with a new tail asks for the two lines of its next descriptor, and takes them when both have come back (R300,
R305). A descriptor that may start is refused when it is not valid (R313) or its context is not allowed (R314), ends at once with no elements, and
else runs on the Tun named; a FENCE is held until all before it are complete, and then completes (R308). A descriptor deferred, or
waiting on a fault, beyond its limit ends (R310, 09 R394). A completion record is written once its descriptor is done (R306). -/
def Obligations.DescriptorsRunTheirCourse : Prop :=
  (∀ (r : Nat) (x : Machine.Ring) (s : State), poolRuns s.env = true → getRing s.w r = some x → ringState s.w r = 1 → x.stopping = none →
    (x.head = x.tail → exec (.descriptorFetch r) s = .next s) ∧
    (x.head ≠ x.tail → x.fetching = true → exec (.descriptorFetch r) s = .next { s with w := fetchDone s.env s.w r x }) ∧
    (x.head ≠ x.tail → x.fetching = false → ∀ w₁ w₂,
      let off := dqOff s.w r + 128 * (x.head % ringEntries s.w r)
      let a := acctDesc 0 r x.head
      ringAccess s.env s.w r (dqParcel s.w r) x.dqGen off a (ringRef r x.head 0) .mashRd false = some w₁ →
      ringAccess s.env w₁ r (dqParcel s.w r) x.dqGen (off + 64) a (ringRef r x.head 1) .mashRd false = some w₂ →
      exec (.descriptorFetch r) s = .next { s with
        w := fetchDone s.env (putRing w₂ r { x with fetching := true }) r { x with fetching := true } })) ∧
  (∀ (r n u : Nat) (d : Desc) (s : State), poolRuns s.env = true → getDesc s.w r n = some d → mayStart s.w d = true →
    (knownOp (dOp d.img) = false → exec (.descriptorStart r n u) s = .next { s with w := closeDesc s.w d stInvalid 0 0 }) ∧
    (onTun (dOp d.img) = true → takesDesc s.w u (ringOwner s.w r) = true → tunDie u = ringDie s.w r →
      (descValid d.img (sizeOf s.w d) = false →
        exec (.descriptorStart r n u) s = .next { s with w := closeDesc s.w d stInvalid 0 0 }) ∧
      (descValid d.img (sizeOf s.w d) = true → ctxAllowed s.w d = false →
        exec (.descriptorStart r n u) s = .next { s with w := closeDesc s.w d stPermission 0 0 }) ∧
      (descValid d.img (sizeOf s.w d) = true → ctxAllowed s.w d = true → dOp d.img ≠ opRecipe → dOp d.img ≠ opFence →
        isSync (dOp d.img) = false →
        exec (.descriptorStart r n u) s = .next { s with
          w := if dCount d.img = 0 then closeDesc s.w d stOk 0 0
            else putDesc s.w { d with tun := some u, phase := .running, since := s.env.clk.frame } })) ∧
    (dOp d.img = opFence → descValid d.img (sizeOf s.w d) = true → ctxAllowed s.w d = true →
      exec (.descriptorStart r n u) s = .next { s with w := putDesc s.w { d with phase := .schedHeld, since := s.env.clk.frame } })) ∧
  (∀ (r n : Nat) (d : Desc) (s : State), poolRuns s.env = true → getDesc s.w r n = some d →
    (dOp d.img = opFence → d.phase = .schedHeld →
      exec (.fence r n) s = .next { s with
        w := if (earlierDescs s.w d).isEmpty = true then closeDesc s.w d stOk 0 0 else s.w }) ∧
    (d.phase = .running → onTun (dOp d.img) = true → s.w.fld (aRingLimit r) 15 0 ≠ 0 →
      exec (.deferredLimit r n) s = .next { s with
        w := if s.w.fld (aRingLimit r) 15 0 < d.deferred then endAt s.env s.w d d.issued stDeferred else s.w }) ∧
    (d.phase = .faulted → s.w.fld aXlatFaultWait 23 0 ≠ 0 →
      exec (.faultWaitExpiry r n) s = .next { s with
        w := if d.since + s.w.fld aXlatFaultWait 23 0 < s.env.clk.frame then endAt s.env s.w d (restIdx s.w d) stTranslation
          else s.w }) ∧
    exec (.completionRecordWrite r n) s = .next { s with
      w := recordStep s.env (settleDesc s.env s.w r n settleFuel) r n 4 })

/-- Sync descriptors go to their engine; windows are enabled and disabled

A sync descriptor whose object is not aligned to a line completes with PERMISSION (R334); one whose object is translated goes to the
engine that homes it: on this device, unless the object's line is busy, the operation is carried out there, and one whose object lies on
another device is sent to its engine and waits (10 R405, R421). An
enable of a window that is not enabled puts the code of Table 8-9 in WINDOW[w].STATUS and with code 0 opens its banks (R348); a disable
takes effect at the boundary (R357). -/
def Obligations.SyncDescriptorsAndWindows : Prop :=
  (∀ (ring n op : Nat) (c : Instr) (d : Desc) (s : State), poolRuns s.env = true →
    (op, c) ∈ [(opArrive, .barrierArrive ring n), (opWait, .gateWait ring n), (opSignal, .gateSignal ring n)] →
    getDesc s.w ring n = some d → dOp d.img = op → d.phase = .running →
    (dSrc d.img 0 % 64 ≠ 0 → exec c s = .next { s with w := closeDesc s.w d stPermission 0 0 }) ∧
    (dSrc d.img 0 % 64 = 0 →
      let w := tileTranslate s.env (putDesc s.w { d with phase := .running }) ring n 0
      ∀ t d', getTile w ring n 0 = some t → getDesc w ring n = some d' → t.st = .reading → d'.phase = .running →
        exec c s = .next { s with w := syncIssue s.env w d' t })) ∧
  (∀ (e : Env) (w : Work) (d : Desc) (t : Tile) (p g o : Nat) (q : Place), tilePlace t (dSrc d.img 0) = some (p, g, o) →
    eKind (cadEntry w p) = 2 → mhas w.sync.saved (dCtx d.img) = false → (locate e w (cadEntry w p) o).primary w = some q →
    let h := { d with phase := .held }
    (q.dev ≠ e.board → isLost w q.dev = false →
      let x := { w with mash := { w.mash with tag := (w.mash.tag + 1) % 2 ^ 16 } }
      let m := syncMsg e x h q p g o
      syncIssue e w d t = (carrySync e (dropTile (putDesc x { h with engine := some q.dev, sent := some m }) t) (acctOf d) d.ring q.dev
        m.src m.line false).emit (.peer m)) ∧
    (q.dev = e.board →
      let line := q.dpa / 64
      let x := carrySync e (putDesc w h) (acctOf d) d.ring e.board (schedAgent w d.ring) line d.retried
      (findTxn x line = none → reservation x line = none →
        syncIssue e w d t = (let r := syncLocal e x h ⟨p, o / 64 * 64, line⟩; syncEnd r.2 line d.ring d.n r.1)) ∧
      ((findTxn x line).isSome = true → syncIssue e w d t = syncEnd x line d.ring d.n .full))) ∧
  (∀ (k : Nat) (v : Word) (s : State), poolRuns s.env = true → mget s.w.mash.wins k = none →
    let w := s.w.setReg (aWindowCtl k) (v.toNat % 2 ^ 31 &&& 0x0FF0FFFF)
    let code := windowCheck s.env w k
    let w' := w.setFld (aWindowStatus k) 15 0 code
    exec (.windowEnable k v) s = .next { s with
      w := if code = 0 then
          openBanks s.env (putWin (w'.setFld (aWindowCtl k) 31 31 1) k { parcel := w'.fld (aWindowCtl k) 15 0 }) k
            (w'.fld (aWindowCtl k) 15 0)
        else w' } ∧
    exec (.windowDisable k v) s = .next { s with w := w }) ∧
  (∀ (k : Nat) (v : Word) (x : Win) (s : State), poolRuns s.env = true → mget s.w.mash.wins k = some x → x.off = false →
    exec (.windowEnable k v) s = .next s ∧
    exec (.windowDisable k v) s = .next { s with w := (putWin s.w k { x with off := true }).setFld (aWindowCtl k) 31 31 0 })

/-- Context commands and invalidations

A go of XLAT.CTX_CMD answers a code in XLAT.STATUS, and with 0x0000 the LOAD or DISABLE of the context waits for the boundary, in
the place of an earlier one of the same context (R360-R363); without go only the fields are written. An invalidation of a
host, of a context bound to it or of all of its contexts, is accepted when none is under way: done and refused are cleared (R377,
R378), another is refused. Its tiles are abandoned at the second boundary, and it is done once no such tile is left (Table 9-5). -/
def Obligations.ContextsAndInvalidations : Prop :=
  (∀ (v : Word) (s : State), poolRuns s.env = true →
    let op := bitsOf v.toNat 27 26
    let c := bitsOf v.toNat 11 0
    let w := s.w.setReg aXlatCtxCmd (2 ^ 26 * op + c)
    let code := ctxCheck s.env w op c
    let w' := w.setFld aXlatStatus 15 0 code
    let t := { s with
      w := if bitAt v.toNat 31 = true then
          (if code = 0 then { w' with xlat := { w'.xlat with
              cmds := w'.xlat.cmds.filter (fun x => x.1 != c) ++ [(c, op, (ctxEntry s.env w' c).getD 0)] } }
           else w')
        else w }
    exec (.contextLoad v) s = .next t ∧ exec (.contextDisable v) s = .next t ∧ (op = 0 ∨ op = 3 → code = 0x0611)) ∧
  (∀ (agent : Nat) (v : Word) (s : State), poolRuns s.env = true → ldReachable s.w agent = true → ldOpen s.w agent = true →
    bitAt v.toNat 31 = true →
    let scope := bitsOf v.toNat 25 24
    let c := bitsOf v.toNat 11 0
    let w := s.w.setHreg agent hInvalCtl (2 ^ 24 * scope + c)
    w.hfld agent hInvalStatus 0 0 = 1 →
    let t (cs : List Nat) (r : Option (Nat × Nat)) : State := { s with
      w := { w.setHfld agent hInvalStatus 1 0 0 with xlat := { w.xlat with invals := mset w.xlat.invals agent ⟨cs, r, s.env.clk.frame⟩ } } }
    (scope = 0 → ctxHost w c = some agent → exec (.invalContext agent v) s = .next (t [c] none)) ∧
    (scope = 1 → ctxHost w c = some agent → w.hreg agent hInvalPages ≠ 0 →
      exec (.invalPages agent v) s = .next (t [c] (some (w.hreg2 agent hInvalBase / 4096, w.hreg agent hInvalPages)))) ∧
    (scope = 2 → exec (.invalLdContexts agent v) s =
      .next (t ((w.xlat.ctxs.filter (fun x => xHost x.2.entry == agent)).map (·.1)) none)) ∧
    (scope = 0 → ctxHost w c ≠ some agent →
      exec (.invalContext agent v) s = .next { s with w := w.setHfld agent hInvalStatus 1 0 3 })) ∧
  (∀ (agent : Nat) (x : Inval) (s : State), poolRuns s.env = true → mget s.w.xlat.invals agent = some x →
    (x.frame + 2 ≤ s.env.clk.frame →
      exec (.invalTileAbandon agent) s = .next { s with
        w := (invalTiles s.w x).foldl (fun w t => if t.st = .sent then w else
          match getTile w t.ring t.n t.idx with
          | some t => abandonTile w t
          | none => w) s.w }) ∧
    (x.frame + 1 ≤ s.env.clk.frame → s.env.clk.frame < x.frame + 4 → invalTiles s.w x = [] →
      exec (.invalDone agent) s = .next { s with
        w := { s.w.setHfld agent hInvalStatus 0 0 1 with xlat := { s.w.xlat with invals := mdel s.w.xlat.invals agent } } }))

/-- A host's sync command reaches the engine of its object

A host's write of the command word of a line, that its port takes and its extent allows, and that resolves here in a SYNC parcel, is
served as that host's command: ARRIVE, SIGNAL, BROADCAST and DISARM by their codes (R403, R404). On an armed object with no
transaction of its line the engine performs it and the write is answered. An arrival on time that does not complete its
generation adds 1 to arrived and changes nothing else of the object (R409). -/
def Obligations.SyncCommandsReachTheirEngine : Prop :=
  (∀ (q : HostReq) (x : Extent) (p : Place) (cmd : BitVec 64) (s : State),
    let op : HomeOp := .wr .i ⟨BitVec.ofNat 512 (2 ^ 448 * cmd.toNat), false⟩ cmdMask false
    let w := taken s q op
    let r := portReq s.env w q x op
    portTakes s w q → extentOf (w.ld q.agent) q.lda = some x → hostMay w q.agent x true → resolvesAs 2 s.env w r p →
    let u := { r with line := p.dpa / 64 }
    let t := { s with w := syncHome s.env (carryReq s.env (looked s.env w r) u u.op.hasData) u }
    let code := bitsOf cmd.toNat 63 56
    (code = 0x01 → exec (.arrive q cmd) s = .next t) ∧ (code = 0x02 → exec (.signal q cmd) s = .next t) ∧
    (code = 0x03 → exec (.broadcast q cmd) s = .next t) ∧ (code = 0x0F → exec (.disarm q cmd) s = .next t)) ∧
  (∀ (e : Env) (w w' : Work) (r : Req) (m : Meta) (cmd : BitVec 64) (v : Nat), r.agent < 0x7E →
    r.op = .wr m ⟨BitVec.ofNat 512 (2 ^ 448 * cmd.toNat), false⟩ cmdMask false → findTxn w r.line = none → reserved w r = false →
    objRead e (dropWaiting w r) (objOf r) = (some v, w') → (oKind v = kBarrier ∨ oKind v = kGate) →
    let a := syncCmd e w' (objOf r) cmd.toNat (whoOf r)
    syncHome e w r = syncCmp e a.2 r a.1) ∧
  (∀ (e : Env) (w : Work) (o : Obj) (q : SyncWho), syncCmd e w o (0x0F * 2 ^ 56) q = (true, syncDisarm e w o q)) ∧
  (∀ (e : Env) (w w' : Work) (o : Obj) (q : SyncWho) (v sense : Nat), objRead e (settleExpired e w o) o = (some v, w') →
    oKind v = kBarrier → oStale v = false → oHeld v = 0 → sense = oSense v →
    oArrived (putBits v 47 32 (oArrived v + 1)) ≠ oParts (putBits v 47 32 (oArrived v + 1)) →
    syncArrive e w o q sense false 0 = (.ok 0, objWrite e w' o (putBits v 47 32 (oArrived v + 1))))

/-- Expiries, the debug write, saving and restoring waits, and the debug view

A held waiter whose expiry has come is removed, told CANCELLED and recorded (R417, R418). A debug write to an armed line is made only
while a session grants SYNC_WRITE, with its record (R402, 17 Table 17-10). A go of SYNC.CTX_CMD answers a code of Table 10-11 and
only 0x0000 starts the save or restore (R437); without go only the fields are written. A go of VIEW_CTL that fails its check writes
its code and nothing else, one that passes ends DONE (R436). -/
def Obligations.SyncMaintenance : Prop :=
  (∀ (die start value ctx : Nat) (x : Waiter) (o : Obj) (s : State), poolRuns s.env = true →
    s.w.sync.waiters.find? (fun x => expired s.env x && dieOf s.w x.line == die && x.start == start && x.value == value &&
      x.ctx == ctx) = some x → objAt s.env s.w x.line = some o →
    exec (.syncTimeout die start value ctx) s = .next { s with
      w := raise s.env (removeWaiter s.env s.w x o.parcel o.off (some stCancelled))
        { ty := 0x6005, parcel := o.parcel, ctx := some x.ctx, dev := x.dev, agent := x.agent, addr := 64 * x.line
          host := if x.dev = s.env.board then some x.agent else none } }) ∧
  (∀ (line v : Nat) (d : Line) (mask : BitVec 64) (o : Obj) (w' : Work) (s : State), poolRuns s.env = true →
    objAt s.env s.w line = some o → objRead s.env s.w o = (some v, w') → (oKind v = kBarrier ∨ oKind v = kGate) →
    exec (.syncDebugWrite line d mask) s = .next { s with
      w := if debugScope s.env 3 = true then
          raise s.env (objWrite s.env w' o (bitsOf (mergeLine (BitVec.ofNat 512 v) d mask).toNat 447 0))
            { ty := 0x6002, parcel := o.parcel, dev := s.env.board, agent := 0x7F, addr := 64 * line }
        else w' }) ∧
  (∀ (v : Word) (s : State), poolRuns s.env = true →
    let op := bitsOf v.toNat 27 26
    let c := bitsOf v.toNat 11 0
    let w := s.w.setReg aSyncCtxCmd (2 ^ 26 * op + c)
    let code := syncCmdCheck s.env w op c
    let t := { s with
      w := if bitAt v.toNat 31 = true then
          (if code = 0 then
            { w.setReg aSyncStatus 0 with sync := { w.sync with op := some ⟨c, op == 2, saveBase w, saveLen w⟩ } }
           else w.setFld aSyncStatus 15 0 code)
        else w }
    exec (.syncCtxSave v) s = .next t ∧ exec (.syncCtxRestore v) s = .next t ∧ code ∈ [0, 0x0617, 0x0618, 0x0619, 0x061A]) ∧
  (∀ (d : Nat) (v : Word) (s : State), poolRuns s.env = true →
    let n := bitsOf v.toNat 15 0
    let w := s.w.setReg (aSyncDieViewCtl d) n
    let code := viewCheck s.env w d n
    (bitAt v.toNat 31 = false → exec (.syncView d v) s = .next { s with w := w }) ∧
    (bitAt v.toNat 31 = true → code ≠ 0 → exec (.syncView d v) s = .next { s with w := w.setReg (aSyncDieViewStatus d) code }) ∧
    (bitAt v.toNat 31 = true → code = 0 → ∃ t, exec (.syncView d v) s = .next t ∧ t.env = s.env ∧ t.pending = s.pending ∧
      t.w.fld (aSyncDieViewStatus d) 16 16 = 1))

/-- A Kiln commit answers a code of Table 16-4, and only 0x0000 applies the staged values

A write of KILN.CTL writes its fields; with commit it puts one code of Table 16-4 in KILN.STATUS.reason, and with 0x0000 alone the
values of every Kiln register are taken for the boundary. At the boundary they come into force if they pass again, and not
otherwise. A weight of zero among the first 14 answers 0x0801, and a background rate beyond 1 to 400 is refused. -/
def Obligations.KilnCommitIsChecked : Prop :=
  (∀ (v : Word) (s : State), poolRuns s.env = true →
    let w := s.w.setReg aKilnCtl (v.toNat &&& 0x7FFF00)
    let code := kilnCheck w.reg (partitioned w || vPartitioned (qosAhead w) || w.fld aQosCtl 16 16 == 1)
    let w' := w.setFld aKilnStatus 15 0 code
    exec (.kilnCommit v) s = .next { s with
      w := if bitAt v.toNat 31 = true then
          (if code = 0 then { w' with kiln := { w'.kiln with
            pend := kilnAddrs.foldl (fun m a => mset m a (BitVec.ofNat 32 (w'.reg a))) [] } } else w')
        else w } ∧
    code ∈ [0, 0x0801, 0x0802, 0x0803, 0x0804, 0x0805]) ∧
  (∀ (v : Nat → Nat) (parted : Bool), kilnCheck v parted = 0 →
    (∀ k, k < 14 → bitsOf (v (aKilnWeight k)) 23 0 ≠ 0) ∧ 400 ≤ bitsOf (v aKilnLimits) 15 0 ∧ bitsOf (v aKilnLimits) 15 0 ≤ 1550 ∧
    bitsOf (v aKilnLimits) 31 16 ≤ bitsOf (v aKilnLimits) 15 0 ∧ 1 ≤ bitsOf (v aKilnBgCap) 15 0 ∧ bitsOf (v aKilnBgCap) 15 0 ≤ 400) ∧
  (∀ w : Work, w.kiln.pend.isEmpty = false →
    let v (a : Nat) : Nat := match mget w.kiln.pend a with
      | some x => x.toNat
      | none => w.liv a
    let code := kilnCheck v (partitioned w)
    (code ≠ 0 → (applyKiln w).live = w.live ∧ (applyKiln w).kiln.pend = []) ∧
    (code = 0 → (applyKiln w).live = (w.kiln.pend.foldl (fun w x => w.setLiv x.1 x.2.toNat) w).live ∧
      (applyKiln w).kiln.pend = [] ∧ (applyKiln w).regs = w.regs))

/-- Cadastre and QoS commits are checked as a whole

A Cadastre commit without records reads none and answers 0x010B, or 0x0109 for an early frame; one whose records read poisoned
answers 0x0100; else the records are checked together, a code other than 0 applies none of them, and with 0x0000 they wait for their
effective frame in the place of an earlier commit (R73-R75). A QoS commit, of the device or of one host, writes its fields and its
code, and with 0x0000 alone its values wait for the boundary (R449, R464). Nothing in force changes at once. -/
def Obligations.CadastreAndQosCommits : Prop :=
  (∀ (v : Word) (s : State), poolRuns s.env = true →
    let w := s.w.setReg aCadastreCtl (bitsOf v.toNat 8 0)
    (bitAt v.toNat 31 = false → exec (.cadastreCommit v) s = .next { s with w := w }) ∧
    (bitAt v.toNat 31 = true → (cadCount w = 0 ∨ 256 < cadCount w) →
      exec (.cadastreCommit v) s = .next { s with w := cadStatus w (if cadFrame w < s.env.clk.frame + 2 then 0x0109 else 0x010B) }) ∧
    (bitAt v.toNat 31 = true → 0 < cadCount w → cadCount w ≤ 256 →
      (readRecords s.env w (cadStage w) (cadCount w) = none →
        exec (.cadastreCommit v) s = .next { s with w := cadStatus w 0x0100 }) ∧
      (∀ rs, readRecords s.env w (cadStage w) (cadCount w) = some rs →
        let code := cadCheck s.env w rs (cadFrame w) false
        exec (.cadastreCommit v) s = .next { s with
          w := if code = 0 then
              cadStatus { w with pool := { w.pool with cadPending := some { frame := cadFrame w, records := rs } } } 0
            else cadStatus w code }))) ∧
  (∀ (v : Word) (s : State), poolRuns s.env = true →
    let w := s.w.setReg aQosCtl (v.toNat &&& 0x10000)
    let code := qosCheck s.env w (qosView w qosAddrs) none
    exec (.qosCommit v) s = .next { s with
      w := if bitAt v.toNat 31 = true then qosStatus (if code = 0 then qosAccept w qosAddrs else w) code else w }) ∧
  (∀ (a : Nat) (v : Word) (s : State), poolRuns s.env = true →
    let w := s.w.setReg (aQosHostCtl a) (v.toNat &&& 0x7C03FFFF)
    let code := qosCheck s.env w (qosView w (qosHostAddrs a)) (some a)
    exec (.qosHostCommit a v) s = .next { s with
      w := if bitAt v.toNat 31 = true then qosStatus (if code = 0 then qosAccept w (qosHostAddrs a) else w) code else w })

/-- The calendar shaper admits lines and moves a host's eligible time by its spacing

Admitting n lines of a host with a grant in one slot sets its eligible time E to max(E, s - BURST x D) + n x D, with the spacing D and
the slot time s in 2^-16 slots (R446; the fixed point is the model's, log 16), counts n lines, and leaves every other host's eligible
time and count alone. A calendar slot without room, or beyond the 4,096 of a frame, admits nothing. No register and no byte of
pool memory changes. -/
def Obligations.CalendarSpacesHosts : Prop :=
  (∀ (w : Work) (a : Nat) (x : Int) (n : Nat), lineGrant w a ≠ 0 →
    let w' := (List.range n).foldl (fun w _ => admitLine w a x) w
    let d := spacing (lineGrant w a)
    admittedOf w' a = admittedOf w a + n ∧
    (0 < n → eligOf w' a = max (eligOf w a) (x - Int.ofNat (burstOf w a) * d) + n * d) ∧
    (∀ b, b ≠ a → eligOf w' b = eligOf w b ∧ admittedOf w' b = admittedOf w b)) ∧
  (∀ (die slot room : Nat) (queued : List (Nat × Nat)) (s : State), poolRuns s.env = true →
    (4096 ≤ slot → exec (.calendarSlot die slot room queued) s = .next s) ∧
    (slot < 4096 → ∃ t, exec (.calendarSlot die slot room queued) s = .next t ∧ t.env = s.env ∧ t.pending = s.pending ∧
      t.w.regs = s.w.regs ∧ t.w.live = s.w.live ∧ t.w.pool = s.w.pool ∧
      (∀ a, a < 64 → hostDie a ≠ die → admittedOf t.w a = admittedOf s.w a ∧ eligOf t.w a = eligOf s.w a) ∧
      (room = 0 → t.w.qos.admitted = s.w.qos.admitted ∧ t.w.qos.elig = s.w.qos.elig)))

/-- Latency marks read and clear, and 64-bit counters latch their upper half

A host's read of LAT.HWM returns the mark and sets it to zero in one operation (11 R454); a clear zeroes the class's histogram and
nothing else (R455). A read of the lower register of a 64-bit counter latches the upper half, and the next read of the upper register
returns what was latched, whatever was counted between (19 R684). -/
def Obligations.LatencyAndCounterReads : Prop :=
  (∀ (a c : Nat) (s : State), poolRuns s.env = true → ldReachable s.w a = true → ldOpen s.w a = true →
    exec (.latHwmRead a c) s = .next { s with
      w := (s.w.emit (.read a (0x30000 + hLatHwm c) (s.w.hreg a (hLatHwm c)))).setHreg a (hLatHwm c) 0 } ∧
    (∀ v : Word, bitAt v.toNat 0 = false → exec (.latClear a c v) s = .next s) ∧
    (∀ v : Word, bitAt v.toNat 0 = true →
      ∃ t, exec (.latClear a c v) s = .next t ∧ t.env = s.env ∧ t.pending = s.pending ∧ t.w.regs = s.w.regs ∧ t.w.pool = s.w.pool ∧
        (∀ i, i < 16 → t.w.hreg a (hLatHist c i) = 0) ∧
        (∀ off, (∀ i, i < 16 → off ≠ hLatHist c i) → t.w.hreg a off = s.w.hreg a off))) ∧
  (∀ (addr : Nat) (s : State), mainRuns s.env = true →
    (counterLow addr = true → ∃ t, exec (.counterLowerRead addr) s = .next t ∧ t.env = s.env ∧ t.pending = s.pending ∧
      t.w.out = .read 0x7F addr (regRead s.env s.w addr) :: s.w.out ∧ t.w.regs = s.w.regs ∧
      mget t.w.half (addr + 4) = some (BitVec.ofNat 32 (regRead s.env s.w (addr + 4)))) ∧
    (∀ v, counterLow addr = false → mget s.w.half addr = some v →
      exec (.counterLowerRead addr) s = .next { s with
        w := { s.w with half := mdel s.w.half addr }.emit (.read 0x7F addr v.toNat) }) ∧
    (counterLow addr = false → mget s.w.half addr = none →
      exec (.counterLowerRead addr) s = .next { s with w := s.w.emit (.read 0x7F addr (regRead s.env s.w addr)) }))

/-- Register writes reach their fields and their commands

A write of Datum to an address without a register, or by an agent that has no registers, changes nothing (19 R681, R682). A register
without an action of its own takes the bits of its RW fields, and those of its RWL fields while its block is not locked, and no
other register changes (00 Table 0-3). A control register acts as its command does: KILN.CTL, QOS.CTL, CADASTRE.CTL,
MERIDIAN.CTL, XLAT.CTX_CMD and SYNC.CTX_CMD are tied here. A host's write to its ring page's offset 0 is a TAIL (08 R302); the place of
that page in the command's addresses is the model's choice (log 92). -/
def Obligations.RegisterWritesReachTheirFields : Prop :=
  (∀ (agent addr : Nat) (v : Word) (s : State), (agent = 0x7F ∧ regLay addr = none) ∨ (64 ≤ agent ∧ agent ≠ 0x7F) →
    exec (.registerWrite agent addr v) s = .next s) ∧
  (∀ (addr : Nat) (v : Word) (l : RegLay) (s : State), mainRuns s.env = true → regLay addr = some l → powered s.env addr = true →
    datumWrite s.env s.w addr v.toNat = none → ctlWrite s.env s.w addr v.toNat = none →
    exec (.registerWrite 0x7F addr v) s = .next { s with
      w := s.w.setMask addr (if rwlLocked s.w addr then l.rw else l.rw ||| l.rwl) v.toNat }) ∧
  (∀ (v : Word) (s : State), poolRuns s.env = true →
    exec (.registerWrite 0x7F aKilnCtl v) s = exec (.kilnCommit v) s ∧
    exec (.registerWrite 0x7F aQosCtl v) s = exec (.qosCommit v) s ∧
    exec (.registerWrite 0x7F aCadastreCtl v) s = exec (.cadastreCommit v) s ∧
    exec (.registerWrite 0x7F aXlatCtxCmd v) s = exec (.contextLoad v) s ∧
    exec (.registerWrite 0x7F aSyncCtxCmd v) s = exec (.syncCtxSave v) s ∧
    exec (.registerWrite 0x7F aMeridianCtl v) s = exec (.meridianCommit v) s) ∧
  (∀ (agent r : Nat) (v : Word) (s : State), poolRuns s.env = true → agent < 64 → r < 1024 →
    exec (.registerWrite agent (doorbellBase + 0x1000 * r) v) s = exec (.tail agent r v) s)

/-- Ports, heads and logical devices are enabled, trained, taken down and reset

Port enable and disable answer their check in PORT.STATUS (R465, R468, 19 R735): a mode of 3 is 0x0401, a barred port 0x0404; a
passing enable reads 1, keeps its mode and puts every head into training. LD_CTL does the same for a logical device (R493). A head
that trains is UP, or HELD with its record below half its lanes or 32 GT/s (R466, R467). A head that goes down, or whose IDE check
fails, loses the link for each of its logical devices (R481, R486). Hot reset, CXL reset and Function Level Reset clear Table 12-10's
state. A decoder's values wait for its boundary, an unmasked vector is sent once, a flush is acknowledged (R475, R485). IDE_KM is answered in an allowed
session alone (17 R643). Nothing else changes. -/
def Obligations.PortsTrainFallAndReset : Prop :=
  (∀ (p : Nat) (v : Word) (s : State), mainRuns s.env = true → s.w.fld (aPortCtl p) 31 31 = 0 → Due.portOff p ∉ s.w.due →
    let w := s.w.setMask (aPortCtl p) 0x0FE00000 (setBitAt v.toNat 31 true)
    let mode := w.fld (aPortCtl p) 27 26
    let code := portCheck s.env w p
    let w0 := (w.setFld (aPortStatus p) 15 0 0).setFld (aPortCtl p) 31 31 1
    let w1 := { w0 with ports := { w0.ports with modes := mset w0.ports.modes p (w0.fld (aPortCtl p) 27 26) } }
    let t := { s with w := if code = 0 then startGrace s.env (trainHeads w1 p) p else w.setFld (aPortStatus p) 15 0 code }
    exec (.portEnable p v) s = .next t ∧ (mode = 3 → code = 0x0401) ∧
    (code = 0 → mode < 3 ∧ portBarred s.env w p = false)) ∧
  (∀ (p : Nat) (v : Word) (s : State), mainRuns s.env = true → s.w.fld (aPortCtl p) 31 31 = 1 →
    let w := s.w.setFld (aPortCtl p) 31 31 0
    exec (.portDisable p v) s = .next { s with w := { w with due := w.due ++ [.portOff p] } }) ∧
  (∀ (p l : Nat) (s : State), mainRuns s.env = true → s.w.fld (aPortLdCtl p l) 31 31 = 0 →
    let code := ldCheck s.env s.w p l
    let w := s.w.setFld (aPortStatus p) 15 0 code
    let t := { s with w := if code = 0 then (w.setReg (aPortLdCtl p l) (2 ^ 31)).queue (.ldOn (2 * p + l)) else w }
    exec (.ldEnable p l) s = .next t ∧ (code = 0 ↔ s.w.fld (aPortCtl p) 27 26 ≠ 3 ∧ s.w.fld (aPortCtl p) 25 24 ≤ 1 ∧
      ¬(l = 1 ∧ s.w.fld (aPortCtl p) 27 26 = 0) ∧ portBarred s.env s.w p = false ∧ s.w.livF (aQosHostCtl (2 * p + l)) 30 30 ≠ 0)) ∧
  (∀ (p l : Nat) (s : State), mainRuns s.env = true → s.w.fld (aPortLdCtl p l) 31 31 = 1 →
    exec (.ldDisable p l) s = .next { s with w := (s.w.setReg (aPortLdCtl p l) 0).queue (.ldOff (2 * p + l)) }) ∧
  (∀ (a d : Nat) (s : State), mainRuns s.env = true → (s.w.ld a).off = some d → d + 2 ≤ s.env.clk.frame →
    let x := wrapperAnswer s.env (s.w.setLd a { s.w.ld a with off := none })
      (fun r => r.dev == s.env.board && r.agent == a && r.tile == none && r.ans == .error)
    exec (.ldDisableAnswer a) s = .next { s with
      w := if x.1 = 0 then x.2
        else raise s.env x.2 { ty := 0x7006, sev := 1, dev := s.env.board, agent := a, count := x.1, unit := portOf a + 4 * 2 ^ 24,
                               host := some a } }) ∧
  (∀ (p h width rate flit : Nat) (s : State), mainRuns s.env = true → recovering s.env = false → portRuns s.w p = true →
    portBarred s.env s.w p = false → h ∈ headsOfMode (portMode s.w p) → headState s.w p h = hdTraining →
    let full := if portMode s.w p = 2 then 8 else 16
    let half := decide (width < full)
    let w := setFlit (setHalf s.w p h (if half = true then 1 else 0)) p h (flitMode s.w p rate flit)
    let up := setHead (if half = true then portOnly s.env w p 0x7002 else w) p h hdUp
    (full ≤ 2 * width → 32 ≤ rate →
      exec (.headTrained p h width rate flit) s = .next { s with w := (headLds s.w p h).foldl sendWaiting up }) ∧
    (2 * width < full → 32 ≤ rate →
      exec (.headTrained p h width rate flit) s = .next { s with w := portOnly s.env (setHead s.w p h hdHeld) p 0x7001 })) ∧
  (∀ (p h : Nat) (s : State), mainRuns s.env = true → headState s.w p h = hdUp →
    let t := { s with w := (headLds s.w p h).foldl (linkLost s.env) (setHalf (setHead s.w p h hdDown) p h 0) }
    exec (.headDown p h) s = .next t ∧
    ((∃ a ∈ headLds s.w p h, ∃ x ∈ (s.w.ld a).ide, x.2.2 = true) → exec (.ideIntegrityFail p h) s = .next t)) ∧
  (∀ (p h : Nat) (s : State), headState s.w p h = hdUp →
    let x := endSessions s.env ((headLds s.w p h).foldl (clearLd s.env) (headDown s.env s.w p h)) (headLds s.w p h)
    exec (.cxlHotReset p h) s = .next { s with env := x.1, w := x.2 }) ∧
  (∀ (a : Nat) (s : State), ldExists s.w a = true → headIo s.w a = true →
    let x := endSessions s.env (clearLd s.env s.w a) [a]
    exec (.cxlReset a) s = .next { s with env := x.1, w := x.2 } ∧
    (mainRuns s.env = true → exec (.functionLevelReset a) s = .next { s with
      w := stopRings s.env ((s.w.setLd a { s.w.ld a with unmasked := [], msix := [], mbox := none }).setHfld a hFaultHostCtl 31 31 0) a })) ∧
  (∀ (a idx hpa size lda ways v : Nat) (s : State), mainRuns s.env = true → ldReachable s.w a = true → ldOpen s.w a = true →
    let ok := ways = 1 ∧ idx < 8
    let l := s.w.ld a
    let w := s.w.setLd a { l with hdmNext := some (mset (l.hdmNext.getD l.hdm) idx (hpa, size, lda)), bi := true }
    (ok → exec (.hdmDecoderCommit a idx hpa size lda ways) s = .next { s with w := w.emit (.decoder a idx true) }) ∧
    (¬ok → exec (.hdmDecoderCommit a idx hpa size lda ways) s = .next { s with w := s.w.emit (.decoder a idx false) }) ∧
    (v < 2048 →
      let w := s.w.setLd a { s.w.ld a with unmasked := sadd (s.w.ld a).unmasked v, msix := sdel (s.w.ld a).msix v }
      exec (.msixUnmask a v) s = .next { s with w := if v ∈ (s.w.ld a).msix then w.emit (.msix a v) else w }) ∧
    exec (.globalPersistentFlush a) s = .next { s with w := s.w.emit (.gpfAck a) }) ∧
  (∀ (a ses stream key : Nat) (s : State), mainRuns s.env = true → reaches s.w (.host a) = true →
    let set := fun k : Nat × Bool =>
      { s with w := reply (s.w.setLd a { s.w.ld a with ide := mset (s.w.ld a).ide stream k }) (.host a) rcOk [] }
    let no := { s with w := reply s.w (.host a) rcRefused [] }
    if ideAllowed s.env a ses = true ∧ ideStream s.w a stream = true then
      match mget (s.w.ld a).ide stream with
      | none => exec (.keyProg a ses stream key) s = .next (set (key, false)) ∧ exec (.kSetGo a ses stream) s = .next no ∧
          exec (.kSetStop a ses stream) s = .next no
      | some k => exec (.keyProg a ses stream key) s = .next (set (key, k.2)) ∧
          exec (.kSetGo a ses stream) s = .next (set (k.1, true)) ∧ exec (.kSetStop a ses stream) s = .next (set (k.1, false))
    else exec (.keyProg a ses stream key) s = .next no ∧ exec (.kSetGo a ses stream) s = .next no ∧
      exec (.kSetStop a ses stream) s = .next no)

/-- Mailbox commands of a logical device

A mailbox command that reaches an enabled logical device is carried out and answered (R482, R483). CONTEXT_GET binds a free context
to the caller and answers with its number, Invalid Input where none is free. CONTEXT_SET, CONTEXT_PUT, SYNC_SAVE, SYNC_RESTORE and
RING_PUT act for the owner alone. A put, save or restore that is accepted is answered at its boundary. Get Poison List answers at
most 256 records and whether more remain; Inject and Clear Poison write the line for a writer alone (R477). A declined offer and a
released extent drop the holder; what nobody answers is declined after 200 ms and a refused release is forced (03 R89-R91, R474). -/
def Obligations.MailboxCommandsAnswer : Prop :=
  (∀ (a : Nat) (s : State), mainRuns s.env = true → ldExists s.w a = true → headIo s.w a = true →
    (recovering s.env = true ∨ ldOpen s.w a = true) →
    let e := s.env
    let w := s.w
    let done : Work → Nat → Nat → List Nat → Host.Outcome State Fault Refusal :=
      fun u cmd code out => .next { s with w := mboxDone u a cmd code out }
    let wait : Work → Nat → Nat → Host.Outcome State Fault Refusal := fun u cmd x =>
      .next { s with w := { u with ports := { u.ports with waiting := u.ports.waiting ++ [(a, cmd, x)] } } }
    (∀ entry c, freeCtx w = some c →
      let u := loadEntry e w c (BitVec.ofNat 512 (2 ^ 36 * ef entry 127 36 + 2 ^ 24 * a + 2 ^ 16 + c))
      exec (.contextGet a entry) s = done u 0xC001 mbOk [ctxReason u, c]) ∧
    (∀ entry, freeCtx w = none → exec (.contextGet a entry) s = done w 0xC001 mbInvalid []) ∧
    (∀ entry c x, getCtx w c = some x → boundCtx w a c = true →
      let u := loadEntry e w c (setEf (setEf x.entry 127 42 (ef entry 127 42)) 40 36 (ef entry 40 36))
      exec (.contextSet a c entry) s = done u 0xC002 mbOk [ctxReason u]) ∧
    (∀ entry c, boundCtx w a c = false → exec (.contextSet a c entry) s = done w 0xC002 mbInvalid [] ∧
      exec (.contextPut a c) s = done w 0xC003 mbInvalid [] ∧ exec (.syncSave a c) s = done w 0xC010 mbInvalid [] ∧
      exec (.syncRestore a c) s = done w 0xC011 mbInvalid []) ∧
    (∀ c, boundCtx w a c = true →
      let u := ctxCmdWrite e w (2 ^ 31 + 2 ^ 27 + c)
      let v := fun op : Nat => syncCmdWrite e w (2 ^ 31 + 2 ^ 26 * op + c)
      exec (.contextPut a c) s = (if ctxReason u = 0 then wait u 0xC003 c else done u 0xC003 mbOk [ctxReason u]) ∧
      exec (.syncSave a c) s = (if syncReason (v 1) = 0 then wait (v 1) 0xC010 c else done (v 1) 0xC010 mbOk [syncReason (v 1)]) ∧
      exec (.syncRestore a c) s = (if syncReason (v 2) = 0 then wait (v 2) 0xC011 c else done (v 2) 0xC011 mbOk [syncReason (v 2)])) ∧
    (∀ (ctl : Word) dp dof cp cof r, freeRing w = some r →
      let u := (w.setReg (aRingDqParcel r) (dp % 2 ^ 16)).setReg (aRingCqParcel r) (cp % 2 ^ 16)
      let u := (u.setReg2 (aRingDqOffset r) dof).setReg2 (aRingCqOffset r) cof
      let u := ringCtlWrite e u r (putBits (putBits ctl.toNat 7 0 a) 31 31 1)
      exec (.ringSet a ctl dp dof cp cof) s = done u 0xC020 mbOk [u.fld (aRingStatus r) 15 0, r]) ∧
    (∀ r, exec (.ringPut a r) s = if w.fld (aRingCtl r) 31 31 = 1 ∧ ringOwner w r = a
      then done (ringCtlWrite e w r (w.reg (aRingCtl r) % 2 ^ 31)) 0xC021 mbOk [0] else done w 0xC021 mbInvalid []) ∧
    (∀ start count, let l := (poisonLdas e w a).filter (fun x => decide (start ≤ x))
      let n := min count 256
      n ≤ 256 ∧ exec (.getPoisonList a start count) s = done w 0x4300 mbOk ((if l.length > n then 1 else 0) :: l.take n)) ∧
    (∀ lda d, extentOf (w.ld a) lda = none → exec (.injectPoison a lda) s = done w 0x4301 mbInvalid [] ∧
      exec (.clearPoison a lda d) s = done w 0x4302 mbInvalid []) ∧
    (∀ lda d x l, extentOf (w.ld a) lda = some x → accessCheck e w (.host a x.gen) x.parcel (lda - x.lda) true = .served l →
      let r := fun p : Payload => checked e w
        { op := .wr .i p (BitVec.allOnes 64) true, dev := e.board, agent := a, tag := lda / 64 % 2 ^ 16, frame := e.clk.frame
          parcel := x.parcel, gen := x.gen, off := (lda - x.lda) / 64 * 64, line := 0, acct := a, ans := .down, born := e.clk.now }
        (.served l)
      exec (.injectPoison a lda) s = done (r ⟨0, true⟩) 0x4301 mbOk [] ∧
      exec (.clearPoison a lda d) s = done (r ⟨d, false⟩) 0x4302 mbOk []) ∧
    (∀ lda acc, let l := w.ld a
      let o := w.setLd a { l with offers := l.offers.filter (fun x => x.1 != lda) }
      let q := w.setLd a { l with releases := l.releases.filter (fun x => x.1 != lda), offers := l.offers.filter (fun x => x.1 != lda) }
      exec (.addDcResponse a lda acc) s =
        done (if (l.offers.any (fun x => x.1 == lda) && !acc) = true then releaseExtent e o a lda else o) 0x4802 mbOk [] ∧
      exec (.releaseDcResponse a lda) s = done (releaseExtent e q a lda) 0x4803 mbOk [])) ∧
  (∀ (a c r : Nat) (s : State), mainRuns s.env = true → ldExists s.w a = true → headIo s.w a = true → recovering s.env = false →
    (s.w.ld a).enabled = false →
    let t := { s with w := (portRecord s.env s.w a 0x7006).emit (.hostUr a 0) }
    exec (.contextPut a c) s = .next t ∧ exec (.syncSave a c) s = .next t ∧ exec (.ringPut a r) s = .next t) ∧
  (∀ (a lda f : Nat) (s : State), mainRuns s.env = true → (s.w.ld a).offers.find? (fun x => x.1 == lda) = some (lda, f) →
    let l := s.w.ld a
    exec (.addCapacityTimeout a lda) s = .next { s with
      w := if (late200 s.env f || !headUp s.w a || !l.enabled) = true then
          releaseExtent s.env (s.w.setLd a { l with offers := l.offers.filter (fun x => x.1 != lda) }) a lda
        else s.w }) ∧
  (∀ (p a f : Nat) (x : Extent) (s : State), mainRuns s.env = true → (s.w.ld a).extents.find? (fun x => x.parcel == p) = some x →
    (x.lda, f) ∈ (s.w.ld a).releases → late200 s.env f = true →
    let r := releaseHolder s.env s.w p a [(p, a)]
    let u := r.2.setLd a { r.2.ld a with releases := (r.2.ld a).releases.filter (fun y => y.1 != x.lda) }
    exec (.forcedRevoke p a) s = .next { s with
      w := if r.1 = 0 then raise s.env u { ty := 0x3004, sev := 1, parcel := p, dev := s.env.board, agent := a, host := some a }
        else r.2 })

/-- The FM API and initiated Dynamic Capacity

Each FM API command of the fabric manager or of the BMC, on an open path, is answered (R484): the numbers of logical devices and
heads, a head's state, regions of 2^44 bytes in blocks of 2^21, four of them shareable, the extents with their tags (R470-R472),
configurations that only confirm what holds. Initiate Add checks the place and stages holder and extent in one commit (03 R87),
refused in recovery mode; Initiate Release tells the host and starts its 200 ms (R473). A host's logical device is refused (R484)
and nothing but the answer leaves. -/
def Obligations.FabricManagerCommandsAnswer : Prop :=
  (∀ (m : Mgr) (s : State), mainRuns s.env = true → reaches s.w m = true → (isBmc m = true ∨ isFm m = true) →
    let w := s.w
    let re : Work → Nat → List Nat → Host.Outcome State Fault Refusal :=
      fun u code d => .next { s with w := { u with out := .reply m code d :: u.out } }
    exec (.getLdInfo m) s = re w rcOk [0, ldCount w] ∧
    exec (.getMultiHeadedInfo m) s = re w rcOk [ldCount w, headCount w] ∧
    exec (.getDcdInfo m) s = re w rcOk [64, 8, 2 ^ 21, 4096] ∧
    (∀ p n, p < 32 →
      exec (.getLdAllocations m p) s = re w rcOk ((portLds w p).length :: List.replicate (portLds w p).length 0) ∧
      exec (.setLdAllocations m p n) s = re w (if (portLds w p).length = n then rcOk else rcRefused) []) ∧
    (∀ p n, 32 ≤ p → exec (.getLdAllocations m p) s = re w rcRefused [] ∧ exec (.setLdAllocations m p n) s = re w rcRefused []) ∧
    (∀ p h, exec (.getHeadInfo m p h) s = if p < 32 ∧ h ∈ headsOfMode (portMode w p)
      then re w rcOk [headState w p h, w.fld (aPortStatus p) (26 + h) (26 + h), w.fld (aPortStatus p) (23 + 2 * h) (22 + 2 * h)]
      else re w rcRefused []) ∧
    (∀ a region block, ldExists w a = true →
      exec (.getHostDcRegionConfig m a) s = re w rcOk ((List.range 8).flatMap (fun n => [2 ^ 44 * n, 2 ^ 44, 2 ^ 21, if n < 4 then 0 else 1])) ∧
      exec (.getDcRegionExtentLists m a) s = re w rcOk ((w.ld a).extents.flatMap (fun x => [x.lda, x.len, x.parcel, x.gen])) ∧
      exec (.setDcRegionConfig m a region block) s = re w (if region < 8 ∧ block = 2 ^ 21 then rcOk else rcRefused) []) ∧
    (∀ d : DcReq, recovering s.env = true ∨ dcPlaceOk w d (2 ^ 21 * eSize (cadNow w d.parcel)) = false →
      exec (.initiateDcAdd m d) s = re w rcRefused []) ∧
    (∀ d : DcReq, recovering s.env = false → dcPlaceOk w d (2 ^ 21 * eSize (cadNow w d.parcel)) = true → d.parcel < 2 ^ 16 →
      eState (cadNow w d.parcel) = stFree →
      let x := cadNow w d.parcel
      let y := setEf (setEf (setEf x 33 32 stAssigned) 191 128 (setBitAt 0 d.agent true)) 255 192 (setBitAt 0 d.agent d.writer)
      let r := stageEntry s.env w d.parcel y [(d.agent, ⟨d.lda, 2 ^ 21 * eSize x, d.parcel, eGen x⟩)] []
      exec (.initiateDcAdd m d) s = re r.2 (if r.1 = 0 then rcOk else rcRefused) [r.1]) ∧
    (∀ (d : DcReq) (x : Extent), (w.ld d.agent).extents.find? (fun x => x.parcel == d.parcel && x.lda == d.lda) = some x →
      let l := w.ld d.agent
      let u := w.setLd d.agent { l with releases := l.releases.filter (fun r => r.1 != x.lda) ++ [(x.lda, s.env.clk.frame)] }
      exec (.initiateDcRelease m d) s = re (dcEvent u d.agent evRelease x.lda x.parcel) rcOk [])) ∧
  (∀ (a : Nat) (s : State), mainRuns s.env = true → reaches s.w (.host a) = true →
    let t := { s with w := { s.w with out := .reply (.host a) rcRefused [] :: s.w.out } }
    exec (.getLdInfo (.host a)) s = .next t ∧ exec (.getDcdInfo (.host a)) s = .next t ∧
    ∀ d : DcReq, exec (.initiateDcAdd (.host a) d) s = .next t ∧ exec (.initiateDcRelease (.host a) d) s = .next t)

/-- The root of trust answers, and firmware, fuses, debug sessions and JTAG change only as it allows

A command that reaches the root of trust is answered, and one from a requester it does not serve is refused with no other change
(R624, Table 17-1). Measurements, certificates, challenge and sessions: 80 at most (R634-R636). Firmware goes into the bank that is
not running, is activated when staged, passing and with no trial open, runs in TRIAL at its handover and is COMMITTED by FW_COMMIT
(R632, R653-R655); the rollback fuse follows the committed version up to 64 (R633); a slot is retired in recovery mode alone (R629).
Debug sessions open with a nonce and a token only, four at most, and end with their record (R656-R658). JTAG instructions of the
EXTEST family act as BYPASS unless allowed (R660). Anchors and the debug authority are sealed under the live slot of KEYSEL (R645). Digests and nonces are free values (log 9). -/
def Obligations.RootOfTrustAnswers : Prop :=
  (∀ (m : Mgr) (s : State), mainRuns s.env = true → reaches s.w m = true →
    let e := s.env
    let x := s.env.sec
    let re : Env → Work → Nat → List Nat → Host.Outcome State Fault Refusal :=
      fun e' u code d => .next { s with env := e', w := { u with out := .reply m code d :: u.out } }
    let sec : Sec → List Nat → Host.Outcome State Fault Refusal := fun y d => re { e with sec := y } s.w rcOk d
    let no := re e s.w rcRefused []
    let bank := bankOf x x.running
    let spare := 1 - x.running
    ((isBmc m = true ∨ isHostLd m = true) →
      (∀ k l, measurement e s.w k = some l → exec (.getMeasurements m k) s = re e s.w rcOk l) ∧
      (∀ k, k = 0 ∨ 7 < k → exec (.getMeasurements m k) s = no) ∧
      (∀ k, (measurement e s.w k).isSome = true ↔ 1 ≤ k ∧ k ≤ 7) ∧
      (∀ n, exec (.getCertificate m n) s = if n = 0 then re e s.w rcOk [Config.digest [8]] else no) ∧
      (∀ n, exec (.challenge m n) s = re e s.w rcOk [Config.digest [9, n]]) ∧
      exec (.setCertificate m) s = re e s.w rcUnsupported [] ∧ exec (.getCsr m) s = re e s.w rcUnsupported [] ∧
      exec (.getFwInfo m) s = re e s.w rcOk [x.running, x.bankA.st, imageField x 0 (·.seq), imageField x 0 (·.svn), x.bankB.st,
        imageField x 1 (·.seq), imageField x 1 (·.svn)] ∧
      (∀ mutualAuth anchor, exec (.keyExchange m mutualAuth anchor) s = if x.sessions.length < 80 then
          sec { x with sessions := mset x.sessions x.nextSession { who := m, mutualAuth := mutualAuth, anchor := anchor }
                       nextSession := x.nextSession + 1 } [x.nextSession]
        else re e s.w rcLimit []) ∧
      (∀ n y, sessionOf e m n = some y → exec (.heartbeat m n) s = re e s.w rcOk [] ∧
        exec (.keyUpdate m n) s = sec { x with sessions := mset x.sessions n { y with updates := y.updates + 1 } } []) ∧
      (∀ n, sessionOf e m n = none → exec (.heartbeat m n) s = no ∧ exec (.keyUpdate m n) s = no) ∧
      (let n := Config.freeNat s.w.ctr
       exec (.debugChallenge m) s =
         re { e with sec := { x with nonces := (m, n, e.clk.now) :: x.nonces.filter (fun y => y.1 != m) } }
           { s.w with ctr := s.w.ctr + 1 } rcOk [n]) ∧
      (∀ t, exec (.debugOpen m t) s = if tokenOk e m t = true then
          re { e with sec := { x with
                nonces := x.nonces.filter (fun y => y.1 != m)
                debugs := mset x.debugs x.opened { who := m, scopes := t.scopes, expires := e.clk.now + 10 ^ 12 * t.seconds }
                opened := x.opened + 1 } } (debugRecord e s.w m t.scopes) rcOk [x.opened]
        else no) ∧
      (∀ t, tokenOk e m t = true → debugAuthorityKey e ≠ none ∧ t.sigOk = true ∧ t.board = e.board ∧ t.scopes < 32 ∧
        (x.debugs.filter (fun y => decide (e.clk.now < y.2.expires))).length < 4 ∧
        1 ≤ t.seconds ∧ t.seconds ≤ 86400 ∧ ∃ y ∈ x.nonces, y.1 = m ∧ y.2.1 = t.nonce) ∧
      (∀ n, let r := endDebug e s.w (fun y => y.1 == n)
        exec (.debugClose m n) s = if ∃ y ∈ x.debugs, y.1 = n ∧ y.2.who = m then re r.1 r.2 rcOk [] else no)) ∧
    (isBmc m = true →
      (∀ img, let ok := imagePasses e img
        let st := if recovering e = true ∧ ok = true then bkCommitted else bkStaged
        exec (.transferFw m img) s = sec (setBank x spare { st := st, img := some img }) [if ok = true then 1 else 0]) ∧
      (∀ h, exec (.activateFw m h) s =
        if (bankOf x spare).st = bkStaged ∧ bankPasses e spare = true ∧ trialOpen x = false ∧ e.clk.frame + 2 ≤ h ∧ x.handover = none
        then sec { x with handover := some h } [] else no) ∧
      exec (.fwCommit m) s = (if bank.st = bkTrial then sec (setBank x x.running { bank with st := bkCommitted }) [] else no) ∧
      exec (.svnAdvance m) s = (if bank.st = bkCommitted then
        sec { x with rollback := max x.rollback (min (imageField x x.running (·.svn)) 64) } [] else no) ∧
      (∀ item slot, exec (.slotRetire m item slot) s = if recovering e = true ∧ item < 3 ∧ slot < 4 then
        sec { x with retired := setBitAt x.retired (4 * item + slot) true } [] else no) ∧
      (∀ pos hash, exec (.enrolArm m true pos hash) s = (if pos < 32 then
          sec (sealRec e 1 { x with anchors := mmod (hostAnchors e) pos [] (fun l => sadd l hash) }) [] else no) ∧
        exec (.enrolArm m false pos hash) s = if pos < 4 then sec { x with armed := sadd x.armed pos } [] else no) ∧
      (∀ key, exec (.debugAuthority m key) s = if debugAuthorityKey e = none ∨ recovering e = true then
        sec (sealRec e 2 { x with authority := some key }) [] else no) ∧
      (∀ n (v : Word), exec (.backupWrite m n v) s = if recovering e = true ∧ n < 16 then
        re (e.setBackup n v.toNat) s.w rcOk [] else no)) ∧
    (isBmc m = false → exec (.fwCommit m) s = no ∧ exec (.svnAdvance m) s = no ∧ ∀ img h item slot key,
      exec (.transferFw m img) s = no ∧ exec (.activateFw m h) s = no ∧ exec (.slotRetire m item slot) s = no ∧
      exec (.debugAuthority m key) s = no)) ∧
  (∀ (h : Nat) (s : State), s.env.sec.handover = some h → h ≤ s.env.clk.frame →
    let x := { s.env.sec with handover := none }
    let b := 1 - x.running
    exec .fwHandover s = .next { s with
      env := if (bankOf x b).st = bkStaged ∧ bankPasses s.env b = true then
          { s.env with sec := { setBank x b { bankOf x b with st := bkTrial } with running := b, switching := true }
                       rst := { s.env.rst with record := true } }
        else { s.env with sec := x } }) ∧
  (∀ (s : State), s.env.sec.switching = true →
    exec .fwBankSwitch s = .next { s with
      env := { s.env with sec := { s.env.sec with switching := false }, rst := { s.env.rst with record := false } }
      w := raise s.env s.w { ty := 0x800D, dev := s.env.board, agent := 0x7F, specific := s.env.sec.running } }) ∧
  (∀ (n : Nat) (s : State),
    let out := fun y : Nat × DebugSession => y.1 == n && decide (y.2.expires ≤ s.env.clk.now)
    exec (.debugSessionExpiry n) s = .next { s with
      env := { s.env with sec := { s.env.sec with debugs := s.env.sec.debugs.filter (fun y => !out y) } }
      w := (s.env.sec.debugs.filter out).foldl (fun w y => debugRecord s.env w y.2.who y.2.scopes) s.w }) ∧
  (∀ (n : Nat) (s : State),
    let put := fun (op : Nat) (ok : Bool) => Host.Outcome.next (φ := Fault) (ρ := Refusal)
      ({ s with env := { s.env with jtag := op }, w := { s.w with out := .jtag op ok :: s.w.out } } : State)
    exec .idcode s = put 2 true ∧ exec (.bypass n) s = put 1 true ∧ exec .samplePreload s = put 3 true ∧
    (extestAllowed s.env = true → exec .extest s = put 4 true ∧ exec .clamp s = put 5 true ∧ exec .highz s = put 6 true ∧
      exec .extestPulse s = put 7 true ∧ exec .extestTrain s = put 8 true)) ∧
  (∀ (s : State), s.env.sec.provisioned = true → recovering s.env = false →
    let t := fun op : Nat => { s with env := { s.env with jtag := 1 }, w := { s.w with out := .jtag op false :: s.w.out } }
    exec .extest s = .next (t 4) ∧ exec .clamp s = .next (t 5) ∧ exec .highz s = .next (t 6) ∧ exec .extestPulse s = .next (t 7) ∧
    exec .extestTrain s = .next (t 8))

/-- Reset sources, entry, bring-up and power

A reset source in service writes its cause to word 5 of the backup, READY falls and entry begins (R661-R664); RST_N low for less
than 1 us only counts (20 R708), readings inside their limits change nothing, and a source in entry changes nothing. Entry takes
heads down and stops rings, answers what is left, flushes the near cache or counts and lists what it could not, adds 1 to word 4
and holds the main domain (Table 18-3). Bring-up begins with RST_N high; without an image it enters recovery (R674). Service
begins with its record, word 3 cleared and READY high (R671); a start of 10 s ends with cause 0x06 (R673). Datum's reset, its
watchdog and its kick (R676). Standby loss keeps fuses and flash, power-on starts the frame counter again (20 R706, R707). -/
def Obligations.ResetsRunTheirSteps : Prop :=
  (∀ (cause t : Nat) (e : Env), (e.rst.phase = .service ∨ e.rst.phase = .recovery ∨ e.rst.phase = .bringup →
      startEntry e cause t = { e.setBackup 5 cause with
        rst := { e.rst with phase := .entry, t0 := t, step := 0, bound := e.clk.frame + 2, ready := false, stopped := false } }) ∧
    (e.rst.phase = .entry ∨ e.rst.phase = .held → startEntry e cause t = e)) ∧
  (∀ (t mv ns lowNs sensor reading : Nat) (s : State), standbyUp s.env = true →
    let e := s.env
    let drive := fun k : Nat => let e' := startEntry e 2 e.clk.now
      Host.Outcome.next (φ := Fault) (ρ := Refusal)
        ({ s with env := { e' with rst := { e'.rst with drives := sadd e'.rst.drives k } } } : State)
    let low := startEntry (e.at t) 2 t
    exec (.rstNReset t) s = .next { s with env := { low with rst := { low.rst with rstLow := true } } } ∧
    exec (.rstNRelease t) s = .next { s with env := { e.at t with rst := { e.rst with rstLow := false, drives := [] } } } ∧
    exec (.rstNGlitch lowNs) s = .next { s with w := if lowNs < 1000 then s.w.inc aResetGlitches 1 else s.w } ∧
    exec (.vinLow mv ns) s = (if mv < 39000 ∧ 2000 ≤ ns then drive 1 else .next s) ∧
    exec (.junctionTrip sensor reading) s = (if sensor < 64 ∧ 440 ≤ reading then drive 2 else .next s) ∧
    exec (.refclkLoss ns) s = (if 2000 ≤ ns then drive 3 else .next s) ∧
    exec (.standbyLost lowNs) s = .next (if 1000 ≤ lowNs then
        { s with env := { clk := { now := e.clk.now }, board := e.board, rst := { phase := .off }
                          sec := { e.sec with sessions := [], nonces := [], debugs := [], opened := 0, handover := none, switching := false } }
                 w := { out := s.w.out, ctr := s.w.ctr } }
      else s)) ∧
  (∀ (t board : Nat) (s : State), s.env.rst.phase = .off →
    let e := s.env
    let now := max e.clk.now t
    exec (.powerOn t board) s = .next { s with
      env := { clk := { start := now, next := 8000000 + now, now := now, returned := true }, board := board % 4, sec := e.sec
               keysel := triOf (keySelWord e.sec), jtag := e.jtag } }) ∧
  (∀ (mv : Nat) (v : Word) (s : State), mainRuns s.env = true →
    let e := s.env
    let c := startEntry e 2 e.clk.now
    let c := { c with rst := { c.rst with drives := sadd c.rst.drives 1, unflushed := 0, dirty := [] } }
    let h := holdMain c (dropRecords c s.w) c.rst.selfRefresh
    exec (.vinCollapse mv) s = .next (if mv < 34000 then { s with env := h.1, w := h.2 } else s) ∧
    exec (.resetWarm v) s = .next { s with env := if bitAt v.toNat 0 = true then startEntry e 8 e.clk.now else e } ∧
    (let r := resetDatum e s.w
     exec (.datumSwreset v) s = .next (if bitAt v.toNat 0 = true then { s with env := r.1, w := r.2 } else s)) ∧
    exec (.wdtKick v) s = .next { s with
      env := if bitAt v.toNat 31 = true then { e with rst := { e.rst with kick := e.clk.now } } else e
      w := s.w.setFld aDatumWdt 15 0 (bitsOf v.toNat 15 0) } ∧
    (∀ t, let r := resetDatum (e.at t) s.w
      exec (.datumWatchdog t) s = .next (if e.rst.kick + watchdogPs s.w ≤ t then { s with env := r.1, w := r.2 } else s)) ∧
    (let y := startEntry ((e.setBackup 3 0).setBackup 5 0) 7 e.clk.now
     exec (.recoveryExit .bmc) s = .next { s with
       env := if recovering e = true then y else e
       w := { s.w with out := .reply .bmc (if recovering e = true then rcOk else rcRefused) [] :: s.w.out } })) ∧
  (∀ (t : Nat) (s : State), s.env.rst.phase = .entry →
    let e := s.env
    (e.rst.step = 0 →
      let w := stopAllRings e (dropHeldSync (suspectAll e ((List.range 32).foldl (portDown e) s.w)))
      let r := endDebug e w (fun _ => true)
      exec .warmResetEntry s = .next { s with env := { r.1 with rst := { r.1.rst with step := 1 } }, w := r.2 }) ∧
    (e.rst.step = 1 → e.rst.bound ≤ e.clk.frame →
      exec .warmResetDrainEnd s = .next { s with env := { e with rst := { e.rst with step := 2 } }
                                                 w := (wrapperAnswer e s.w (fun _ => true)).2 }) ∧
    (e.rst.step = 2 →
      let ls := dirtyLines e s.w (fun _ => true)
      let u := { e.at t with rst := { e.rst with unflushed := 0, dirty := [] } }
      let w := departLinks u (flushAll (e.at t) s.w)
      let k := u.setBackup 4 ((e.backupWord 4 + 1) % 2 ^ 32)
      let h := holdMain k w (refreshed k w)
      exec .flushTimeout s = .next { s with
        env := { e with rst := { e.rst with step := 3, unflushed := ls.length, dirty := (ls.take 128).map (64 * ·) } } } ∧
      exec (.nearCacheFlushDone t) s = .next { s with env := h.1, w := h.2 } ∧ h.1.rst.phase = .held ∧ h.1.rst.ready = false)) ∧
  (∀ (t : Nat) (romOk : Bool) (s : State), mayBegin s.env = true →
    let r := bringup s.env s.w t romOk
    exec (.bringupStart t romOk) s = .next { s with env := r.1, w := r.2 } ∧ (romOk = false → r.1.rst.phase = .recovery)) ∧
  (∀ (t : Nat) (bad : List Nat) (drifts : List (Nat × Nat × Drift)) (s : State), s.env.rst.phase = .bringup →
    let e := s.env
    let r := leaveRefresh e s.w bad drifts
    let d := (e.at t).setBackup 3 0
    (e.rst.cold = false → e.rst.selfRefresh = true → e.rst.stopped = false →
      exec (.selfRefreshExit ⟨bad, drifts⟩) s = .next { s with env := r.1, w := r.2 } ∧ r.1.rst.selfRefresh = false) ∧
    (e.rst.powerOn = false → e.rst.stopped = false → memoryUp e s.w = true →
      exec (.resetDone t) s = .next { s with
        env := { d with rst := { d.rst with phase := .service, ready := true }, sec := { d.sec with provisioned := true } }
        w := raise d s.w { ty := 0x800E, dev := e.board, agent := 0x7F, specific := d.backupWord 5 } }) ∧
    (e.rst.powerOn = false → e.rst.s + 10 * 10 ^ 12 ≤ t →
      exec (.startTimeout t) s = .next { s with env := startEntry (e.at t) 6 t })) ∧
  (∀ (plots : Nat) (s : State), poolRuns s.env = true → s.env.rst.cold = true → s.env.rst.powerOn = false →
    exec (.initPass plots) s = .next { s with w := (List.range 8).foldl (fun w t => initTract w plots t) s.w })

/-- Fault rings and block resets

An enable of the firmware ring answers 0x0000 or 0x061E and starts HEAD and TAIL together, at zero or at the preserved TAIL (R600,
R597); of a host's ring 0x0000 or 0x061F, with HEAD and TAIL zero. A disable stops the writer at once (R734). HEAD is kept as
written, and freed space takes held records, an OVERFLOW record, then the FIFO (R596, R599). Only the owner's enabled device reaches
its ring: another access has Unsupported Request and a record (12 R480, R490). A record write takes one record (R592). A lost near-cache set raises 0x8005, drops its lines, poisons
those whose write-back is not recorded, and recalls its tract's Exclusive lines (R579). Block resets check Table 18-8, and an accepted one waits for its boundary; a held block
is released at the boundary after its command; the wrapper answers once per request at the second boundary (R678, R679). A record
raised with room in the FIFO is kept in order with its frame (R591). -/
def Obligations.FaultRingsAndBlockResets : Prop :=
  (∀ (v : Word) (s : State), poolRuns s.env = true →
    let e := s.env
    (s.w.fld aFaultFwCtl 31 31 = 0 →
      let w := s.w.setReg aFaultFwCtl (bitsOf v.toNat 4 0)
      let code := fwCheck e w
      let u := w.setFld aFaultStatus 15 0 code
      let t := u.flt.keepTail.getD 0
      let y := ((u.setReg aFaultFwTail t).setReg aFaultFwHead t).setFld aFaultFwCtl 31 31 1
      let y := { y with flt := { y.flt with keepTail := none } }
      exec (.faultFwEnable v) s = .next { s with w := if code = 0 then fwOverflow e (fwHeld e (owedCopies e y) 64) else u } ∧
      (code = 0 ∨ code = 0x061E) ∧ (code = 0 → w.reg2 aFaultFwBase % 4096 = 0 ∧ 8 ≤ w.fld aFaultFwCtl 4 0 ∧ w.fld aFaultFwCtl 4 0 ≤ 20) ∧
      exec (.faultFwDisable v) s = .next { s with w := w }) ∧
    (s.w.fld aFaultFwCtl 31 31 = 1 →
      exec (.faultFwEnable v) s = .next s ∧ exec (.faultFwDisable v) s = .next { s with w := s.w.setFld aFaultFwCtl 31 31 0 } ∧
      exec .faultRecordWrite s = .next { s with w := writeRecs e (owedCopies e s.w) false 1 }) ∧
    (let w := s.w.setReg aFaultFwHead v.toNat
     exec (.faultFwHead v) s = .next { s with
       w := if fwRingOn w = true ∧ fwFull w = false then writeRecs e (fwOverflow e (fwHeld e (owedCopies e w) 64)) false 256 else w })) ∧
  (∀ (e : Env) (w : Work) (r : FaultRec), mergeRec w.flt.fifo { r with frame := e.clk.frame } = none → w.flt.fifo.length < 256 →
    raise e w r = { w with flt := { w.flt with fifo := w.flt.fifo ++ [{ r with frame := e.clk.frame }] } }) ∧
  (∀ (a : Nat) (v : Word) (s : State), poolRuns s.env = true → ldReachable s.w a = true → ldOpen s.w a = true →
    (s.w.hfld a hFaultHostCtl 31 31 = 0 →
      let w := s.w.setHfld a hFaultHostCtl 4 0 (bitsOf v.toNat 4 0)
      let code := hostRingCheck w a
      let u := w.setHreg a hFaultHostStatus code
      let y := ((u.setHreg a hFaultHostHead 0).setHreg a hFaultHostTail 0)
      let y := y.setHreg a hFaultHostCtl (2 ^ 31 + u.hfld a hFaultHostCtl 4 0)
      exec (.faultHostEnable a v) s = .next { s with
        w := if code = 0 then
            { y with flt := { y.flt with
                hostGen := mset y.flt.hostGen a (eGen (cadEntry y (y.hfld a hFaultHostParcel 15 0)))
                hostDrops := mdel y.flt.hostDrops a
                hostFirst := mdel y.flt.hostFirst a } }
          else u } ∧ (code = 0 ∨ code = 0x061F) ∧
      exec (.faultHostDisable a v) s = .next { s with w := w }) ∧
    (s.w.hfld a hFaultHostCtl 31 31 = 1 →
      exec (.faultHostEnable a v) s = .next s ∧
      exec (.faultHostDisable a v) s = .next { s with w := s.w.setHfld a hFaultHostCtl 31 31 0 }) ∧
    exec (.faultHostHead a v) s = .next { s with w := hostOverflow s.env (s.w.setHreg a hFaultHostHead v.toNat) a }) ∧
  (∀ (a : Nat) (v : Word) (s : State), poolRuns s.env = true → ldReachable s.w a = true → ldOpen s.w a = false →
    let ty := if (s.w.ld a).enabled then 0x7005 else 0x7006
    let t := { s with w := (portRecord s.env s.w a ty).emit (.hostUr a 0) }
    exec (.faultHostEnable a v) s = .next t ∧ exec (.faultHostDisable a v) s = .next t ∧ exec (.faultHostHead a v) s = .next t) ∧
  (∀ (t k : Nat) (s : State), poolRuns s.env = true →
    let e := s.env
    let w := raise e s.w { ty := 0x8005, sev := 1, unit := 9 * 2 ^ 24 + t }
    let ls := (w.pool.nc.map (fun x => (x.1 / 2 ^ 42, x.1 % 2 ^ 42))).filter (fun x => ncSet x.2 == k && tractOf w (64 * x.2) == t)
    let gone := fun (w : Work) (x : Nat × Nat) =>
      match ncGet w x.1 x.2 with
      | none => w
      | some n => if x.1 ≠ e.board then proxyDrop e (ncPut w x.1 x.2 { n with poison := n.poison || n.dirty }) x.1 x.2
          else if n.dirty = true then poisonLine e w n.parcel x.2 else ncDrop w e.board x.2
    let v := ls.foldl gone w
    let back := fun (w : Work) (l : Nat) => openReq e w
      { op := .recall, dev := e.board, agent := 0x7F, tag := l % 2 ^ 16, frame := e.clk.frame, parcel := (dirGet w l).parcel
        gen := eGen (cadEntry w (dirGet w l).parcel), off := 0, line := l } none
    exec (.nearCacheSetSweep t k false) s = .next s ∧
    exec (.nearCacheSetSweep t k true) s = .next { s with
      w := (exclusiveLines v t).foldl (fun w l => if (findTxn w l).isSome = true then w else settle e (back w l) 16) v }) ∧
  (∀ (i : Nat) (hold : Bool) (s : State), mainRuns s.env = true → i < 128 →
    let run := fun kind : Nat =>
      let v := 2 ^ 31 + (if hold = true then 2 ^ 30 else 0) + 2 ^ 27 * kind + i
      let code := blockCheck s.env kind i
      let u := (s.w.setReg aResetBlockCtl (v - 2 ^ 31)).setFld aResetStatus 15 0 code
      { s with w := if code = 0 then blockGo s.env u kind i hold else u }
    exec (.blockResetTun i hold) s = .next (run 1) ∧ exec (.blockResetPort i hold) s = .next (run 2) ∧
    exec (.blockResetTract i hold) s = .next (run 3) ∧ exec (.blockResetChannel i hold) s = .next (run 4) ∧
    exec (.blockResetDaoth i hold) s = .next (run 5)) ∧
  (∀ (e : Env) (w : Work) (kind i : Nat) (hold : Bool), getBlock w kind i = none →
    (blockCheck e kind i = 0 ↔ (kind = 1 ∧ i < 32) ∨ (kind = 2 ∧ i < 32 ∧ (recovering e = true → i ≠ recoveryPort e)) ∨
      (kind = 3 ∧ i < 8) ∨ (kind = 4 ∧ i < 80) ∨ (kind = 5 ∧ i < 8 ∧ i % 4 ≠ 3)) ∧
    blockGo e w kind i hold = { w with blocks := w.blocks ++ [{ kind := kind, inst := i, hold := hold, since := none, free := none }] }) ∧
  (∀ (kind i f : Nat) (b : BlockRst) (s : State), mainRuns s.env = true → getBlock s.w kind i = some b → b.since = some f →
    exec (.blockRelease kind i) s = .next { s with w := blockCtlWrite s.env s.w (2 ^ 31 + 0 + 2 ^ 27 * kind + i % 128) } ∧
    (b.free = none → blockGo s.env s.w kind i false = putBlock s.w { b with hold := false, free := some (s.env.clk.frame + 1) }) ∧
    (s.env.clk.frame < f + 2 → exec (.isolationWrapperAnswer kind i) s = .next s) ∧
    (f + 2 ≤ s.env.clk.frame →
      let rs := blockReqs s.env s.w kind i
      let x := wrapperAnswer s.env { s.w with home := { s.w.home with cancelled := s.w.home.cancelled ++ rs.filterMap (·.tile) } } rs.contains
      exec (.isolationWrapperAnswer kind i) s = .next { s with w := putBlock x.2 { b with answered := b.answered + x.1 } }))
end

