-- ==== Sys2Proof/Laws/Memory.lean ====
section
/-! SUPPORT. Sparse maps and pool memory: a read after a write, what a write leaves alone, and the canonical form. -/

namespace Sys2Proof.Machine

/-! ### Sparse maps -/

theorem mget_mset_same {α : Type} (m : AMap α) (k : Nat) (v : α) : mget (mset m k v) k = some v := by
  induction m with
  | nil => simp [mset, mget]
  | cons x r ih =>
    obtain ⟨i, y⟩ := x
    simp only [mset]
    split
    · simp only [mget, ih, if_neg (show i ≠ k by omega)]
    · split <;> simp [mget]

theorem mget_mset_ne {α : Type} (m : AMap α) (k j : Nat) (v : α) (h : j ≠ k) : mget (mset m k v) j = mget m j := by
  induction m with
  | nil => simp [mset, mget, h.symm]
  | cons x r ih =>
    obtain ⟨i, y⟩ := x
    simp only [mset]
    split
    · simp [mget, ih]
    · split
      · next _ e => subst e; simp [mget, h.symm]
      · simp [mget, h.symm]

theorem mget_mdel_same {α : Type} (m : AMap α) (k : Nat) : mget (mdel m k) k = none := by
  induction m with
  | nil => rfl
  | cons x r ih =>
    obtain ⟨i, y⟩ := x
    simp only [mdel, List.filter_cons] at ih ⊢
    split
    · next h => simp only [mget, if_neg (show i ≠ k by simpa using h), ih]
    · exact ih

theorem mget_mdel_ne {α : Type} (m : AMap α) (k j : Nat) (h : j ≠ k) : mget (mdel m k) j = mget m j := by
  induction m with
  | nil => rfl
  | cons x r ih =>
    obtain ⟨i, y⟩ := x
    simp only [mdel, List.filter_cons] at ih ⊢
    split
    · simp only [mget, ih]
    · next e =>
      have : i = k := by simpa using e
      subst this
      simp only [mget, if_neg (Ne.symm h), ih]

theorem mapWfFrom_le {α : Type} {m : AMap α} {a b : Nat} (h : mapWfFrom b m = true) (hab : a ≤ b) : mapWfFrom a m = true := by
  cases m with
  | nil => rfl
  | cons x r =>
    obtain ⟨i, y⟩ := x
    simp only [mapWfFrom, Bool.and_eq_true, decide_eq_true_eq] at h ⊢
    exact ⟨by omega, h.2⟩

theorem mapWfFrom_mset {α : Type} (m : AMap α) (lo k : Nat) (v : α) (h : mapWfFrom lo m = true) (hk : lo ≤ k) :
    mapWfFrom lo (mset m k v) = true := by
  induction m generalizing lo with
  | nil => simp [mset, mapWfFrom, hk]
  | cons x r ih =>
    obtain ⟨i, y⟩ := x
    simp only [mapWfFrom, Bool.and_eq_true, decide_eq_true_eq] at h
    simp only [mset]
    split
    · simp only [mapWfFrom, Bool.and_eq_true, decide_eq_true_eq]
      exact ⟨h.1, ih _ h.2 (by omega)⟩
    · split
      · next e => subst e; simp [mapWfFrom, h]
      · simp only [mapWfFrom, Bool.and_eq_true, decide_eq_true_eq]
        exact ⟨hk, by omega, h.2⟩

theorem mapWf_mset {α : Type} (m : AMap α) (k : Nat) (v : α) (h : mapWf m = true) : mapWf (mset m k v) = true :=
  mapWfFrom_mset m 0 k v h (Nat.zero_le k)

theorem mapWfFrom_filter {α : Type} (m : AMap α) (p : Nat × α → Bool) (lo : Nat) (h : mapWfFrom lo m = true) :
    mapWfFrom lo (m.filter p) = true := by
  induction m generalizing lo with
  | nil => rfl
  | cons x r ih =>
    obtain ⟨i, y⟩ := x
    simp only [mapWfFrom, Bool.and_eq_true, decide_eq_true_eq] at h
    simp only [List.filter_cons]
    split
    · simp only [mapWfFrom, Bool.and_eq_true, decide_eq_true_eq]
      exact ⟨h.1, ih _ h.2⟩
    · exact mapWfFrom_le (ih _ h.2) (by omega)

theorem mapWf_mdel {α : Type} (m : AMap α) (k : Nat) (h : mapWf m = true) : mapWf (mdel m k) = true :=
  mapWfFrom_filter m _ 0 h

/-! ### Pool memory -/

theorem memRd_memIns_same (m : List Host.Cell) (a : Nat) (b : Byte) : memRd (memIns m a b) a = b := by
  induction m with
  | nil => simp [memIns, memRd]
  | cons x r ih =>
    obtain ⟨i, y⟩ := x
    simp only [memIns]
    split
    · simp only [memRd, ih, if_neg (show i ≠ a by omega)]
    · split <;> simp [memRd]

theorem memRd_memIns_ne (m : List Host.Cell) (a j : Nat) (b : Byte) (h : j ≠ a) : memRd (memIns m a b) j = memRd m j := by
  induction m with
  | nil => simp [memIns, memRd, h.symm]
  | cons x r ih =>
    obtain ⟨i, y⟩ := x
    simp only [memIns]
    split
    · simp [memRd, ih]
    · split
      · next _ e => subst e; simp [memRd, h.symm]
      · simp [memRd, h.symm]

theorem memRd_filter_same (m : List Host.Cell) (a : Nat) : memRd (m.filter (fun x => x.1 != a)) a = memDefault := by
  induction m with
  | nil => rfl
  | cons x r ih =>
    obtain ⟨i, y⟩ := x
    simp only [List.filter_cons]
    split
    · next h => simp only [memRd, if_neg (show i ≠ a by simpa using h), ih]
    · exact ih

theorem memRd_filter_ne (m : List Host.Cell) (a j : Nat) (h : j ≠ a) : memRd (m.filter (fun x => x.1 != a)) j = memRd m j := by
  induction m with
  | nil => rfl
  | cons x r ih =>
    obtain ⟨i, y⟩ := x
    simp only [List.filter_cons]
    split
    · simp only [memRd, ih]
    · next e =>
      have : i = a := by simpa using e
      subst this
      simp only [memRd, if_neg (Ne.symm h), ih]

/-- A read after a write of the same byte. -/
theorem memRd_memWr_same (m : List Host.Cell) (a : Nat) (b : Byte) : memRd (memWr m a b) a = b := by
  unfold memWr
  split
  · next h => rw [memRd_filter_same, h]
  · exact memRd_memIns_same m a b

/-- A write leaves every other byte alone. -/
theorem memRd_memWr_ne (m : List Host.Cell) (a j : Nat) (b : Byte) (h : j ≠ a) : memRd (memWr m a b) j = memRd m j := by
  unfold memWr
  split
  · exact memRd_filter_ne m a j h
  · exact memRd_memIns_ne m a j b h

theorem memWfFrom_le {m : List Host.Cell} {a b : Nat} (h : memWfFrom b m = true) (hab : a ≤ b) : memWfFrom a m = true := by
  cases m with
  | nil => rfl
  | cons x r =>
    obtain ⟨i, y⟩ := x
    simp only [memWfFrom, Bool.and_eq_true, decide_eq_true_eq] at h ⊢
    exact ⟨⟨by omega, h.1.2⟩, h.2⟩

theorem memWfFrom_memIns (m : List Host.Cell) (lo a : Nat) (b : Byte) (h : memWfFrom lo m = true) (ha : lo ≤ a)
    (hb : b ≠ memDefault) : memWfFrom lo (memIns m a b) = true := by
  induction m generalizing lo with
  | nil => simp [memIns, memWfFrom, ha, hb]
  | cons x r ih =>
    obtain ⟨i, y⟩ := x
    simp only [memWfFrom, Bool.and_eq_true, decide_eq_true_eq] at h
    simp only [memIns]
    split
    · simp only [memWfFrom, Bool.and_eq_true, decide_eq_true_eq]
      exact ⟨h.1, ih _ h.2 (by omega)⟩
    · split
      · next e => subst e; simp [memWfFrom, h, hb]
      · simp only [memWfFrom, Bool.and_eq_true, decide_eq_true_eq]
        exact ⟨⟨ha, hb⟩, ⟨by omega, h.1.2⟩, h.2⟩

theorem memWfFrom_filter (m : List Host.Cell) (p : Host.Cell → Bool) (lo : Nat) (h : memWfFrom lo m = true) :
    memWfFrom lo (m.filter p) = true := by
  induction m generalizing lo with
  | nil => rfl
  | cons x r ih =>
    obtain ⟨i, y⟩ := x
    simp only [memWfFrom, Bool.and_eq_true, decide_eq_true_eq] at h
    simp only [List.filter_cons]
    split
    · simp only [memWfFrom, Bool.and_eq_true, decide_eq_true_eq]
      exact ⟨h.1, ih _ h.2⟩
    · exact memWfFrom_le (ih _ h.2) (by omega)

/-- A write of a byte keeps the canonical form. -/
theorem memWr_wf (m : List Host.Cell) (a : Nat) (b : Byte) (h : Memory.wf m = true) : Memory.wf (memWr m a b) = true := by
  unfold memWr
  split
  · exact memWfFrom_filter m _ 0 h
  · next hb => exact memWfFrom_memIns m 0 a b h (Nat.zero_le a) hb

/-- A write of several bytes keeps the canonical form. -/
theorem memPut_wf (m : List Host.Cell) (a n v : Nat) (h : Memory.wf m = true) : Memory.wf (memPut m a n v) = true := by
  induction n generalizing m a v with
  | zero => exact h
  | succ k ih => exact ih _ _ _ (memWr_wf m a _ h)

/-- A write of a line keeps the canonical form. -/
theorem memPutLine_wf (m : List Host.Cell) (l : Nat) (d : Line) (h : Memory.wf m = true) : Memory.wf (memPutLine m l d) = true :=
  memPut_wf m _ _ _ h

/-- A write of several bytes leaves every byte outside them alone. -/
theorem memRd_memPut_ne (m : List Host.Cell) (a n v j : Nat) (h : j < a ∨ a + n ≤ j) : memRd (memPut m a n v) j = memRd m j := by
  induction n generalizing m a v with
  | zero => rfl
  | succ k ih =>
    simp only [memPut]
    rw [ih _ _ _ (by omega), memRd_memWr_ne _ _ _ _ (by omega)]

/-- The bytes read back after a write of a number. -/
theorem memNat_memPut (m : List Host.Cell) (a n v : Nat) : memNat (memPut m a n v) a n = v % 256 ^ n := by
  induction n generalizing m a v with
  | zero => simp [memNat, Nat.mod_one]
  | succ k ih =>
    simp only [memPut, memNat]
    rw [ih, memRd_memPut_ne _ _ _ _ _ (by omega), memRd_memWr_same]
    rw [show (256 : Nat) ^ (k + 1) = 256 * 256 ^ k by rw [Nat.pow_succ, Nat.mul_comm], Nat.mod_mul]
    simp

end Sys2Proof.Machine
end

