-- ==== Sys2Proof/Laws/State.lean ====
section
/-! SUPPORT. What the named updates of `Work` change: one lemma for each field. -/

namespace Sys2Proof.Machine

/-! ### Storing a register word -/

@[simp] theorem Work.setReg_live (w : Work) (a v : Nat) : (w.setReg a v).live = w.live := rfl
@[simp] theorem Work.setReg_hregs (w : Work) (a v : Nat) : (w.setReg a v).hregs = w.hregs := rfl
@[simp] theorem Work.setReg_half (w : Work) (a v : Nat) : (w.setReg a v).half = w.half := rfl
@[simp] theorem Work.setReg_due (w : Work) (a v : Nat) : (w.setReg a v).due = w.due := rfl
@[simp] theorem Work.setReg_pool (w : Work) (a v : Nat) : (w.setReg a v).pool = w.pool := rfl
@[simp] theorem Work.setReg_dir (w : Work) (a v : Nat) : (w.setReg a v).dir = w.dir := rfl
@[simp] theorem Work.setReg_home (w : Work) (a v : Nat) : (w.setReg a v).home = w.home := rfl
@[simp] theorem Work.setReg_flt (w : Work) (a v : Nat) : (w.setReg a v).flt = w.flt := rfl
@[simp] theorem Work.setReg_chans (w : Work) (a v : Nat) : (w.setReg a v).chans = w.chans := rfl
@[simp] theorem Work.setReg_mash (w : Work) (a v : Nat) : (w.setReg a v).mash = w.mash := rfl
@[simp] theorem Work.setReg_xlat (w : Work) (a v : Nat) : (w.setReg a v).xlat = w.xlat := rfl
@[simp] theorem Work.setReg_sync (w : Work) (a v : Nat) : (w.setReg a v).sync = w.sync := rfl
@[simp] theorem Work.setReg_kiln (w : Work) (a v : Nat) : (w.setReg a v).kiln = w.kiln := rfl
@[simp] theorem Work.setReg_ports (w : Work) (a v : Nat) : (w.setReg a v).ports = w.ports := rfl
@[simp] theorem Work.setReg_qos (w : Work) (a v : Nat) : (w.setReg a v).qos = w.qos := rfl
@[simp] theorem Work.setReg_links (w : Work) (a v : Nat) : (w.setReg a v).links = w.links := rfl
@[simp] theorem Work.setReg_vorir (w : Work) (a v : Nat) : (w.setReg a v).vorir = w.vorir := rfl
@[simp] theorem Work.setReg_ops (w : Work) (a v : Nat) : (w.setReg a v).ops = w.ops := rfl
@[simp] theorem Work.setReg_blocks (w : Work) (a v : Nat) : (w.setReg a v).blocks = w.blocks := rfl
@[simp] theorem Work.setReg_out (w : Work) (a v : Nat) : (w.setReg a v).out = w.out := rfl
@[simp] theorem Work.setReg_ctr (w : Work) (a v : Nat) : (w.setReg a v).ctr = w.ctr := rfl

/-! ### Storing a value in force -/

@[simp] theorem Work.setLiv_regs (w : Work) (a v : Nat) : (w.setLiv a v).regs = w.regs := rfl
@[simp] theorem Work.setLiv_hregs (w : Work) (a v : Nat) : (w.setLiv a v).hregs = w.hregs := rfl
@[simp] theorem Work.setLiv_half (w : Work) (a v : Nat) : (w.setLiv a v).half = w.half := rfl
@[simp] theorem Work.setLiv_due (w : Work) (a v : Nat) : (w.setLiv a v).due = w.due := rfl
@[simp] theorem Work.setLiv_pool (w : Work) (a v : Nat) : (w.setLiv a v).pool = w.pool := rfl
@[simp] theorem Work.setLiv_dir (w : Work) (a v : Nat) : (w.setLiv a v).dir = w.dir := rfl
@[simp] theorem Work.setLiv_home (w : Work) (a v : Nat) : (w.setLiv a v).home = w.home := rfl
@[simp] theorem Work.setLiv_flt (w : Work) (a v : Nat) : (w.setLiv a v).flt = w.flt := rfl
@[simp] theorem Work.setLiv_chans (w : Work) (a v : Nat) : (w.setLiv a v).chans = w.chans := rfl
@[simp] theorem Work.setLiv_mash (w : Work) (a v : Nat) : (w.setLiv a v).mash = w.mash := rfl
@[simp] theorem Work.setLiv_xlat (w : Work) (a v : Nat) : (w.setLiv a v).xlat = w.xlat := rfl
@[simp] theorem Work.setLiv_sync (w : Work) (a v : Nat) : (w.setLiv a v).sync = w.sync := rfl
@[simp] theorem Work.setLiv_kiln (w : Work) (a v : Nat) : (w.setLiv a v).kiln = w.kiln := rfl
@[simp] theorem Work.setLiv_ports (w : Work) (a v : Nat) : (w.setLiv a v).ports = w.ports := rfl
@[simp] theorem Work.setLiv_qos (w : Work) (a v : Nat) : (w.setLiv a v).qos = w.qos := rfl
@[simp] theorem Work.setLiv_links (w : Work) (a v : Nat) : (w.setLiv a v).links = w.links := rfl
@[simp] theorem Work.setLiv_vorir (w : Work) (a v : Nat) : (w.setLiv a v).vorir = w.vorir := rfl
@[simp] theorem Work.setLiv_ops (w : Work) (a v : Nat) : (w.setLiv a v).ops = w.ops := rfl
@[simp] theorem Work.setLiv_blocks (w : Work) (a v : Nat) : (w.setLiv a v).blocks = w.blocks := rfl
@[simp] theorem Work.setLiv_out (w : Work) (a v : Nat) : (w.setLiv a v).out = w.out := rfl
@[simp] theorem Work.setLiv_ctr (w : Work) (a v : Nat) : (w.setLiv a v).ctr = w.ctr := rfl

/-! ### Storing a word of a host page -/

@[simp] theorem Work.setHreg_regs (w : Work) (a off v : Nat) : (w.setHreg a off v).regs = w.regs := rfl
@[simp] theorem Work.setHreg_live (w : Work) (a off v : Nat) : (w.setHreg a off v).live = w.live := rfl
@[simp] theorem Work.setHreg_half (w : Work) (a off v : Nat) : (w.setHreg a off v).half = w.half := rfl
@[simp] theorem Work.setHreg_due (w : Work) (a off v : Nat) : (w.setHreg a off v).due = w.due := rfl
@[simp] theorem Work.setHreg_pool (w : Work) (a off v : Nat) : (w.setHreg a off v).pool = w.pool := rfl
@[simp] theorem Work.setHreg_dir (w : Work) (a off v : Nat) : (w.setHreg a off v).dir = w.dir := rfl
@[simp] theorem Work.setHreg_home (w : Work) (a off v : Nat) : (w.setHreg a off v).home = w.home := rfl
@[simp] theorem Work.setHreg_flt (w : Work) (a off v : Nat) : (w.setHreg a off v).flt = w.flt := rfl
@[simp] theorem Work.setHreg_chans (w : Work) (a off v : Nat) : (w.setHreg a off v).chans = w.chans := rfl
@[simp] theorem Work.setHreg_mash (w : Work) (a off v : Nat) : (w.setHreg a off v).mash = w.mash := rfl
@[simp] theorem Work.setHreg_xlat (w : Work) (a off v : Nat) : (w.setHreg a off v).xlat = w.xlat := rfl
@[simp] theorem Work.setHreg_sync (w : Work) (a off v : Nat) : (w.setHreg a off v).sync = w.sync := rfl
@[simp] theorem Work.setHreg_kiln (w : Work) (a off v : Nat) : (w.setHreg a off v).kiln = w.kiln := rfl
@[simp] theorem Work.setHreg_ports (w : Work) (a off v : Nat) : (w.setHreg a off v).ports = w.ports := rfl
@[simp] theorem Work.setHreg_qos (w : Work) (a off v : Nat) : (w.setHreg a off v).qos = w.qos := rfl
@[simp] theorem Work.setHreg_links (w : Work) (a off v : Nat) : (w.setHreg a off v).links = w.links := rfl
@[simp] theorem Work.setHreg_vorir (w : Work) (a off v : Nat) : (w.setHreg a off v).vorir = w.vorir := rfl
@[simp] theorem Work.setHreg_ops (w : Work) (a off v : Nat) : (w.setHreg a off v).ops = w.ops := rfl
@[simp] theorem Work.setHreg_blocks (w : Work) (a off v : Nat) : (w.setHreg a off v).blocks = w.blocks := rfl
@[simp] theorem Work.setHreg_out (w : Work) (a off v : Nat) : (w.setHreg a off v).out = w.out := rfl
@[simp] theorem Work.setHreg_ctr (w : Work) (a off v : Nat) : (w.setHreg a off v).ctr = w.ctr := rfl

/-! ### Storing a field of a register -/

@[simp] theorem Work.setFld_live (w : Work) (a hi lo v : Nat) : (w.setFld a hi lo v).live = w.live := rfl
@[simp] theorem Work.setFld_hregs (w : Work) (a hi lo v : Nat) : (w.setFld a hi lo v).hregs = w.hregs := rfl
@[simp] theorem Work.setFld_half (w : Work) (a hi lo v : Nat) : (w.setFld a hi lo v).half = w.half := rfl
@[simp] theorem Work.setFld_due (w : Work) (a hi lo v : Nat) : (w.setFld a hi lo v).due = w.due := rfl
@[simp] theorem Work.setFld_pool (w : Work) (a hi lo v : Nat) : (w.setFld a hi lo v).pool = w.pool := rfl
@[simp] theorem Work.setFld_dir (w : Work) (a hi lo v : Nat) : (w.setFld a hi lo v).dir = w.dir := rfl
@[simp] theorem Work.setFld_home (w : Work) (a hi lo v : Nat) : (w.setFld a hi lo v).home = w.home := rfl
@[simp] theorem Work.setFld_flt (w : Work) (a hi lo v : Nat) : (w.setFld a hi lo v).flt = w.flt := rfl
@[simp] theorem Work.setFld_chans (w : Work) (a hi lo v : Nat) : (w.setFld a hi lo v).chans = w.chans := rfl
@[simp] theorem Work.setFld_mash (w : Work) (a hi lo v : Nat) : (w.setFld a hi lo v).mash = w.mash := rfl
@[simp] theorem Work.setFld_xlat (w : Work) (a hi lo v : Nat) : (w.setFld a hi lo v).xlat = w.xlat := rfl
@[simp] theorem Work.setFld_sync (w : Work) (a hi lo v : Nat) : (w.setFld a hi lo v).sync = w.sync := rfl
@[simp] theorem Work.setFld_kiln (w : Work) (a hi lo v : Nat) : (w.setFld a hi lo v).kiln = w.kiln := rfl
@[simp] theorem Work.setFld_ports (w : Work) (a hi lo v : Nat) : (w.setFld a hi lo v).ports = w.ports := rfl
@[simp] theorem Work.setFld_qos (w : Work) (a hi lo v : Nat) : (w.setFld a hi lo v).qos = w.qos := rfl
@[simp] theorem Work.setFld_links (w : Work) (a hi lo v : Nat) : (w.setFld a hi lo v).links = w.links := rfl
@[simp] theorem Work.setFld_vorir (w : Work) (a hi lo v : Nat) : (w.setFld a hi lo v).vorir = w.vorir := rfl
@[simp] theorem Work.setFld_ops (w : Work) (a hi lo v : Nat) : (w.setFld a hi lo v).ops = w.ops := rfl
@[simp] theorem Work.setFld_blocks (w : Work) (a hi lo v : Nat) : (w.setFld a hi lo v).blocks = w.blocks := rfl
@[simp] theorem Work.setFld_out (w : Work) (a hi lo v : Nat) : (w.setFld a hi lo v).out = w.out := rfl
@[simp] theorem Work.setFld_ctr (w : Work) (a hi lo v : Nat) : (w.setFld a hi lo v).ctr = w.ctr := rfl

/-! ### Storing the bits of a mask -/

@[simp] theorem Work.setMask_live (w : Work) (a m v : Nat) : (w.setMask a m v).live = w.live := rfl
@[simp] theorem Work.setMask_hregs (w : Work) (a m v : Nat) : (w.setMask a m v).hregs = w.hregs := rfl
@[simp] theorem Work.setMask_half (w : Work) (a m v : Nat) : (w.setMask a m v).half = w.half := rfl
@[simp] theorem Work.setMask_due (w : Work) (a m v : Nat) : (w.setMask a m v).due = w.due := rfl
@[simp] theorem Work.setMask_pool (w : Work) (a m v : Nat) : (w.setMask a m v).pool = w.pool := rfl
@[simp] theorem Work.setMask_dir (w : Work) (a m v : Nat) : (w.setMask a m v).dir = w.dir := rfl
@[simp] theorem Work.setMask_home (w : Work) (a m v : Nat) : (w.setMask a m v).home = w.home := rfl
@[simp] theorem Work.setMask_flt (w : Work) (a m v : Nat) : (w.setMask a m v).flt = w.flt := rfl
@[simp] theorem Work.setMask_chans (w : Work) (a m v : Nat) : (w.setMask a m v).chans = w.chans := rfl
@[simp] theorem Work.setMask_mash (w : Work) (a m v : Nat) : (w.setMask a m v).mash = w.mash := rfl
@[simp] theorem Work.setMask_xlat (w : Work) (a m v : Nat) : (w.setMask a m v).xlat = w.xlat := rfl
@[simp] theorem Work.setMask_sync (w : Work) (a m v : Nat) : (w.setMask a m v).sync = w.sync := rfl
@[simp] theorem Work.setMask_kiln (w : Work) (a m v : Nat) : (w.setMask a m v).kiln = w.kiln := rfl
@[simp] theorem Work.setMask_ports (w : Work) (a m v : Nat) : (w.setMask a m v).ports = w.ports := rfl
@[simp] theorem Work.setMask_qos (w : Work) (a m v : Nat) : (w.setMask a m v).qos = w.qos := rfl
@[simp] theorem Work.setMask_links (w : Work) (a m v : Nat) : (w.setMask a m v).links = w.links := rfl
@[simp] theorem Work.setMask_vorir (w : Work) (a m v : Nat) : (w.setMask a m v).vorir = w.vorir := rfl
@[simp] theorem Work.setMask_ops (w : Work) (a m v : Nat) : (w.setMask a m v).ops = w.ops := rfl
@[simp] theorem Work.setMask_blocks (w : Work) (a m v : Nat) : (w.setMask a m v).blocks = w.blocks := rfl
@[simp] theorem Work.setMask_out (w : Work) (a m v : Nat) : (w.setMask a m v).out = w.out := rfl
@[simp] theorem Work.setMask_ctr (w : Work) (a m v : Nat) : (w.setMask a m v).ctr = w.ctr := rfl

/-! ### Storing two consecutive registers -/

@[simp] theorem Work.setReg2_live (w : Work) (a v : Nat) : (w.setReg2 a v).live = w.live := rfl
@[simp] theorem Work.setReg2_hregs (w : Work) (a v : Nat) : (w.setReg2 a v).hregs = w.hregs := rfl
@[simp] theorem Work.setReg2_half (w : Work) (a v : Nat) : (w.setReg2 a v).half = w.half := rfl
@[simp] theorem Work.setReg2_due (w : Work) (a v : Nat) : (w.setReg2 a v).due = w.due := rfl
@[simp] theorem Work.setReg2_pool (w : Work) (a v : Nat) : (w.setReg2 a v).pool = w.pool := rfl
@[simp] theorem Work.setReg2_dir (w : Work) (a v : Nat) : (w.setReg2 a v).dir = w.dir := rfl
@[simp] theorem Work.setReg2_home (w : Work) (a v : Nat) : (w.setReg2 a v).home = w.home := rfl
@[simp] theorem Work.setReg2_flt (w : Work) (a v : Nat) : (w.setReg2 a v).flt = w.flt := rfl
@[simp] theorem Work.setReg2_chans (w : Work) (a v : Nat) : (w.setReg2 a v).chans = w.chans := rfl
@[simp] theorem Work.setReg2_mash (w : Work) (a v : Nat) : (w.setReg2 a v).mash = w.mash := rfl
@[simp] theorem Work.setReg2_xlat (w : Work) (a v : Nat) : (w.setReg2 a v).xlat = w.xlat := rfl
@[simp] theorem Work.setReg2_sync (w : Work) (a v : Nat) : (w.setReg2 a v).sync = w.sync := rfl
@[simp] theorem Work.setReg2_kiln (w : Work) (a v : Nat) : (w.setReg2 a v).kiln = w.kiln := rfl
@[simp] theorem Work.setReg2_ports (w : Work) (a v : Nat) : (w.setReg2 a v).ports = w.ports := rfl
@[simp] theorem Work.setReg2_qos (w : Work) (a v : Nat) : (w.setReg2 a v).qos = w.qos := rfl
@[simp] theorem Work.setReg2_links (w : Work) (a v : Nat) : (w.setReg2 a v).links = w.links := rfl
@[simp] theorem Work.setReg2_vorir (w : Work) (a v : Nat) : (w.setReg2 a v).vorir = w.vorir := rfl
@[simp] theorem Work.setReg2_ops (w : Work) (a v : Nat) : (w.setReg2 a v).ops = w.ops := rfl
@[simp] theorem Work.setReg2_blocks (w : Work) (a v : Nat) : (w.setReg2 a v).blocks = w.blocks := rfl
@[simp] theorem Work.setReg2_out (w : Work) (a v : Nat) : (w.setReg2 a v).out = w.out := rfl
@[simp] theorem Work.setReg2_ctr (w : Work) (a v : Nat) : (w.setReg2 a v).ctr = w.ctr := rfl

/-! ### Counting in a register -/

@[simp] theorem Work.inc_live (w : Work) (a n : Nat) : (w.inc a n).live = w.live := rfl
@[simp] theorem Work.inc_hregs (w : Work) (a n : Nat) : (w.inc a n).hregs = w.hregs := rfl
@[simp] theorem Work.inc_half (w : Work) (a n : Nat) : (w.inc a n).half = w.half := rfl
@[simp] theorem Work.inc_due (w : Work) (a n : Nat) : (w.inc a n).due = w.due := rfl
@[simp] theorem Work.inc_pool (w : Work) (a n : Nat) : (w.inc a n).pool = w.pool := rfl
@[simp] theorem Work.inc_dir (w : Work) (a n : Nat) : (w.inc a n).dir = w.dir := rfl
@[simp] theorem Work.inc_home (w : Work) (a n : Nat) : (w.inc a n).home = w.home := rfl
@[simp] theorem Work.inc_flt (w : Work) (a n : Nat) : (w.inc a n).flt = w.flt := rfl
@[simp] theorem Work.inc_chans (w : Work) (a n : Nat) : (w.inc a n).chans = w.chans := rfl
@[simp] theorem Work.inc_mash (w : Work) (a n : Nat) : (w.inc a n).mash = w.mash := rfl
@[simp] theorem Work.inc_xlat (w : Work) (a n : Nat) : (w.inc a n).xlat = w.xlat := rfl
@[simp] theorem Work.inc_sync (w : Work) (a n : Nat) : (w.inc a n).sync = w.sync := rfl
@[simp] theorem Work.inc_kiln (w : Work) (a n : Nat) : (w.inc a n).kiln = w.kiln := rfl
@[simp] theorem Work.inc_ports (w : Work) (a n : Nat) : (w.inc a n).ports = w.ports := rfl
@[simp] theorem Work.inc_qos (w : Work) (a n : Nat) : (w.inc a n).qos = w.qos := rfl
@[simp] theorem Work.inc_links (w : Work) (a n : Nat) : (w.inc a n).links = w.links := rfl
@[simp] theorem Work.inc_vorir (w : Work) (a n : Nat) : (w.inc a n).vorir = w.vorir := rfl
@[simp] theorem Work.inc_ops (w : Work) (a n : Nat) : (w.inc a n).ops = w.ops := rfl
@[simp] theorem Work.inc_blocks (w : Work) (a n : Nat) : (w.inc a n).blocks = w.blocks := rfl
@[simp] theorem Work.inc_out (w : Work) (a n : Nat) : (w.inc a n).out = w.out := rfl
@[simp] theorem Work.inc_ctr (w : Work) (a n : Nat) : (w.inc a n).ctr = w.ctr := rfl

/-! ### Storing a field of a host page -/

@[simp] theorem Work.setHfld_regs (w : Work) (a off hi lo v : Nat) : (w.setHfld a off hi lo v).regs = w.regs := rfl
@[simp] theorem Work.setHfld_live (w : Work) (a off hi lo v : Nat) : (w.setHfld a off hi lo v).live = w.live := rfl
@[simp] theorem Work.setHfld_half (w : Work) (a off hi lo v : Nat) : (w.setHfld a off hi lo v).half = w.half := rfl
@[simp] theorem Work.setHfld_due (w : Work) (a off hi lo v : Nat) : (w.setHfld a off hi lo v).due = w.due := rfl
@[simp] theorem Work.setHfld_pool (w : Work) (a off hi lo v : Nat) : (w.setHfld a off hi lo v).pool = w.pool := rfl
@[simp] theorem Work.setHfld_dir (w : Work) (a off hi lo v : Nat) : (w.setHfld a off hi lo v).dir = w.dir := rfl
@[simp] theorem Work.setHfld_home (w : Work) (a off hi lo v : Nat) : (w.setHfld a off hi lo v).home = w.home := rfl
@[simp] theorem Work.setHfld_flt (w : Work) (a off hi lo v : Nat) : (w.setHfld a off hi lo v).flt = w.flt := rfl
@[simp] theorem Work.setHfld_chans (w : Work) (a off hi lo v : Nat) : (w.setHfld a off hi lo v).chans = w.chans := rfl
@[simp] theorem Work.setHfld_mash (w : Work) (a off hi lo v : Nat) : (w.setHfld a off hi lo v).mash = w.mash := rfl
@[simp] theorem Work.setHfld_xlat (w : Work) (a off hi lo v : Nat) : (w.setHfld a off hi lo v).xlat = w.xlat := rfl
@[simp] theorem Work.setHfld_sync (w : Work) (a off hi lo v : Nat) : (w.setHfld a off hi lo v).sync = w.sync := rfl
@[simp] theorem Work.setHfld_kiln (w : Work) (a off hi lo v : Nat) : (w.setHfld a off hi lo v).kiln = w.kiln := rfl
@[simp] theorem Work.setHfld_ports (w : Work) (a off hi lo v : Nat) : (w.setHfld a off hi lo v).ports = w.ports := rfl
@[simp] theorem Work.setHfld_qos (w : Work) (a off hi lo v : Nat) : (w.setHfld a off hi lo v).qos = w.qos := rfl
@[simp] theorem Work.setHfld_links (w : Work) (a off hi lo v : Nat) : (w.setHfld a off hi lo v).links = w.links := rfl
@[simp] theorem Work.setHfld_vorir (w : Work) (a off hi lo v : Nat) : (w.setHfld a off hi lo v).vorir = w.vorir := rfl
@[simp] theorem Work.setHfld_ops (w : Work) (a off hi lo v : Nat) : (w.setHfld a off hi lo v).ops = w.ops := rfl
@[simp] theorem Work.setHfld_blocks (w : Work) (a off hi lo v : Nat) : (w.setHfld a off hi lo v).blocks = w.blocks := rfl
@[simp] theorem Work.setHfld_out (w : Work) (a off hi lo v : Nat) : (w.setHfld a off hi lo v).out = w.out := rfl
@[simp] theorem Work.setHfld_ctr (w : Work) (a off hi lo v : Nat) : (w.setHfld a off hi lo v).ctr = w.ctr := rfl

/-! ### Storing two words of a host page -/

@[simp] theorem Work.setHreg2_regs (w : Work) (a off v : Nat) : (w.setHreg2 a off v).regs = w.regs := rfl
@[simp] theorem Work.setHreg2_live (w : Work) (a off v : Nat) : (w.setHreg2 a off v).live = w.live := rfl
@[simp] theorem Work.setHreg2_half (w : Work) (a off v : Nat) : (w.setHreg2 a off v).half = w.half := rfl
@[simp] theorem Work.setHreg2_due (w : Work) (a off v : Nat) : (w.setHreg2 a off v).due = w.due := rfl
@[simp] theorem Work.setHreg2_pool (w : Work) (a off v : Nat) : (w.setHreg2 a off v).pool = w.pool := rfl
@[simp] theorem Work.setHreg2_dir (w : Work) (a off v : Nat) : (w.setHreg2 a off v).dir = w.dir := rfl
@[simp] theorem Work.setHreg2_home (w : Work) (a off v : Nat) : (w.setHreg2 a off v).home = w.home := rfl
@[simp] theorem Work.setHreg2_flt (w : Work) (a off v : Nat) : (w.setHreg2 a off v).flt = w.flt := rfl
@[simp] theorem Work.setHreg2_chans (w : Work) (a off v : Nat) : (w.setHreg2 a off v).chans = w.chans := rfl
@[simp] theorem Work.setHreg2_mash (w : Work) (a off v : Nat) : (w.setHreg2 a off v).mash = w.mash := rfl
@[simp] theorem Work.setHreg2_xlat (w : Work) (a off v : Nat) : (w.setHreg2 a off v).xlat = w.xlat := rfl
@[simp] theorem Work.setHreg2_sync (w : Work) (a off v : Nat) : (w.setHreg2 a off v).sync = w.sync := rfl
@[simp] theorem Work.setHreg2_kiln (w : Work) (a off v : Nat) : (w.setHreg2 a off v).kiln = w.kiln := rfl
@[simp] theorem Work.setHreg2_ports (w : Work) (a off v : Nat) : (w.setHreg2 a off v).ports = w.ports := rfl
@[simp] theorem Work.setHreg2_qos (w : Work) (a off v : Nat) : (w.setHreg2 a off v).qos = w.qos := rfl
@[simp] theorem Work.setHreg2_links (w : Work) (a off v : Nat) : (w.setHreg2 a off v).links = w.links := rfl
@[simp] theorem Work.setHreg2_vorir (w : Work) (a off v : Nat) : (w.setHreg2 a off v).vorir = w.vorir := rfl
@[simp] theorem Work.setHreg2_ops (w : Work) (a off v : Nat) : (w.setHreg2 a off v).ops = w.ops := rfl
@[simp] theorem Work.setHreg2_blocks (w : Work) (a off v : Nat) : (w.setHreg2 a off v).blocks = w.blocks := rfl
@[simp] theorem Work.setHreg2_out (w : Work) (a off v : Nat) : (w.setHreg2 a off v).out = w.out := rfl
@[simp] theorem Work.setHreg2_ctr (w : Work) (a off v : Nat) : (w.setHreg2 a off v).ctr = w.ctr := rfl

/-! ### Sending a message -/

@[simp] theorem Work.emit_regs (w : Work) (o : Out) : (w.emit o).regs = w.regs := rfl
@[simp] theorem Work.emit_live (w : Work) (o : Out) : (w.emit o).live = w.live := rfl
@[simp] theorem Work.emit_hregs (w : Work) (o : Out) : (w.emit o).hregs = w.hregs := rfl
@[simp] theorem Work.emit_half (w : Work) (o : Out) : (w.emit o).half = w.half := rfl
@[simp] theorem Work.emit_due (w : Work) (o : Out) : (w.emit o).due = w.due := rfl
@[simp] theorem Work.emit_pool (w : Work) (o : Out) : (w.emit o).pool = w.pool := rfl
@[simp] theorem Work.emit_dir (w : Work) (o : Out) : (w.emit o).dir = w.dir := rfl
@[simp] theorem Work.emit_home (w : Work) (o : Out) : (w.emit o).home = w.home := rfl
@[simp] theorem Work.emit_flt (w : Work) (o : Out) : (w.emit o).flt = w.flt := rfl
@[simp] theorem Work.emit_chans (w : Work) (o : Out) : (w.emit o).chans = w.chans := rfl
@[simp] theorem Work.emit_mash (w : Work) (o : Out) : (w.emit o).mash = w.mash := rfl
@[simp] theorem Work.emit_xlat (w : Work) (o : Out) : (w.emit o).xlat = w.xlat := rfl
@[simp] theorem Work.emit_sync (w : Work) (o : Out) : (w.emit o).sync = w.sync := rfl
@[simp] theorem Work.emit_kiln (w : Work) (o : Out) : (w.emit o).kiln = w.kiln := rfl
@[simp] theorem Work.emit_ports (w : Work) (o : Out) : (w.emit o).ports = w.ports := rfl
@[simp] theorem Work.emit_qos (w : Work) (o : Out) : (w.emit o).qos = w.qos := rfl
@[simp] theorem Work.emit_links (w : Work) (o : Out) : (w.emit o).links = w.links := rfl
@[simp] theorem Work.emit_vorir (w : Work) (o : Out) : (w.emit o).vorir = w.vorir := rfl
@[simp] theorem Work.emit_ops (w : Work) (o : Out) : (w.emit o).ops = w.ops := rfl
@[simp] theorem Work.emit_blocks (w : Work) (o : Out) : (w.emit o).blocks = w.blocks := rfl
@[simp] theorem Work.emit_ctr (w : Work) (o : Out) : (w.emit o).ctr = w.ctr := rfl
@[simp] theorem Work.emit_out (w : Work) (o : Out) : (w.emit o).out = o :: w.out := rfl

/-! ### Queueing a change -/

@[simp] theorem Work.queue_regs (w : Work) (d : Due) : (w.queue d).regs = w.regs := rfl
@[simp] theorem Work.queue_live (w : Work) (d : Due) : (w.queue d).live = w.live := rfl
@[simp] theorem Work.queue_hregs (w : Work) (d : Due) : (w.queue d).hregs = w.hregs := rfl
@[simp] theorem Work.queue_half (w : Work) (d : Due) : (w.queue d).half = w.half := rfl
@[simp] theorem Work.queue_pool (w : Work) (d : Due) : (w.queue d).pool = w.pool := rfl
@[simp] theorem Work.queue_dir (w : Work) (d : Due) : (w.queue d).dir = w.dir := rfl
@[simp] theorem Work.queue_home (w : Work) (d : Due) : (w.queue d).home = w.home := rfl
@[simp] theorem Work.queue_flt (w : Work) (d : Due) : (w.queue d).flt = w.flt := rfl
@[simp] theorem Work.queue_chans (w : Work) (d : Due) : (w.queue d).chans = w.chans := rfl
@[simp] theorem Work.queue_mash (w : Work) (d : Due) : (w.queue d).mash = w.mash := rfl
@[simp] theorem Work.queue_xlat (w : Work) (d : Due) : (w.queue d).xlat = w.xlat := rfl
@[simp] theorem Work.queue_sync (w : Work) (d : Due) : (w.queue d).sync = w.sync := rfl
@[simp] theorem Work.queue_kiln (w : Work) (d : Due) : (w.queue d).kiln = w.kiln := rfl
@[simp] theorem Work.queue_ports (w : Work) (d : Due) : (w.queue d).ports = w.ports := rfl
@[simp] theorem Work.queue_qos (w : Work) (d : Due) : (w.queue d).qos = w.qos := rfl
@[simp] theorem Work.queue_links (w : Work) (d : Due) : (w.queue d).links = w.links := rfl
@[simp] theorem Work.queue_vorir (w : Work) (d : Due) : (w.queue d).vorir = w.vorir := rfl
@[simp] theorem Work.queue_ops (w : Work) (d : Due) : (w.queue d).ops = w.ops := rfl
@[simp] theorem Work.queue_blocks (w : Work) (d : Due) : (w.queue d).blocks = w.blocks := rfl
@[simp] theorem Work.queue_out (w : Work) (d : Due) : (w.queue d).out = w.out := rfl
@[simp] theorem Work.queue_ctr (w : Work) (d : Due) : (w.queue d).ctr = w.ctr := rfl
@[simp] theorem Work.queue_due (w : Work) (d : Due) : (w.queue d).due = w.due ++ [d] := rfl

/-! ### Storing the state of a host -/

@[simp] theorem Work.setHost_regs (w : Work) (dev agent : Nat) (h : HostSt) : (w.setHost dev agent h).regs = w.regs := rfl
@[simp] theorem Work.setHost_live (w : Work) (dev agent : Nat) (h : HostSt) : (w.setHost dev agent h).live = w.live := rfl
@[simp] theorem Work.setHost_hregs (w : Work) (dev agent : Nat) (h : HostSt) : (w.setHost dev agent h).hregs = w.hregs := rfl
@[simp] theorem Work.setHost_half (w : Work) (dev agent : Nat) (h : HostSt) : (w.setHost dev agent h).half = w.half := rfl
@[simp] theorem Work.setHost_due (w : Work) (dev agent : Nat) (h : HostSt) : (w.setHost dev agent h).due = w.due := rfl
@[simp] theorem Work.setHost_pool (w : Work) (dev agent : Nat) (h : HostSt) : (w.setHost dev agent h).pool = w.pool := rfl
@[simp] theorem Work.setHost_dir (w : Work) (dev agent : Nat) (h : HostSt) : (w.setHost dev agent h).dir = w.dir := rfl
@[simp] theorem Work.setHost_flt (w : Work) (dev agent : Nat) (h : HostSt) : (w.setHost dev agent h).flt = w.flt := rfl
@[simp] theorem Work.setHost_chans (w : Work) (dev agent : Nat) (h : HostSt) : (w.setHost dev agent h).chans = w.chans := rfl
@[simp] theorem Work.setHost_mash (w : Work) (dev agent : Nat) (h : HostSt) : (w.setHost dev agent h).mash = w.mash := rfl
@[simp] theorem Work.setHost_xlat (w : Work) (dev agent : Nat) (h : HostSt) : (w.setHost dev agent h).xlat = w.xlat := rfl
@[simp] theorem Work.setHost_sync (w : Work) (dev agent : Nat) (h : HostSt) : (w.setHost dev agent h).sync = w.sync := rfl
@[simp] theorem Work.setHost_kiln (w : Work) (dev agent : Nat) (h : HostSt) : (w.setHost dev agent h).kiln = w.kiln := rfl
@[simp] theorem Work.setHost_ports (w : Work) (dev agent : Nat) (h : HostSt) : (w.setHost dev agent h).ports = w.ports := rfl
@[simp] theorem Work.setHost_qos (w : Work) (dev agent : Nat) (h : HostSt) : (w.setHost dev agent h).qos = w.qos := rfl
@[simp] theorem Work.setHost_links (w : Work) (dev agent : Nat) (h : HostSt) : (w.setHost dev agent h).links = w.links := rfl
@[simp] theorem Work.setHost_vorir (w : Work) (dev agent : Nat) (h : HostSt) : (w.setHost dev agent h).vorir = w.vorir := rfl
@[simp] theorem Work.setHost_ops (w : Work) (dev agent : Nat) (h : HostSt) : (w.setHost dev agent h).ops = w.ops := rfl
@[simp] theorem Work.setHost_blocks (w : Work) (dev agent : Nat) (h : HostSt) : (w.setHost dev agent h).blocks = w.blocks := rfl
@[simp] theorem Work.setHost_out (w : Work) (dev agent : Nat) (h : HostSt) : (w.setHost dev agent h).out = w.out := rfl
@[simp] theorem Work.setHost_ctr (w : Work) (dev agent : Nat) (h : HostSt) : (w.setHost dev agent h).ctr = w.ctr := rfl

/-! ### The queue and the outcome of a command -/

@[simp] theorem Env.setBackup_clk (e : Env) (k v : Nat) : (e.setBackup k v).clk = e.clk := rfl
@[simp] theorem Env.setBackup_mer (e : Env) (k v : Nat) : (e.setBackup k v).mer = e.mer := rfl
@[simp] theorem Env.setBackup_board (e : Env) (k v : Nat) : (e.setBackup k v).board = e.board := rfl
@[simp] theorem Env.setBackup_keysel (e : Env) (k v : Nat) : (e.setBackup k v).keysel = e.keysel := rfl
@[simp] theorem Env.setBackup_rst (e : Env) (k v : Nat) : (e.setBackup k v).rst = e.rst := rfl
@[simp] theorem Env.setBackup_sec (e : Env) (k v : Nat) : (e.setBackup k v).sec = e.sec := rfl
@[simp] theorem Env.setBackup_jtag (e : Env) (k v : Nat) : (e.setBackup k v).jtag = e.jtag := rfl

end Sys2Proof.Machine
end

