-- ==== Sys2Proof/Laws/Ops.lean ====
section
/-! SUPPORT. What the shared operations do, for proofs to cite: the three forms of a command, and a register read after a write. -/

namespace Sys2Proof.Machine

/-! ### The forms of a command -/

theorem traffic_next {s t : State} {f : Env → Work → Work} (h : traffic s f = .next t) :
    t = { s with w := if poolRuns s.env then f s.env s.w else s.w } := by
  simp only [traffic, Host.Outcome.next.injEq] at h
  exact h.symm

theorem traffic_run {s : State} {f : Env → Work → Work} (h : poolRuns s.env = true) :
    traffic s f = .next { s with w := f s.env s.w } := by
  simp [traffic, h]

theorem serve_next {s t : State} {f : Env → Work → Work} (h : serve s f = .next t) :
    t = { s with w := if mainRuns s.env then f s.env s.w else s.w } := by
  simp only [serve, Host.Outcome.next.injEq] at h
  exact h.symm

theorem serve_run {s : State} {f : Env → Work → Work} (h : mainRuns s.env = true) :
    serve s f = .next { s with w := f s.env s.w } := by
  simp [serve, h]

theorem whole_next {s t : State} {f : Env → Work → Env × Work} (h : whole s f = .next t) :
    t = { s with env := (f s.env s.w).1, w := (f s.env s.w).2 } := by
  simp only [whole, Host.Outcome.next.injEq] at h
  exact h.symm

theorem poolRuns_main {e : Env} (h : poolRuns e = true) : mainRuns e = true := by
  simp only [poolRuns, Bool.and_eq_true] at h
  exact h.1

/-! ### Registers -/

theorem Work.reg_setReg_same (w : Work) (a v : Nat) : (w.setReg a v).reg a = v % 2 ^ 32 := by
  by_cases h : v % 2 ^ 32 = regReset a
  · simp only [Work.setReg, Work.reg, h, if_true, mget_mdel_same]
  · simp only [Work.setReg, Work.reg, if_neg h, mget_mset_same, BitVec.toNat_ofNat]

theorem Work.reg_setReg_ne (w : Work) (a b v : Nat) (h : b ≠ a) : (w.setReg a v).reg b = w.reg b := by
  by_cases h' : v % 2 ^ 32 = regReset a
  · simp only [Work.setReg, Work.reg, if_pos h', mget_mdel_ne _ _ _ h]
  · simp only [Work.setReg, Work.reg, if_neg h', mget_mset_ne _ _ _ _ h]

theorem Work.liv_setLiv_same (w : Work) (a v : Nat) : (w.setLiv a v).liv a = v % 2 ^ 32 := by
  by_cases h : v % 2 ^ 32 = regReset a
  · simp only [Work.setLiv, Work.liv, h, if_true, mget_mdel_same]
  · simp only [Work.setLiv, Work.liv, if_neg h, mget_mset_same, BitVec.toNat_ofNat]

theorem Work.liv_setLiv_ne (w : Work) (a b v : Nat) (h : b ≠ a) : (w.setLiv a v).liv b = w.liv b := by
  by_cases h' : v % 2 ^ 32 = regReset a
  · simp only [Work.setLiv, Work.liv, if_pos h', mget_mdel_ne _ _ _ h]
  · simp only [Work.setLiv, Work.liv, if_neg h', mget_mset_ne _ _ _ _ h]

theorem Work.hreg_setHreg_same (w : Work) (a off v : Nat) : (w.setHreg a off v).hreg a off = v % 2 ^ 32 := by
  by_cases h : v % 2 ^ 32 = hostReset off
  · simp only [Work.setHreg, Work.hreg, h, if_true, mget_mdel_same]
  · simp only [Work.setHreg, Work.hreg, if_neg h, mget_mset_same, BitVec.toNat_ofNat]

/-- A saturating counter after `n` events. -/
theorem Work.reg_inc_same (w : Work) (a n : Nat) : (w.inc a n).reg a = satAdd 32 (w.reg a) n := by
  unfold Work.inc
  rw [Work.reg_setReg_same]
  apply Nat.mod_eq_of_lt
  simp only [satAdd]
  omega

theorem Work.reg_inc_ne (w : Work) (a b n : Nat) (h : b ≠ a) : (w.inc a n).reg b = w.reg b := Work.reg_setReg_ne w a b _ h

end Sys2Proof.Machine
end

