-- ==== Sys2Proof/Laws/Fabric.lean ====
section
/-! SUPPORT. What carrying a message over Vorir, an access to a memory die and a Sheet look-up can change, and a peer's message that
arrives. -/

namespace Sys2Proof.Machine

/-- A message of a peer that arrives is handled. -/
theorem peerTraffic_run {s : State} {h : Hdr} {ids : List Nat} {f : Env → Work → Work} (x : fromPeer s h ids) :
    peerTraffic h ids s f = .next { s with w := f s.env s.w } := by
  obtain ⟨hr, hd, hs, ht, hi⟩ := x
  have hn : (h.src :: h.dst :: ids).find? (fun a => !agentKnown a) = none := by
    rw [List.find?_eq_none]
    intro a ha
    simp only [List.mem_cons] at ha
    rcases ha with rfl | rfl | ha
    · simp [hs]
    · simp [ht]
    · simp [hi a ha]
  simp [peerTraffic, traffic_run hr, hd, hn]

/-- Charging an account changes its charge alone. -/
theorem charge_eq (w : Work) (acct ev n : Nat) : ∃ k, charge w acct ev n = { w with kiln := k } := by
  unfold charge
  split
  · exact ⟨w.kiln, rfl⟩
  · exact ⟨_, rfl⟩

/-- Carrying a message changes the fabric and the charge alone. -/
theorem carryOn_eq (w : Work) (acct : Nat) (k : VKind) (src dst : Nat) (data : Bool) (a : Die) (ds : List Die) :
    ∃ v c, carryOn w acct k src dst data a ds = { w with vorir := v, kiln := c } := by
  obtain ⟨c, h⟩ := charge_eq w acct 6 ((vorirGo w.vorir ⟨k.cls, src, dst, vorirSlots data⟩ a ds none).2 * vorirSlots data)
  exact ⟨(vorirGo w.vorir ⟨k.cls, src, dst, vorirSlots data⟩ a ds none).1, c, by simp only [carryOn, h]⟩

/-- For the device's own account, the fabric alone. -/
theorem carryOn_dev (w : Work) (k : VKind) (src dst : Nat) (data : Bool) (a : Die) (ds : List Die) :
    ∃ v, carryOn w acctDev k src dst data a ds = { w with vorir := v } :=
  ⟨(vorirGo w.vorir ⟨k.cls, src, dst, vorirSlots data⟩ a ds none).1, by simp [carryOn, charge]⟩

/-- What an access to memory and a Sheet look-up may change: the fabric, the charge, the accounts noted for accesses, and the Sheet
caches. -/
def Quiet (w x : Work) : Prop :=
  ∃ v k c l n, x = { w with
    vorir := v, kiln := k, chans := { w.chans with asked := c }, pool := { w.pool with sheets := l, sheetStamp := n } }

theorem Quiet.refl (w : Work) : Quiet w w := ⟨_, _, _, _, _, rfl⟩

theorem Quiet.trans {a b c : Work} (h : Quiet a b) (g : Quiet b c) : Quiet a c := by
  obtain ⟨_, _, _, _, _, rfl⟩ := h
  obtain ⟨_, _, _, _, _, rfl⟩ := g
  exact ⟨_, _, _, _, _, rfl⟩

theorem quiet_charge (w : Work) (acct ev n : Nat) : Quiet w (charge w acct ev n) := by
  obtain ⟨k, h⟩ := charge_eq w acct ev n
  exact ⟨w.vorir, k, w.chans.asked, w.pool.sheets, w.pool.sheetStamp, h⟩

theorem quiet_carryOn (w : Work) (acct : Nat) (k : VKind) (src dst : Nat) (data : Bool) (a : Die) (ds : List Die) :
    Quiet w (carryOn w acct k src dst data a ds) := by
  obtain ⟨v, c, h⟩ := carryOn_eq w acct k src dst data a ds
  exact ⟨v, c, w.chans.asked, w.pool.sheets, w.pool.sheetStamp, h⟩

theorem quiet_carry (w : Work) (acct : Nat) (k : VKind) (src dst line : Nat) (data : Bool) (a b : Die) :
    Quiet w (carry w acct k src dst line data a b) := quiet_carryOn ..

theorem quiet_fold (f : Work → Work) (hf : ∀ w, Quiet w (f w)) (l : List Nat) (w : Work) :
    Quiet w (l.foldl (fun w _ => f w) w) := by
  induction l generalizing w with
  | nil => exact Quiet.refl w
  | cons x l ih => exact (hf w).trans (ih (f w))

theorem quiet_memRead (w : Work) (acct line n : Nat) : Quiet w (memRead w acct line n) := by
  have h : Quiet w (askFor w acct line) := ⟨w.vorir, w.kiln, _, w.pool.sheets, w.pool.sheetStamp, rfl⟩
  exact (h.trans (quiet_charge ..)).trans (quiet_fold _ (fun w => (quiet_carry ..).trans (quiet_carry ..)) _ _)

theorem quiet_store (w : Work) (key : Nat) (x : SheetWay) : Quiet w (sheetStore w key x) :=
  ⟨w.vorir, w.kiln, w.chans.asked, _, _, rfl⟩

theorem quiet_sheetTouch (e : Env) (w : Work) (d : Die) (acct parcel o : Nat) : Quiet w (sheetTouch e w d acct parcel o) := by
  have key (x : Work) (l : Nat) (t u : Die) : Quiet x (carry (memRead (carry x acct .table 0x7F 0x7F l false d t) acct l 1)
      acct .answer 0x7F 0x7F l true u d) := ((quiet_carry ..).trans (quiet_memRead ..)).trans (quiet_carry ..)
  unfold sheetTouch
  dsimp only
  split
  · split
    · exact quiet_store ..
    · exact Quiet.refl w
  · split
    · exact Quiet.refl w
    · split
      · exact (key w _ _ _).trans (quiet_store ..)
      · exact key w _ _ _

theorem quiet_looked (e : Env) (w : Work) (r : Req) : Quiet w (looked e w r) := by
  unfold looked
  split
  · exact quiet_sheetTouch ..
  · exact Quiet.refl w

/-! ### What these leave as it is -/

theorem Quiet.cadEntry {w x : Work} (h : Quiet w x) (p : Nat) : cadEntry x p = cadEntry w p := by
  obtain ⟨_, _, _, _, _, rfl⟩ := h; rfl

theorem Quiet.locate {w x : Work} (h : Quiet w x) (e : Env) (c : BitVec 512) (o : Nat) : locate e x c o = locate e w c o := by
  obtain ⟨_, _, _, _, _, rfl⟩ := h; rfl

theorem Quiet.primary {w x : Work} (h : Quiet w x) (l : Loc) : l.primary x = l.primary w := by
  obtain ⟨_, _, _, _, _, rfl⟩ := h; rfl

theorem Quiet.serving {w x : Work} (h : Quiet w x) (l : Nat) : serving x l = serving w l := by
  obtain ⟨_, _, _, _, _, rfl⟩ := h; rfl

theorem Quiet.rawRead {w x : Work} (h : Quiet w x) (k : Option KeyId) (l : Nat) : rawRead x k l = rawRead w k l := by
  obtain ⟨_, _, _, _, _, rfl⟩ := h; rfl

theorem Quiet.p0Read {w x : Work} (h : Quiet w x) (e : Env) (a n : Nat) : p0Read e x a n = p0Read e w a n := by
  obtain ⟨_, _, _, _, _, rfl⟩ := h; rfl

theorem Quiet.p0Bit {w x : Work} (h : Quiet w x) (e : Env) (a n : Nat) : p0Bit e x a n = p0Bit e w a n := by
  unfold Machine.p0Bit
  rw [h.p0Read]

theorem Quiet.blockHeld {w x : Work} (h : Quiet w x) (k i : Nat) : blockHeld x k i = blockHeld w k i := by
  obtain ⟨_, _, _, _, _, rfl⟩ := h; rfl

theorem Quiet.tractOf {w x : Work} (h : Quiet w x) (a : Nat) : tractOf x a = tractOf w a := by
  obtain ⟨_, _, _, _, _, rfl⟩ := h; rfl

theorem Quiet.isPromoted {w x : Work} (h : Quiet w x) (e : Env) (r : Req) : isPromoted e x r = isPromoted e w r := by
  have g : reqLoc e x r = reqLoc e w r := by simp only [reqLoc, h.cadEntry, h.locate]
  simp only [Machine.isPromoted, g]

theorem Quiet.cutOff {w x : Work} (h : Quiet w x) (e : Env) (r : Req) : cutOff e x r = cutOff e w r := by
  have hc : x.pool.cut = w.pool.cut := by obtain ⟨_, _, _, _, _, rfl⟩ := h; rfl
  simp only [Machine.cutOff, h.isPromoted, h.cadEntry, hc]

theorem Quiet.unresolved {w x : Work} (h : Quiet w x) (e : Env) (r : Req) : unresolved e x r = unresolved e w r := by
  have hc : x.pool.recovered = w.pool.recovered := by obtain ⟨_, _, _, _, _, rfl⟩ := h; rfl
  simp only [Machine.unresolved, tracked, h.isPromoted, h.cadEntry, h.p0Bit, hc]

theorem Quiet.moveHolds {w x : Work} (h : Quiet w x) (e : Env) (r : Req) : moveHolds e x r = moveHolds e w r := by
  have hc : x.pool.move = w.pool.move := by obtain ⟨_, _, _, _, _, rfl⟩ := h; rfl
  unfold Machine.moveHolds moveAt reqLoc
  rw [h.cadEntry, h.locate, hc]

theorem Quiet.locOk {w x : Work} (h : Quiet w x) (e : Env) (l : Loc) : locOk e x l = locOk e w l := by
  obtain ⟨_, _, _, _, _, rfl⟩ := h; rfl

theorem Quiet.accessCheck {w x : Work} (h : Quiet w x) (e : Env) (q : Asker) (p o : Nat) (b : Bool) : accessCheck e x q p o b = accessCheck e w q p o b := by
  unfold Machine.accessCheck
  simp only [h.cadEntry, h.locate, h.p0Read, h.locOk]

end Sys2Proof.Machine
end

