-- ==== Sys2Proof/WellFormed.lean ====
section
/-! DEFINITION. The commands that the block can be sent: every number within the width that the spec gives its field.
A command outside these bounds names no port, channel, ring, agent or line that the spec knows. -/

namespace Sys2Proof

/-- A host's request: an agent of this device (01 Table 1-3), a 16-bit transaction tag. -/
def HostReq.wf (q : HostReq) : Bool :=
  decide (q.agent < 64) && decide (q.lda < 2 ^ 48) && decide (q.tag < 2 ^ 16)

/-- A Daoth header (13 Table 13-6): 2-bit device, 7-bit agents, 16-bit tag. -/
def Hdr.wf (h : Hdr) : Bool :=
  decide (h.dev < 4) && decide (h.src < 128) && decide (h.dst < 128) && decide (h.tag < 2 ^ 16)

/-- An extension chunk (13 R504). -/
def Ext.wf (x : Ext) : Bool :=
  decide (x.parcel < 2 ^ 16) && decide (x.gen < 2 ^ 16) && decide (x.off < 2 ^ 47) && decide (x.frame < 2 ^ 48) &&
  decide (x.dev < 4) && decide (x.agent < 128) && decide (x.hops < 4)

/-- A line number of the device: DPA[47:6]. -/
def lineWf (l : Nat) : Bool := decide (l < 2 ^ 42)

def chanWf (c : Nat) : Bool := decide (c < 80)

/-- A delay sweep has 128 steps, a re-centring's 9 (14 R552, R554). -/
def Sweeps.wf (x : Sweeps) : Bool := x.rd.length == 128 && x.wr.length == 128 && x.wrAgain.length == 128
def Drift.wf (x : Drift) : Bool := x.rd.length == 9
def ringWf (r : Nat) : Bool := decide (r < 1024)
def tunWf (t : Nat) : Bool := decide (t < 32)
def agentWf (a : Nat) : Bool := decide (a < 64)
def portWf (p : Nat) : Bool := decide (p < 32)
def linkWf (n : Nat) : Bool := decide (n < 8)
def ctxWf (c : Nat) : Bool := decide (c < 4096)
def parcelWf (p : Nat) : Bool := decide (p < 2 ^ 16)

/-- The read-modify-writes that 05 R196 and 08 R333 name: 4, 8 or 16 byte operands, an element format code. -/
def Rmw.wf (o : Rmw) : Bool :=
  match o with
  | .fetchAdd n _ | .swap n _ => n == 4 || n == 8
  | .cas n _ _ => n == 4 || n == 8 || n == 16
  | .addFmt f _ => decide (f < 16)

def Mgr.wf (m : Mgr) : Bool :=
  match m with
  | .bmc => true
  | .fm p => portWf p
  | .host a => agentWf a
  | .peer d => decide (d < 4)

/-- A ring and a 32-bit descriptor number. -/
def descWf (r n : Nat) : Bool := ringWf r && decide (n < 2 ^ 32)

/-- A word of an on-die array: what it belongs to is within its width. -/
def SramErr.wf (x : SramErr) : Bool :=
  match x.word with
  | .staging r n _ _ | .tunState r n _ => descWf r n
  | .tunTable t _ => tunWf t
  | .ncData l | .readQueue l | .writeQueue l => lineWf l
  | .ncTags t => decide (t < 8)
  | .dirCache d s k => decide (d < 2) && decide (s < 2 ^ 17) && decide (k < 17)
  | .xlatCache c _ => decide (c < 34)
  | .mapCopy p => parcelWf p
  | .extentTable a => agentWf a
  | .waiter l r n => lineWf l && descWf r n
  | .ringState r => ringWf r
  | .linkBuffer _ | .datumMem | .config _ _ => true
  | .retained c _ => chanWf c

def Instr.wf (i : Instr) : Bool :=
  match i with
  | .revokeDrainForced p => parcelWf p
  | .holderRemovalDrainForced p a => parcelWf p && agentWf a
  | .timingFlitReceive f c s _ => decide (f < 2 ^ 48) && decide (c < 256) && decide (s < 4)
  | .tileIssue r n _ _ _ _ | .tileDispatch r n _ _ | .tileTranslate r n _ | .tileComplete r n _ _ | .arithRetry r n _ _ _ _ => descWf r n
  | .staleRole r n _ t | .roleTileAbandon r n _ t => descWf r n && tunWf t
  | .staleResponseDiscard t _ | .tunRoleCommit t _ => tunWf t
  | .strikeLapse t c => tunWf t && decide (c < 9)
  | .hostMemrdI q | .hostMemrdS q | .hostMemrdA q | .hostMemclnevct q | .hostMemspecrd q | .hostMemrddata q => q.wf
  | .hostMemwr q _ _ | .hostMemwrptl q _ _ _ => q.wf
  | .hostAtomicFetchadd q n _ | .hostAtomicSwap q n _ | .hostAtomicCas q n _ _ => q.wf && decide (n ≤ 16)
  | .retry l d a t => lineWf l && decide (d < 4) && decide (a < 128) && decide (t < 2 ^ 16)
  | .birsp a l _ | .biconflict a l | .snoopTimeout a l => agentWf a && lineWf l
  | .graceDeadline a => agentWf a
  | .hostLostSweep d a _ => decide (d < 4) && agentWf a
  | .nearCacheEvict l | .stripeWriteBack l => lineWf l
  | .dramReadReturn l _ => lineWf l
  | .dramAccessArrive c _ l _ _ => chanWf c && lineWf l
  | .refreshSlot c s r | .zqCalibration c s r | .ecsOperation c s r | .mr4Read c s r _ =>
      chanWf c && decide (s < 2) && decide (r < 4)
  | .rfmSlot c s r b => chanWf c && decide (s < 2) && decide (r < 4) && decide (b < 32)
  | .recentreSlot c _ gs => chanWf c && gs.all (fun g => decide (g.1 < 80) && g.2.wf)
  | .trainingPassed c _ gs => chanWf c && gs.all (fun g => decide (g.1 < 80) && g.2.wf)
  | .spdThermalRead c _ | .channelQuiesce c | .channelPowerOff c | .channelPowerOnTrain c
  | .channelRetrain c | .channelRebuild c | .channelOut c | .trainFailed c _ _ _ _
  | .rebuildStep c | .pprSppr c _ _ _ _ | .pprHppr c _ _ _ | .channelSchedWrite c _ => chanWf c
  | .dramAlert c s _ | .dramAlertCleared c s _ => chanWf c && decide (s < 2)
  | .bankMaskWrite c k _ => chanWf c && decide (k < 8)
  | .mirrorWr h p _ _ _ => h.wf && parcelWf p
  | .slotClaim h c => h.wf && parcelWf c.parcel
  | .mark h p _ => h.wf && parcelWf p
  | .mirrorAck h a => h.wf && lineWf a.line
  | .copyWr h l _ | .pgnt h l _ _ | .psnpinv h l | .psnpshr h l | .psnpcur h l | .psnptake h l
  | .prsp h l _ _ _ => h.wf && lineWf l
  | .psnphost h p l n k _ _ => h.wf && parcelWf p && lineWf l && decide (n ≤ 64) && decide (k < 3)
  | .establishChunk k | .resilverPlot k => decide (k < 3)
  | .prdcur h x l | .prds h x l | .prdx h x l | .pupg h x l | .pwr h x l _ _ | .pwb h x l _ | .pevict h x l =>
      h.wf && x.wf && lineWf l
  | .proxyDrop d l => decide (d < 4) && lineWf l
  | .peerLostSweep d _ | .hostHoldDeadline d | .peerLostTimeout d => decide (d < 4)
  | .pageResolution p _ => parcelWf p
  | .fwdRdI h x | .fwdRdS h x | .fwdRdA h x | .fwdWr h x _ _ | .fwdWrPtl h x _ _ _ | .fwdClnevct h x
  | .mashRd h x | .mashWr h x _ _ => h.wf && x.wf
  | .fwdAtomic h x o | .mashRmw h x o => h.wf && x.wf && o.wf
  | .data h _ | .cmp h | .err h | .depart h => h.wf
  | .hostSnpRsp h a l _ => h.wf && decide (a ≤ 64) && lineWf l
  | .syncOp h x l c r _ _ => h.wf && x.wf && lineWf l && ctxWf c && ringWf r
  | .syncRelease h r n _ _ => h.wf && descWf r n
  | .hostLostMsg h a | .sweepDone h a => h.wf && agentWf a
  | .linkFail d l => decide (d < 4) && linkWf l
  | .lost h d => h.wf && decide (d < 4)
  | .datum h _ _ _ => h.wf
  | .windowReport k b d => decide (k < 256) && decide (b < 2) && decide (d < 2)
  | .vorirCrcError l n => decide (l < 9) && decide (n < 2 ^ 16)
  | .daothEnable n _ | .daothDisable n _ | .daothTestSet n | .daothTestClear n | .linkTrained n _ _
  | .payloadFlit n _ _ | .payloadMessage n _ | .idle n _ | .replayReq n _ | .timing n _ _ _ _ _ _ | .ident n _ _
  | .probe n _ _ | .echo n _ _ _ | .creditInit n _ | .testPattern n _ | .messageSend n _ | .groupPad n
  | .ackAdvance n _ | .creditReturnIdle n _ | .xoffChange n _ | .keepalive n | .replayTimeout n | .replayReqRepeat n
  | .noFlitTimeout n | .phyLockLoss n | .linkFailback n | .blockResetDaoth n _ => linkWf n
  | .ringEnable r _ | .ringDisable r _ | .descriptorFetch r => ringWf r
  | .tail a r _ | .cqHead a r _ | .stop a r | .start a r => agentWf a && ringWf r
  | .resume a r c => agentWf a && ringWf r && ctxWf c
  | .descriptorStart r n t => descWf r n && tunWf t
  | .completionRecordWrite r n | .deferredLimit r n | .barrierArrive r n | .gateWait r n | .gateSignal r n | .fence r n
  | .faultWaitExpiry r n => descWf r n
  | .copy r n _ | .fill r n _ | .convert r n _ | .reduce r n _ | .axpby r n _ | .dot r n _ | .gatherSum r n _
  | .scatterAdd r n _ | .optStep r n _ | .quantize r n _ | .dequant r n _ | .checksum r n _ | .cowPage r n _
  | .recipe r n _ => descWf r n
  | .windowEnable k _ | .windowDisable k _ => decide (k < 256)
  | .stage1Walk t c _ _ | .prefetchWalk t c _ => tunWf t && ctxWf c
  | .invalContext a _ | .invalPages a _ | .invalLdContexts a _ | .invalTileAbandon a | .invalDone a => agentWf a
  | .arrive q _ | .signal q _ | .broadcast q _ | .disarm q _ => q.wf
  | .syncDebugWrite l _ _ => lineWf l
  | .syncTimeout d _ _ c => decide (d < 2) && ctxWf c
  | .syncView d _ | .gazEnable d _ => decide (d < 2)
  | .qosHostCommit a _ => agentWf a
  | .calendarSlot d _ _ _ => decide (d < 2)
  | .latHwmRead a c | .latClear a c _ => agentWf a && decide (c < 4)
  | .portEnable p _ | .portDisable p _ | .blockResetPort p _ => portWf p
  | .ldEnable p l | .ldDisable p l => portWf p && decide (l < 2)
  | .headTrained p h _ _ _ | .headDown p h | .ideIntegrityFail p h | .cxlHotReset p h => portWf p && decide (h < 2)
  | .ldDisableAnswer a | .functionLevelReset a | .cxlReset a | .hdmDecoderCommit a _ _ _ _ _ | .msixUnmask a _
  | .globalPersistentFlush a | .addDcResponse a _ _ | .releaseDcResponse a _ | .addCapacityTimeout a _
  | .contextGet a _ | .ringPut a _ | .getPoisonList a _ _ | .injectPoison a _ | .clearPoison a _ _
  | .ringSet a _ _ _ _ _ | .faultHostEnable a _ | .faultHostDisable a _ | .faultHostHead a _ | .keyProg a _ _ _
  | .kSetGo a _ _ | .kSetStop a _ _ => agentWf a
  | .contextSet a c _ | .contextPut a c | .syncSave a c | .syncRestore a c => agentWf a && ctxWf c
  | .forcedRevoke p a => parcelWf p && agentWf a
  | .getLdInfo m | .getLdAllocations m _ | .setLdAllocations m _ _ | .getMultiHeadedInfo m | .getHeadInfo m _ _
  | .getDcdInfo m | .getHostDcRegionConfig m _ | .getDcRegionExtentLists m _ | .setDcRegionConfig m _ _ _
  | .initiateDcAdd m _ | .initiateDcRelease m _ | .getMeasurements m _ | .getCertificate m _ | .challenge m _
  | .keyExchange m _ _ | .setCertificate m | .getCsr m | .getFwInfo m | .transferFw m _ | .activateFw m _
  | .fwCommit m | .svnAdvance m | .slotRetire m _ _ | .enrolArm m _ _ _ | .debugAuthority m _ | .debugChallenge m
  | .debugOpen m _ | .debugClose m _ | .backupWrite m _ _ | .recoveryExit m | .heartbeat m _ | .keyUpdate m _ => m.wf
  | .nearCacheSetSweep t k _ => decide (t < 8) && decide (k < 16384)
  | .blockResetTract t _ | .nearCacheFlushDone t => decide (t < 8)
  | .blockResetTun t _ => tunWf t
  | .blockResetChannel c _ => chanWf c
  | .blockRelease k n | .isolationWrapperAnswer k n => decide (k < 8) && decide (n < 128)
  | .registerWrite a x _ => decide (a < 128) && decide (x < 2 ^ 49)
  | .dramCommandIssue c s _ bs => chanWf c && decide (s < 2) && bs.all (fun b => decide (b < 256))
  | .frameBoundary es => es.all SramErr.wf
  | .snapshotAbandon | .planLatch _ | .kilnSample _ | .meridianSyncEdge _ _ | .meridianSourceLost
  | .meridianCommit _ | .patrolRead _ | .establish _ | .resilver _ | .isolationReset | .contextLoad _
  | .contextDisable _ | .syncCtxSave _ | .syncCtxRestore _ | .qosCommit _ | .counterLowerRead _ | .fwHandover
  | .fwBankSwitch | .debugSessionExpiry _ | .idcode | .bypass _ | .samplePreload | .extest | .clamp | .highz
  | .extestPulse | .extestTrain | .spargeZero _ | .spargeRateWrite _ | .spargeZeroStep _ | .zeroingDone | .pageMove _
  | .pageMoveCopy | .pageMoveDone | .pageMoveAbort | .cadastreCommit _ | .memmapEnable _ | .kilnCommit _
  | .faultFwEnable _ | .faultFwDisable _ | .faultFwHead _ | .faultRecordWrite | .rstNReset _ | .rstNGlitch _
  | .resetWarm _ | .warmResetEntry | .warmResetDrainEnd | .flushTimeout | .bringupStart _ _ | .selfRefreshExit _
  | .initPass _ | .resetDone _ | .startTimeout _ | .datumSwreset _ | .datumWatchdog _ | .wdtKick _ | .powerOn _ _
  | .standbyLost _ | .vinLow _ _ | .junctionTrip _ _ | .refclkLoss _ | .rstNRelease _ | .vinCollapse _ => true

end Sys2Proof
end

