-- ==== Sys2Proof/Tests/Slice0.lean ====
section
/-! SUPPORT. Ill-formed commands that WellFormed refuses, small tests of single steps, and for every statement with hypotheses a
witness: a concrete state and operands that meet them, clause by clause. -/

namespace Sys2Proof.Tests

/- Each test is checked before the next is read: tests that wait for one another, each on a thread of its own, would together
hold more memory than the check allows. -/
set_option Elab.async false

open Sys2Proof.Machine

/-! ### States to start from -/

/-- The machine in service with the given work. -/
def sv (w : Work) : State :=
  { env := { State.reset.env with rst := { State.reset.env.rst with phase := .service, powerOn := false, ready := true } }, w := w }

/-- Parcel 5: generation 1, ASSIGNED, MEMORY without protection, members 0 and 1, one plot, held and written by host 0. -/
def cad5 : BitVec 512 := BitVec.ofNat 512 (5 + 2 ^ 16 + 2 ^ 32 + 3 * 2 ^ 40 + 2 ^ 64 + 2 ^ 128 + 2 ^ 192 + 4096 * 2 ^ 320)

/-- Host 0 up on port 0 with parcel 5 at LDA 0; the parcel's plot is plot 1 of this device. -/
def w5 : Work :=
  { pool := { mem := [(4096, 1), (4097, 1)], cad := [(5, cad5)] }
    regs := [(aPortStatus 0, BitVec.ofNat 32 (3 * 2 ^ 16)), (aTractGeometry 1, BitVec.ofNat 32 (2 ^ 30))]
    live := [(aQosHostCtl 0, BitVec.ofNat 32 (2 ^ 30))]
    ports := { lds := [(0, { enabled := true, extents := [⟨0, 2 ^ 21, 5, 1⟩] })] } }

def q0 : HostReq := ⟨0, 64, 7, false⟩
def x5 : Extent := ⟨0, 2 ^ 21, 5, 1⟩
def p5 : Place := ⟨0, 2 ^ 21 + 64⟩
/-- A header from device 1, and the extension of a request of its host 3 for parcel 5. -/
def h1 : Hdr := ⟨1, 3, 0, 9, false⟩
def e5 : Ext := ⟨5, 1, 64, 0, 1, 3, 0⟩
/-- A device with peers 1 to 3 present. -/
def board4 : Work := { regs := [(aDaothCtl, BitVec.ofNat 32 (15 * 2 ^ 16))] }
/-- A request of host 0, open at its home. -/
def r5 : Req := { op := .rd .i, dev := 0, agent := 0, tag := 7, frame := 0, parcel := 5, gen := 1, off := 64, line := 32769 }
def d0 : Payload := ⟨1, false⟩

/-! ### Witnesses: the step, the clock, Kiln (02, 16) -/

theorem witness_StepRunsFrontCommand :
    ({ State.reset with pending := [.idcode] }).pending = .idcode :: [] ∧ State.reset.pending = [] := by decide

theorem witness_FusesAreBlownOnce :
    let s : State := { State.reset with
      env := { State.reset.env with sec := { State.reset.env.sec with retired := 1, provisioned := true } }, pending := [.idcode] }
    (∃ t, step s = .next t) ∧ bitAt s.env.sec.retired 0 = true ∧ s.env.sec.provisioned = true := ⟨⟨_, rfl⟩, by decide, rfl⟩

theorem witness_LegalClockIsKept : State.reset.env.legal ∧ ∃ t, step { State.reset with pending := [.frameBoundary []] } = .next t := by
  refine ⟨?_, _, rfl⟩
  unfold Env.legal periodLegal
  refine ⟨by decide, by decide, by decide, fun _ h => ?_, fun _ _ _ h => ?_, fun h => ?_, by decide⟩
  all_goals cases h

theorem witness_TrafficLeavesTheClockAlone :
    let s : State := { State.reset with env := { State.reset.env with rst := { phase := .held } } }
    Instr.ownsEnv (.cqHead 0 0 0) = false ∧ (∃ t, exec (.cqHead 0 0 0) s = .next t) ∧ mainRuns s.env = false :=
  ⟨rfl, ⟨_, rfl⟩, rfl⟩

theorem witness_MemoryWriteReadsBack : Memory.wf [(64, 1)] = true ∧ (0 : Nat) < 64 ∧ 64 * 1 + 64 ≤ 128 ∧ 63 < 64 * 1 := by decide

theorem witness_FrameCounterCountsBoundaries :
    State.reset.env.rst.phase ≠ .off ∧ ({ phase := .off } : Rst).phase = .off ∧
    (∃ t, exec .idcode State.reset = .next t) := ⟨by decide, rfl, _, rfl⟩

theorem witness_MeridianCommitIsChecked :
    mainRuns (sv {}).env = true ∧ bitAt (0x80000010#32).toNat 31 = true ∧ bitAt (0x10#32).toNat 31 = false ∧
    (let p : MerPending := ⟨0, 0x10, 0, 0, 0, 0, 0⟩
     (((sv {}).env.setMerPending (some p)).merPending = some p) ∧ (0 : Nat) < { p with frame := 2 }.frame ∧ p.frame ≤ (sv {}).env.clk.frame ∧ merCheck (sv {}).env {} p true = 0 ∧
     p.period < 256 ∧ p.src < 4 ∧ p.mode < 4) := by decide

theorem witness_LateSyncEdgeLengthensTheFrame :
    (let e := { (sv {}).env with mer := { live := triOf (0x10 + 2 ^ 26) } }
     mainRuns e = true ∧ isSource e {} = true ∧ e.syncMode = 1 ∧ e.syncMode ≠ 0 ∧ 20 ≤ 20 ∧ e.clk.start < 1000000 ∧
     1000000 ≤ e.clk.next ∧ 8 * (1000000 - e.clk.start) ≤ e.clk.lastPeriod ∧
     (e.period < 8 * (e.clk.next - 1000000) ∨ 1000000 - e.clk.start ≤ e.clk.next - 1000000) ∧ e.clk.taken = none ∧
     e.clk.start ≤ 4000000 ∧ 4000000 ≤ e.clk.next ∧ e.clk.lastPeriod < 8 * (4000000 - e.clk.start) ∧
     e.period < 8 * (e.clk.next - 4000000)) := by decide

/-- A follower of device 1. -/
def follower : Env := { (sv {}).env with mer := { live := triOf (0x10 + 2 ^ 24) } }

theorem witness_FollowerAlignsToTheSource :
    mainRuns follower = true ∧ isSource follower board4 = false ∧ follower.clk.returned = false ∧
    1 = meridianSource follower board4 ∧ (0x04 ≤ 0x10 ∧ 0x10 ≤ 0x80) ∧ follower.clk.slewing = false ∧
    (offSource follower.clk.next 8000000 (0x10 * 500000)).1.natAbs ≤ follower.period / 8 ∧
    4 ≤ ({ follower.clk with noFlit := 4 } : Clk).noFlit := by decide

theorem witness_AbandonedSnapshotKeepsItsHeader :
    poolRuns (sv {}).env = true ∧ ({ writing := some ⟨0, 0, 0, 0⟩ } : Mer).writing = some ⟨0, 0, 0, 0⟩ := by decide

theorem witness_LatchSamplesAndDrains :
    poolRuns (sv {}).env = true ∧ (sv {}).env.mer.writing = none ∧
    (let w : Work := { pool := { cad := [(5, BitVec.ofNat 512 (2 * 2 ^ 32))] } }
     eState (cadEntry w 5) = stRevoking ∧ eRevoke (cadEntry w 5) + 4 ≤ ({ frame := 4 } : Clk).frame) ∧
    (let w : Work := { pool := { removals := [(5, 0, 0)] } }
     w.pool.removals.find? (fun x => x.1 == 5 && x.2.1 == 0) = some (5, 0, 0) ∧
     (allReqs w).any (countsFor (sv {}).env 5 (some 0)) = false) := by decide +kernel

/-! ### Witnesses: hosts and peers at the home (03, 05, 06, 13) -/

/-- `w5` once the line of host 0's request is counted, and its request as the home sees it. -/
def w5c (op : HomeOp) : Work := taken (sv w5) q0 op
def rq (op : HomeOp) : Req := portReq (sv w5).env (w5c op) q0 x5 op

theorem witness_HostRequestsReachTheirHome :
    (∀ op ∈ [HomeOp.rd .i, .rd .s, .rd .a, .wr .i d0 (BitVec.allOnes 64) true, .wr .a d0 1 false, .evict],
      portTakes (sv w5) (w5c op) q0 ∧ extentOf ((w5c op).ld 0) 64 = some x5 ∧ hostMay (w5c op) 0 x5 (hostWrites op) ∧
      resolvesHere (sv w5).env (w5c op) (rq op) p5) ∧
    (∀ o ∈ [Rmw.fetchAdd 8 1, .swap 4 1, .cas 16 1 2],
      let w := countLine w5 0 (.rmw o)
      apertureTakes (sv w5) w q0 o ∧ extentOf (w.ld 0) 64 = some x5 ∧ hostMay w 0 x5 true ∧
      resolvesHere (sv w5).env w (portReq (sv w5).env w q0 x5 (.rmw o)) p5) := by
  constructor <;> intro o h <;> fin_cases h <;> and_intros <;> decide +kernel

/-- Parcel 5 back in FREE. -/
def w5f : Work := { w5 with pool := { w5.pool with cad := [(5, setEf cad5 33 32 0)] } }

theorem witness_RefusedHostRequestsTouchNothing :
    portTakes (sv w5) (w5c (.rd .i)) { q0 with lda := 2 ^ 21 } ∧ extentOf ((w5c (.rd .i)).ld 0) (2 ^ 21) = none ∧
    (let w := taken (sv w5f) q0 (.wr .i d0 1 false)
     portTakes (sv w5f) w q0 ∧ extentOf (w.ld 0) 64 = some x5 ∧ eState (cadEntry w 5) ≠ stAssigned) ∧
    eGen (setEf cad5 31 16 2) ≠ x5.gen ∧ bitAt (eHolders (setEf cad5 191 128 2)) 0 = false := by
  unfold portTakes; decide +kernel

theorem witness_PeerRequestsReachTheirHome :
    fromPeer (sv w5) h1 [3] ∧ 1 ≠ (sv w5).env.board ∧
    (let w := reported (sv w5).env w5 1 3
     let r := msgReq h1 e5 (.rd .i) 0
     peerMay w 1 r ∧ resolvesHere (sv w5).env w r p5) ∧
    (let r := msgReq h1 e5 .pRdCur 32769
     peerMay w5 1 r ∧ resolvesHere (sv w5).env w5 r p5 ∧ secondaryHere (sv w5).env w5 1 e5 32769 = false) := by
  and_intros <;> decide +kernel

/-- A TWIN parcel whose primary is on device 1 and whose secondary is plot 1 of this device. -/
def cad6 : BitVec 512 := BitVec.ofNat 512 (6 + 2 ^ 16 + 2 ^ 32 + 3 * 2 ^ 34 + 3 * 2 ^ 40 + 2 ^ 64 + 2 ^ 128 + 2 ^ 192 + 8192 * 2 ^ 320)
def w6 : Work := { pool := { mem := [(8192, 69), (8193, 2), (8196, 8)], cad := [(6, cad6)] }, regs := [(aTractGeometry 1, BitVec.ofNat 32 (2 ^ 30)), (aChannelSvc 11, 0)] }
def e6 : Ext := { e5 with parcel := 6 }
def nc (st : Option PeerSt) (dirty : Bool) : NcLine := { data := 3, poison := false, dirty := dirty, parcel := 5, st := st }
/-- A transaction of line 32769 that waits for host 0. -/
def txn5 : Txn := { req := r5, waits := [.host 0 0 .inv], mirror := some (1, d0) }
/-- The same, a request sent to device 1 under tag 9, host 0 up. -/
def wTxn : Work :=
  { home := { txns := [txn5], waiting := [r5], forwarded := [(1, { r5 with agent := 3, tag := 9, after := some .mashRd })] }
    regs := [(aPortStatus 0, BitVec.ofNat 32 (3 * 2 ^ 16))] }

theorem witness_PeerSecondaryRead : secondaryHere (sv w6).env w6 1 e6 32769 = true := by decide +kernel

/-- A relay of one line whose snoop host 0 has not answered. -/
def relay5 : Relay := { dev := 1, tag := 2, line := 32769, lines := 1, kind := .inv, agents := [0], held := [], whole := false }

theorem witness_HostLinesAtTheirHome :
    wTxn.home.waiting.find? (fun r => r.line == 32769 && r.dev == 0 && r.agent == 0 && r.tag == 7) = some r5 ∧
    wTxn.home.waiting.find? (fun r => r.line == 1 && r.dev == 0 && r.agent == 3 && r.tag == 9) = none ∧
    wTxn.home.forwarded = [(1, { r5 with agent := 3, tag := 9, after := some .mashRd })] ∧ wTxn.home.conflicts = [] ∧
    headUp wTxn 0 = true ∧ wTxn.home.txns.find? (fun t => t.req.line == 32769 && t.waits.any (isHost 0 0)) = some txn5 ∧
    (({} : Work).home.txns = [] ∧ relay5.line ≤ 32769 ∧ 32769 < relay5.line + max 1 relay5.lines ∧
      relay5.agents.contains (relayIx relay5 32769 0) = true) ∧
    ({} : Work).home.forwarded.any (fun y => y.2.dev == 0 && y.2.agent == 0 && y.2.line == 5 && !y.2.rty) = false ∧
    wTxn.home.forwarded.any (fun y => y.2.dev == 0 && y.2.agent == 3 && y.2.line == 32769 && !y.2.rty) = true ∧
    ncGet { pool := { nc := [(5, nc none false)] } } 0 5 = some (nc none false) ∧
    ncGet { pool := { nc := [(5, nc none true)] } } 0 5 = some (nc none true) ∧
    eClass (cadEntry { pool := { cad := [(5, setEf cad5 35 34 1)] } } 5) = 1 := by and_intros <;> decide +kernel

/-- Host 0 in a state, with a deadline at 0. -/
def hostIs (c : HostCoh) (dev : Nat) : Work := { home := { hosts := [(64 * dev, { coh := c, deadline := some 0 })] } }

theorem witness_SuspectAndLostHosts :
    snoopOpen { (sv wTxn).env with clk := { next := 10 ^ 15 } } wTxn 0 32769 = true ∧ (wTxn.host 0 0).coh = .active ∧
    wTxn.due.contains (.suspect 0) = false ∧
    ((hostIs .suspect 0).host 0 0).coh = .suspect ∧ ((hostIs .suspect 0).host 0 0).deadline = some 0 ∧ 0 ≤ (sv {}).env.clk.start ∧
    fromPeer (sv {}) h1 [] ∧ ((hostIs .lost 0).host 0 0).coh = .lost ∧ 1 ≠ (sv {}).env.board ∧
    ([⟨1, some 3, 0⟩] : List Sweep).any (fun x => x.dev == 1 && x.agent == some 3) = true ∧
    sweepLines { dir := { sweeps := [⟨1, some 3, 0⟩] } } (fun d => !d.coarse && d.names (holderOf 1 3)) = [] ∧
    ([⟨0, some 3, 0⟩] : List Sweep).any (fun x => x.dev == 0 && x.agent == some 3) = true ∧
    sweepLines { dir := { sweeps := [⟨0, some 3, 0⟩] } } (fun d => !d.coarse && d.names (holderOf 0 3)) = [] := by
  and_intros <;> decide +kernel

theorem witness_ProxyAnswersSnoops :
    fromPeer (sv {}) h1 [] ∧ ownPending {} 1 5 = false ∧ ncGet {} 1 5 = none ∧
    ownPending { home := { forwarded := [(1, { r5 with op := .pEvict, line := 5 })] } } 1 5 = true ∧
    ncGet { pool := { nc := [(2 ^ 42 + 5, nc (some .e) false)] } } 1 5 = some (nc (some .e) false) := by and_intros <;> decide +kernel

theorem witness_ProxyDropTellsTheHome :
    (∀ st ∈ [PeerSt.s, .m, .o, .e], ncGet { pool := { nc := [(2 ^ 42 + 5, nc (some st) true)] } } 1 5 = some (nc (some st) true)) ∧
    proxyBusy {} 1 5 = false ∧ proxyBusy { home := { forwarded := [(1, { r5 with op := .pUpg, agent := 0x7F, line := 5 })] } } 1 5 = true ∧
    1 ≠ (sv {}).env.board := by decide +kernel

/-- A transaction that waits for the copy on device 1. -/
def txnCopy : Txn := { req := { r5 with tag := 9 }, waits := [], copy := some ⟨1, 64⟩ }

theorem witness_PeerAnswersAreTaken :
    fromPeer (sv {}) h1 [] ∧ fromPeer (sv {}) h1 [0] ∧
    (∀ a ∈ [HomeOp.mashRd, .mashWr d0 (BitVec.allOnes 64) true],
      let x : Nat × Req := (1, { r5 with agent := 3, tag := 9, after := some a })
      let w : Work := { home := { forwarded := [x] } }
      sentReq w 1 3 9 = some x ∧ x.2.line = 32769 ∧ x.2.after = some a ∧ x.2.op = .rd .i ∧ (∀ o, x.2.op ≠ .rmw o) ∧
      copyTxn w 1 9 = none) ∧
    copyTxn { home := { txns := [txnCopy] } } 1 9 = some txnCopy ∧ sentReq {} 1 3 9 = none ∧ copyTxn {} 1 9 = none ∧
    mirrorTxn {} 1 9 = none ∧
    (let o : OpSlot := { kind := 2, peer := 1, claimed := false }
     ({ ops := [(0, o)] } : Work).ops.find? (fun x => !x.2.claimed && x.2.peer == 1) = some (0, o)) ∧
    findTxn wTxn 32769 = some txn5 ∧ (wTxn.host 0 0).coh = .active ∧ headUp wTxn 0 = true := by
  refine ⟨by unfold fromPeer; decide +kernel, by unfold fromPeer; decide +kernel, fun a h => ?_, by decide +kernel, by decide +kernel, by decide +kernel,
    by decide +kernel, by decide +kernel, by decide +kernel, by decide +kernel, by decide +kernel⟩
  fin_cases h <;> exact ⟨by decide +kernel, rfl, rfl, rfl, fun o h => (by cases h), by decide +kernel⟩

theorem witness_TwinMirrorSide :
    fromPeer (sv w6) h1 [] ∧
    accessCheck (sv w6).env w6 (.fwd 1 1 0) 6 64 true = .served (.copies ⟨1, 2 ^ 22 + 64⟩ (some ⟨0, 2 ^ 21 + 64⟩) none false 0) ∧
    mirrorPlace (sv w6).env w6 1 6 64 = some (⟨1, 2 ^ 22 + 64⟩, ⟨0, 2 ^ 21 + 64⟩) ∧
    serving w6 32769 = true ∧ findTxn w6 32769 = none ∧ w6.pool.recent.length < 4096 ∧
    findTxn wTxn 32769 = some txn5 ∧ txn5.mirror = some (1, d0) ∧ txn5.rewrite = none ∧ mirrorSlot w6 6 = none ∧ takeSlot {} = some 0 ∧
    (let o : OpSlot := { kind := 2, parcel := 6, peer := 1, mirror := true }
     let w : Work := { w6 with ops := [(0, o)] }
     mirrorSlot w 6 = some (0, o) ∧ o.peer = 1 ∧ o.st ≠ 4 ∧ w.pool.move = none ∧
     w.ops.find? (fun x => x.2.mirror && x.2.peer == 1 && x.2.st != 4 && eState (cadEntry w x.2.parcel) == stAssigned) = some (0, o) ∧
     serving w 32769 = true) := by
  and_intros <;> decide +kernel

/-- A window over parcel 5: one line a bank, on die 0. -/
def wWin : Work :=
  { w5 with mash := { wins := [(0, { parcel := 5, b0 := { epoch := 0, atN0 := 1 } })] }
            regs := (aWindowLines 0, BitVec.ofNat 32 1) :: w5.regs }

/-- A SYNC parcel at the place of parcel 5. -/
def wSyn2 : Work := { w5 with pool := { w5.pool with cad := [(5, setEf cad5 38 36 2)] } }

/-- Parcel 6 lost its primary with device 1: its pages are promoted here and none is resolved. -/
def wProm : Work := { w6 with pool := { w6.pool with cad := [(6, setEf cad6 46 46 1)] }, home := { w6.home with promoted := [1] }, kiln := { parts := [(0, { bg := 8192 })] } }

theorem witness_PeerSyncWindowsAndSweeps :
    fromPeer (sv w5) h1 [] ∧
    (accessCheck (sv wSyn2).env wSyn2 (.fwd 1 1 0) 5 64 true = .served (.copies p5 none none false 0) ∧
      (Loc.copies p5 none none false 0).primary wSyn2 = some p5 ∧ p5.dev = (sv wSyn2).env.board ∧ eKind (cadEntry wSyn2 5) = 2 ∧
      7 ≠ noRing ∧ findTxn wSyn2 32769 = none ∧ reservation wSyn2 32769 = none) ∧
    getDesc { mash := { descs := [(2 ^ 32 + 3, { ring := 1, n := 3, img := 0, phase := .held })] } } 1 3 =
      some { ring := 1, n := 3, img := 0, phase := .held } ∧
    mget wWin.mash.wins 0 = some { parcel := 5, b0 := { epoch := 0, atN0 := 1 } } ∧
    (winBank { parcel := 5, b0 := { epoch := 0, atN0 := 1 } } 0).st = 0 ∧
    linesOnDie (sv wWin).env wWin 0 5 0 0 = 1 ∧ 1 ≤ (winBank { parcel := 5, b0 := { epoch := 0, atN0 := 1 } } 0).atN0 ∧
    ([⟨1, none, 0⟩] : List Sweep).any (fun x => x.dev == 1 && x.agent == none) = true ∧
    sweepLines { dir := { sweeps := [⟨1, none, 0⟩] } } (fun d => d.peers.contains 1) = [] ∧
    wTxn.home.waiting.any (fun r => r.parcel == 5 && pageOf r.off == 0) = true ∧
    wProm.home.waiting.any (fun r => r.parcel == 6 && pageOf r.off == 0) = false ∧
    nextPage (sv wProm).env wProm (cadEntry wProm 6) = some 0 ∧ bgOpen wProm (parcelPart wProm 6) = true ∧
    ({ pool := { recovered := [5] } } : Work).pool.recovered.contains 5 = true ∧
    locate (sv wProm).env wProm (cadEntry wProm 6) 0 = .copies ⟨0, 2 ^ 21⟩ none none true 0 ∧ (⟨0, 2 ^ 21⟩ : Place).dev = 0 ∧
    tracked wProm 6 = true ∧ wProm.pool.recovered.contains 6 = false ∧
    p0Bit (sv wProm).env wProm (recoveryBase (cadEntry wProm 6)) 0 = false ∧ wProm.home.resolving.contains (6, 0) = false ∧
    wProm.home.txns = [] := by
  and_intros <;> decide +kernel
/-! ### Witnesses: tiles, Tuns and Mash operations (07, 08, 09) -/

/-- A FILL descriptor of ring 1 on Tun 0, and its first tile. -/
def dF : Desc := { ring := 1, n := 0, img := 2 + 2 ^ 20 + 1000 * 2 ^ 128, tun := some 0, phase := .running }
def tF (st : TileSt) : Tile := { ring := 1, n := 0, idx := 0, tun := 0, epoch := 5, frame := 0, blocks := 0, st := st, ph := 2 }
/-- Tun 0 in SERVE with epoch 5, ring 1 of host 0, room in the plan. -/
def wMash (ts : List Tile) : Work :=
  { mash := { descs := [(2 ^ 32, dF)], tiles := ts, rings := [(1, {})] }
    regs := [(aTunRole 0, BitVec.ofNat 32 (2 ^ 16 + 5)), (aTunRole 1, BitVec.ofNat 32 (2 ^ 16 + 9)),
             (aRingCtl 1, BitVec.ofNat 32 (2 ^ 31 + 2 ^ 25)), (aRingStatus 1, BitVec.ofNat 32 (2 ^ 16))]
    kiln := { parts := [(0, { mash := 1000000 })] } }

theorem witness_TilesAreIssuedAndDispatched :
    (let s := sv (wMash [])
     getDesc s.w 1 0 = some dF ∧ mayIssue s.env s.w dF 0 = true ∧ s.env.clk.start ≤ 1000 ∧ 1000 < s.env.clk.next ∧
     timeFits s.env s.w 0 1000 1000 = true ∧ allotted s.w (ringOwner s.w 1) 64 5 = true ∧
     underCeiling s.w (ringOwner s.w 1) 64 = true ∧ slotOwned s.env s.w (slotAt s.env 1000) (ringOwner s.w 1) = true ∧ 1000 < s.env.period ∧ s.env.clk.start + s.env.period ≤ 7999000 + 1000) ∧
    getTile (wMash [tF .sentOut]) 1 0 0 = some (tF .sentOut) ∧ getTile (wMash [tF .stale]) 1 0 0 = some (tF .stale) ∧
    getDesc (wMash [tF .stale]) 1 0 = some dF ∧ tunDie 1 = tunDie 0 ∧ dF.tun ≠ some 1 ∧ dF.tun = some 0 ∧
    tunRole (wMash [tF .stale]) 0 = roleServe ∧
    takesDesc (wMash [tF .stale]) 1 (ringOwner (wMash [tF .stale]) 1) = true := by and_intros <;> decide +kernel

/-- A walk that waits, and a prefetch that is queued. -/
def walk0 : Walk := { tun := 0, ctx := 3, cva := 4096, write := false }

/-- Context 0 enabled; a tile whose one page is translated, or has faulted. -/
def wXlat (t : Tile) : Work := { wMash [t] with xlat := { ctxs := [(0, { entry := 0, on := true })] } }
def tW (pl : Option (Nat × Nat × Nat)) (f : Option Nat) : Tile :=
  { tF .walking with pages := [{ page := 0, wr := true, stream := 4, place := pl, fault := f }] }

theorem witness_TilesAreTranslatedByWalks :
    (∀ x ∈ [(tW (some (0, 5, 0)) none, true, false), (tW none (some 0x5001), true, true), (tF .arrived, false, false)],
      let w := wXlat x.1
      getTile w 1 0 0 = some x.1 ∧ getDesc w 1 0 = some dF ∧ dF.phase = .running ∧ inOrder w dF 0 = true ∧ blockHeld w 1 0 = false ∧
      getCtx w (dCtx dF.img) = some { entry := 0, on := true } ∧
      (pagesTried (sv w).env w dF x.1).1.all pageDone = x.2.1 ∧
      (pagesTried (sv w).env w dF x.1).1.any (fun p => p.fault.isSome) = x.2.2 ∧ scatterUnit w dF x.1 = false) ∧
    getCtx (wMash [tF .arrived]) (dCtx dF.img) = none ∧
    ({ xlat := { walks := [walk0] } } : Work).xlat.walks.find?
      (fun k => sameWalk k { tun := 0, ctx := 3, cva := 4096, write := false }) = some walk0 ∧
    ({ xlat := { pre := [(0, 3, 1)] } } : Work).xlat.pre.contains (0, 3, 4096 / 4096) = true := by
  refine ⟨fun x h => ?_, by decide +kernel, by decide +kernel, by decide +kernel⟩
  fin_cases h <;> and_intros <;> decide +kernel

/-- Tun 0 left SERVE at frame 0: its tile is still there at frame 2, and Tun 1 serves. -/
def wOld : Work :=
  { wMash [tF .reading] with
    mash := { (wMash [tF .reading]).mash with tuns := [(0, { changed := some 0, strikes := [(2, 0)] })] }
    regs := [(aTunRole 1, BitVec.ofNat 32 (2 ^ 16 + 9)), (aRingCtl 1, BitVec.ofNat 32 (2 ^ 31 + 2 ^ 25))] }

theorem witness_TunRolesAndStrikes :
    bitAt (0x80030000#32).toNat 31 = true ∧ bitsOf (0x80030000#32).toNat 17 16 = 3 ∧ bitAt (0x10000#32).toNat 31 = false ∧
    (0 : Nat) < 2 ^ 16 ∧ mget (wOld.tun 0).strikes 2 = some 0 ∧ 0 < 0 + strikeFrames wOld ∧
    getTile wOld 1 0 0 = some (tF .reading) ∧ getDesc wOld 1 0 = some dF ∧ (wOld.tun 0).changed = some 0 ∧
    0 + 2 ≤ ({ frame := 2 } : Clk).frame ∧ tunRole wOld 0 ≠ roleServe ∧ (getDesc (abandonTile wOld (tF .reading)) 1 0).isSome = true ∧
    tilesOf (abandonTile wOld (tF .reading)) 1 0 = [] ∧
    takesDesc (abandonTile wOld (tF .reading)) 1 (ringOwner (abandonTile wOld (tF .reading)) 1) = true ∧ tunDie 1 = tunDie 0 := by
  and_intros <;> decide +kernel

/-- The same descriptor of another operation, its tile with nothing left to read. -/
def wOp (op : Nat) : Work := { wMash [tF .reading] with mash := { (wMash [tF .reading]).mash with descs := [(2 ^ 32, { dF with img := op })] } }

theorem witness_MashOperationsRun :
    (∀ op ∈ [opCopy, opFill, opConvert, opReduce, opAxpby, opDot, opGather, opScatter, opStep, opQuantize, opDequant, opChecksum,
       opCow, opRecipe], getTile (wOp op) 1 0 0 = some (tF .reading) ∧ getDesc (wOp op) 1 0 = some { dF with img := op } ∧ dOp op = op) ∧
    readsIn (wOp 2) (tF .reading) = true ∧ blockHeld (wOp 2) 1 0 = false ∧ dF.tainted = false ∧ dF.act = [] ∧
    (tileMem (wOp 2) (tF .reading)).any (·.2.poison) = false ∧ (tF .computed).st ≠ .reading ∧ (5 : Nat) < 2 ^ 64 := by
  and_intros <;> decide +kernel

theorem witness_TilesCompleteOrAreRetried :
    getTile (wMash [tF .computed]) 1 0 0 = some (tF .computed) ∧ getDesc (wMash [tF .computed]) 1 0 = some dF ∧
    thirdCore (wMash [tF .computed]) 0 0 (rerunCore (wMash [tF .computed]) 0 0) 3 = true ∧
    (let w := chargeCycles (chargeCycles (wMash [tF .computed]) dF (tF .computed)) dF (tF .computed)
     noRoom w (arithRec (sv w).env w dF (tF .computed) 0x4002 1) = false) ∧
    (tF .computed).frame = (sv {}).env.clk.frame ∧ (tF .computed).late = false ∧
    (tilesOf (wMash [tF .passed]) 1 0).filter (fun t => t.st != .sent) = [tF .passed] ∧ (tF .passed).st = .passed ∧
    overtaken (sv {}).env (wMash [tF .passed]) (tF .passed) = false := by and_intros <;> decide +kernel

/-! ### Witnesses: channels, Sparge, page moves, slots (03, 04, 14, 17) -/

def mod5 : Module := { mrdimm := false, rate := 4800, gib := 32, ranks := 1, stack := false, serial := 1 }
/-- Channel 11, which holds line 32769, in a state (`coord`: subchannel 0 or 1 of that line, by the masks after reset). -/
def wCh (st : Nat) (c : Chan) : Work :=
  { regs := [(aTractGeometry 1, BitVec.ofNat 32 (2 ^ 30)), (aChannelSvc 11, BitVec.ofNat 32 (256 * st)), (aDramRecentre, 1)]
    chans := { ch := [(11, c)] } }
def qe : QEntry := { line := 32769, t := 0 }

/-- The row of line 32769 open in its bank. -/
def openRow : Chan := { reads := [qe], rows := [(lineKey (wCh 0 {}) 32769, (coordOf (wCh 0 {}) 32769).row)] }

theorem witness_ChannelQueuesAndReads :
    channelOf (wCh 0 {}) 32769 = 11 ∧ takesAccess (wCh 0 {}) 11 = true ∧
    ((wCh 0 { writes := [qe] }).chan 11).writes.any (fun q => q.line == 32769) = true ∧
    ((wCh 0 {}).chan 11).writes.any (fun q => q.line == 32769) = false ∧
    mhas ((wCh 0 { alert := [(0, 0)] }).chan 11).alert 0 = true ∧
    (let w := wCh 0 {}
     mhas (w.chan 11).alert 0 = false ∧ inRecentre (sv w).env w 11 1000000 = false ∧ pickAccess w 11 0 1000000 [] = none) ∧
    inRecentre (sv (wCh 0 {})).env (wCh 0 {}) 11 0 = true ∧
    (let w := wCh 0 openRow
     pickAccess w 11 0 1000000 (List.range 256) = some (false, qe) ∧ (∀ r, r < 4 → ((w.chan 11).rank 0 r).owed < 4096) ∧
     rowOpen w 11 32769 = true) ∧
    [qe].find? (aged (wCh 0 {}) 11 (10 ^ 12)) = some qe ∧ ([] : List QEntry).find? (aged (wCh 0 {}) 11 (10 ^ 12)) = none ∧
    [qe] ≠ [] ∧ [{ qe with t := 5 }].find? (aged (wCh 0 {}) 11 5) = none ∧
    serving (wCh 0 {}) 32769 = true ∧ decodeLine (wCh 0 {}) 32769 0 = .clean ∧
    decodeLine { wCh 0 {} with pool := { bad := [32769] } } 32769 0 = .uncorrectable ∧
    (match decodeLine (wCh 0 {}) 32769 1 with
      | .correctable _ => true
      | _ => false) = true := by and_intros <;> decide +kernel

theorem witness_ChannelSlotsAreUsed :
    (((wCh 0 {}).chan 11).rank 0 0).owed < 4096 ∧ (((wCh 0 {}).chan 11).rank 0 0).slots = 0 ∧
    (let x := (wCh 0 { ranks := [(0, { slots := 1, rfm := 1, given := 1 })] }).chan 11
     let e := (sv {}).env
     (x.rank 0 0).slots ≠ 0 ∧ (x.rank 0 0).rfm ≠ 0 ∧ e.clk.now < slotTime e x 0 (x.rank 0 0) ∧
     slotTime e x 0 (x.rank 0 0) ≤ ({ e.clk with now := e.clk.next } : Clk).now) ∧
    ((wCh 0 { mod := some mod5 }).chan 11).mod = some mod5 ∧ recentreDue (sv {}).env (wCh 0 {}) 11 = true ∧
    takesAccess (wCh 0 {}) 11 = true ∧ ((wCh 0 {}).chan 11).alert.isEmpty = true := by and_intros <;> decide +kernel

theorem witness_ChannelServiceCommands :
    (1, Instr.channelQuiesce 11) ∈ [(1, Instr.channelQuiesce 11), (2, .channelPowerOff 11)] ∧
    chanState (wCh 0 {}) 11 ≠ chOff ∧ chanState (wCh 0 {}) 11 ≠ chOut ∧ svcCheck (sv {}).env (wCh 0 {}) 11 1 = 0 ∧
    svcCheck (sv {}).env (wCh 1 {}) 11 2 = 0 ∧ svcCheck (sv {}).env (wCh 2 {}) 11 3 = 0 := by and_intros <;> decide +kernel

theorem witness_AlertsAndChannelOut :
    mhas ((wCh 0 { alert := [(0, 0)] }).chan 11).alert 0 = true ∧ ((wCh 0 { mod := some mod5 }).chan 11).mod = some mod5 ∧
    mhas ((wCh 0 { mod := some mod5 }).chan 11).alert 0 = false ∧ mget ((wCh 0 { alert := [(0, 0)] }).chan 11).alert 0 = some 0 ∧
    0 ≤ 5 ∧
    ((wCh 1 { out := some ⟨1, 0, 0⟩ }).chan 11).out = some ⟨1, 0, 0⟩ := by and_intros <;> decide +kernel

/-- Sweeps in which every step passes. -/
def swAll : Sweeps :=
  let l := List.replicate 128 true
  ⟨l, l, l, l, l⟩
/-- A row repair of channel 11, row 0 of bank 0. -/
def ppr5 : Repair := ⟨0, true, [5]⟩

theorem witness_TrainingRebuildAndRepair :
    trainingOpen (wCh 3 {}) 11 = true ∧ supported mod5 = true ∧ supported { mod5 with rate := 1 } = false ∧
    sweepFault mod5 [] = some (0, 6) ∧ sweepFault mod5 ((groupKeys mod5).map (·, swAll)) = none ∧
    (let o : OpSlot := { kind := 1, chan := 11 }
     let w := { wCh 5 {} with ops := [(0, o)], kiln := { parts := [(0, { bg := 4096 })] } }
     rebuildSlot w 11 = some (0, o) ∧ chanState w 11 = chRebuilding ∧ o.mark < rebuildEnd w 11 ∧ o.st = 1 ∧ o.next ≠ some o.mark ∧
     bgOpen w (bgPart w 1) = true ∧ (unitLines w 11 o.mark).any (repairHolds w 11) = false ∧
     ∀ l, l ∈ unitLines w 11 o.mark → remoteSource (sv w).env w o l = none) ∧
    pprCheck (wCh 0 {}) 11 0 false true = 0 ∧ pprCheck (wCh 0 {}) 11 0 false false ≠ 0 ∧
    pprCheck (wCh 1 {}) 11 (2 ^ 28) true true = 0 ∧ pprCheck (wCh 1 {}) 11 (2 ^ 28) true false ≠ 0 ∧ chanState (wCh 0 {}) 11 ≠ chOut ∧
    ((wCh 0 { ppr := some ppr5 }).chan 11).ppr = some ppr5 ∧ pprHard ppr5.v = false ∧ (rowLines (wCh 0 {}) 11 ppr5.v) ≠ [] ∧ 5 ∈ ppr5.bad := by
  and_intros <;> decide +kernel

theorem witness_ZeroingIsChecked :
    eState (cadEntry {} 0) ≠ stScrubbing ∧ eState (cadEntry { pool := { cad := [(5, setEf cad5 33 32 3)] } } 5) = stScrubbing := by
  decide +kernel

theorem witness_ZeroingAndPatrolAdvance :
    ({ w5 with pool := { w5.pool with zero := some (5, 0) } } : Work).pool.zero = some (5, 0) ∧ 0 < parcelLines w5 5 ∧
    parcelLines w5 5 ≤ 32768 ∧ (allReqs w5).any (fun r => r.agent == 0x7E && r.parcel == 5) = false ∧
    bgOpen w5 (parcelPart w5 5) = false ∧
    bgOpen { w5 with kiln := { parts := [(0, { bg := 64 })] } } (parcelPart w5 5) = true ∧
    w5.fld aSpargePatrol 31 31 = 0 ∧
    (let w : Work := { regs := [(aSpargePatrol, BitVec.ofNat 32 (2 ^ 31))], kiln := { parts := [(0, { bg := 64 })] } }
     w.fld aSpargePatrol 31 31 ≠ 0 ∧ patrolOpen w = true) := by and_intros <;> decide +kernel

/-- Parcel 5 with its plot split: the split page of page 0 is page 0 of the split table at 2^12. -/
def wSplit : Work :=
  { pool := { mem := [(4096, 3), (4105, 1), (65536, 1)], cad := [(5, cad5)] }, regs := [(aTractGeometry 1, BitVec.ofNat 32 (2 ^ 30))] }

def move5 : PageMove := { parcel := 5, plot := 0, page := 0, copy := 0, tdev := 0, tpage := 0, frame := 0 }

theorem witness_PagesMove :
    wSplit.pool.move = none ∧ moveRefused (sv {}).env {} 5 0 = true ∧ move5.frame + 1 ≤ ({ frame := 1 } : Clk).frame ∧
    ({ wSplit with pool := { wSplit.pool with move := some move5 } } : Work).pool.move = some move5 ∧ move5.copied = false ∧
    (moveEntry (sv wSplit).env wSplit move5).isSome = true ∧ move5.frame + 3 ≤ ({ frame := 3 } : Clk).frame ∧
    (let e : Env := { (sv wSplit).env with clk := { frame := 2 } }
     moveInTime e wSplit move5 = true ∧ moveInTime { e with clk := { frame := 2, now := 7000000 } } wSplit move5 = false ∧
     moveInTime { e with clk := { frame := 1, now := 7000000 } } wSplit move5 = true) ∧
    wSplit.home.held = [] := by and_intros <;> decide +kernel

theorem witness_MapAndGazetteerAreEnabled :
    bitAt (0x80000000#32).toNat 31 = true ∧ ({} : Work).fld aMemmapCtl 31 31 = 0 ∧
    ({ regs := [(aMemmapCtl, BitVec.ofNat 32 (2 ^ 31))] } : Work).fld aMemmapCtl 31 31 = 1 ∧ gazOn {} 0 = false ∧
    gazOn { regs := [(aGazCtl 0, BitVec.ofNat 32 (2 ^ 31))] } 0 = true ∧
    (let w : Work := { w5 with
      regs := (aGazCtl 0, 5) :: (aChannelSvc 11, 0) :: w5.regs
      pool := { w5.pool with mem := [(4096, 1), (4097, 1), (2 ^ 21 + 64, 5)] } }
     headerRead (sv w).env w (storeParcel w 0) (gazK w 0) % 32 ≠ 0) := by and_intros <;> decide +kernel

/-- A slot that runs, with a background allotment. -/
def wSlot (w : Work) (o : OpSlot) : Work := { w with ops := [(0, o)], kiln := { parts := [(0, { bg := 2 ^ 23 })] } }

theorem witness_TwinOperationsStartAndCopy :
    (1, Instr.establish 0xA0010005#32) ∈ [(1, Instr.establish 0xA0010005#32), (2, .resilver 0xA0010005#32)] ∧
    bitAt (0xA0010005#32).toNat 31 = true ∧ bitAt (0x20010005#32).toNat 31 = false ∧
    (let o : OpSlot := { kind := 2, parcel := 5, peer := 1 }
     let w := wSlot w5 o
     runningSlot w 0 2 = some o ∧ nextDirty (sv w).env w 5 ((o.mark + 31) / 32) = none ∧ rangeOpen w o 0 65536 = false) ∧
    (let o : OpSlot := { kind := 2, parcel := 5, peer := 1, mark := 32 }
     let w := wSlot { w5 with pool := { w5.pool with mem := [(4096, 1), (4097, 1), (8192, 1)] } } o
     runningSlot w 0 2 = some o ∧ nextDirty (sv w).env w 5 ((o.mark + 31) / 32) = some 0 ∧ rangeOpen w o 0 (2 ^ 21) = false) ∧
    (let o : OpSlot := { kind := 3, parcel := 5, peer := 1 }
     runningSlot (wSlot w5 o) 0 3 = some o) := by and_intros <;> decide +kernel

/-! ### Witnesses: links (13), rings, descriptors, windows (08), contexts (09) -/

/-- Port 0, to device 1, in a state, all four devices members. -/
def wLink (st : Nat) (l : Link) : Work :=
  { regs := [(aDaothCtl, BitVec.ofNat 32 (15 * 2 ^ 16)), (aDaothPortStatus 0, BitVec.ofNat 32 (2 ^ 16 * st))]
    links := { ports := [(0, l)], pairs := [(1, { run := some 7 })] } }
def wLinkOn : Work := { wLink lkActive {} with regs := (aDaothPortCtl 0, BitVec.ofNat 32 (2 ^ 31)) :: (wLink lkActive {}).regs }
def fl (seq : Nat) : FlitHdr := ⟨true, seq, 4095, false, 0, 0⟩
/-- A message from this device's Datum to device 1's. -/
def msg1 : MsgHead := ⟨0, 0x55, .req, 0, 0x7F, 1, 0x7F, false⟩
/-- Board 2, which takes the session of device 1. -/
def env2 : Env := { (sv {}).env with board := 2, sec := { members := [(1, 77)] } }

theorem witness_LinksAreSetUp :
    (wLink 0 {}).fld (aDaothPortCtl 0) 31 31 = 0 ∧ ((wLink 0 {}).link 0).off = false ∧ daothCheck (sv {}).env (wLink 0 {}) 0 = 0 ∧
    wLinkOn.fld (aDaothPortCtl 0) 31 31 = 1 ∧ linkState (wLink lkTraining {}) 0 = lkTraining ∧ linkState (wLink lkInit {}) 0 = lkInit ∧
    (fl 0).seq = ((takeHeader (wLink lkInit {}) 0 (fl 0)).link 0).expect ∧
    identCheck (sv {}).env (wLink lkInit {}) 0 ⟨2, 0, 15, 7⟩ = 0x0502 ∧
    identCheck (sv {}).env (wLink lkInit {}) 0 ⟨1, peerIndex 1 0, 15, 7⟩ = 0 ∧
    ((takeHeader (wLink lkInit {}) 0 (fl 0)).pair (peerDev (sv {}).env 0)).run = some 7 ∧
    ((takeHeader (wLink lkInit {}) 0 (fl 0)).link 0).trip = none ∧ ((takeHeader (wLink lkInit {}) 0 (fl 0)).link 0).echoes < 15 ∧
    initDone ((takeHeader (wLink lkInit { identOk := true, echoes := 16, session := true }) 0 (fl 0)).link 0) = true ∧
    isLost (wLink lkInit {}) 1 = false ∧ isAbsent (wLink lkInit {}) 1 = false ∧
    (portsTo (sv {}).env 1).filter (fun n => linkState (wLink lkActive {}) n == lkInit) = [] ∧
    (let w : Work := { regs := [(aDaothPortStatus 1, BitVec.ofNat 32 (2 ^ 16 * lkInit))] }
     (portsTo env2 1).filter (fun n => linkState w n == lkInit) ≠ [] ∧ 1 < env2.board ∧ memberOk env2 1 5 = none ∧
     memberOk env2 1 77 = some env2 ∧ agentKnown 0x7F = true ∧
     ({ links := { pairs := [(1, { step := 2 })] } } : Work).pair 1 = { step := 2 }) ∧
    (let w : Work := { wLink lkInit {} with links := { pairs := [(1, { step := 1 })] } }
     (portsTo (sv {}).env 1).filter (fun n => linkState w n == lkInit) ≠ [] ∧ (sv {}).env.board < 1 ∧ (w.pair 1).step = 1 ∧
     memberOk { (sv {}).env with sec := { members := [(1, 77)] } } 1 77 = some { (sv {}).env with sec := { members := [(1, 77)] } }) := by and_intros <;> decide +kernel

theorem witness_FlitsAreTaken :
    linkLive (wLink lkActive {}) 0 = true ∧ (fl 0).crcOk = true ∧ ({ fl 0 with crcOk := false } : FlitHdr).crcOk = false ∧
    (fl 0).seq = ((takeHeader (wLink lkActive {}) 0 (fl 0)).link 0).expect ∧
    ((takeHeader (wLink lkActive {}) 0 (fl 0)).link 0).held = [] ∧ (fl 0).seq = ((takeHeader (wLink lkActive {}) 0 (fl 0)).link 0).next ∧
    ((takeHeader (wLink lkActive { held := [⟨0, []⟩], next := 1 }) 0 (fl 0)).link 0).held = [⟨0, []⟩] ∧
    linkState (wLink lkActive {}) 0 = lkActive ∧
    ((wLink lkActive { inGroup := 4, expect := 4 }).link 0).inGroup ≠ 0 ∧
    ((wLink lkActive { inGroup := 4, expect := 4 }).link 0).expect % 4 = 0 := by and_intros <;> decide +kernel

theorem witness_LinksSend :
    msg1.srcDev = (sv {}).env.board ∧ msg1.dstDev = peerDev (sv {}).env 0 ∧ carries (wLink lkInit {}) 0 msg1 = true ∧
    canStart (wLink lkInit {}) 0 msg1 = true ∧ slotOpen {} (wLink lkInit {}) msg1 = true ∧ ((wLink lkInit {}).pair 1).frozen = [] ∧
    ((wLink lkActive {}).link 0).next % 4 = 0 ∧ ((wLink lkActive { next := 3 }).link 0).next % 4 = 3 ∧
    ((wLink lkActive { next := 3 }).link 0).held.length < 512 ∧ linkLive (wLink lkInit {}) 0 = true ∧
    (let l := (wLink lkActive { verified := 0, unadv := 16, held := [⟨0, []⟩], asking := 1 }).link 0
     l.ackOut ≠ l.verified ∧ 16 ≤ l.unadv ∧ l.held ≠ [] ∧ l.asking = 1) ∧
    32 ≤ ((wLink lkActive { unreported := 32 }).link 0).unreported ∧
    (let l := (wLink lkInit { occ := [256, 0, 0, 0] }).link 0
     bitAt l.xoffOut (clsIx .req) = false ∧ 256 ≤ l.occ.getD (clsIx .req) 0) ∧
    (let l := (wLink lkInit { xoffOut := 1 }).link 0
     bitAt l.xoffOut (clsIx .req) = true ∧ l.occ.getD (clsIx .req) 0 ≤ 128) := by and_intros <;> decide +kernel

/-- Devices 1 to 3 absent since frame 0. -/
def wGone : Work := { board4 with home := { absent := [(1, 0), (2, 0), (3, 0)] } }
def lateEnv : Env := { (sv {}).env with clk := { frame := 2 ^ 40 } }

theorem witness_LinksFailAndReturn :
    peerDev (sv {}).env 0 = 1 ∧
    linkState { regs := [(aDaothPortStatus 4, BitVec.ofNat 32 (2 ^ 16 * lkActive))] } (sibling 0) = lkActive ∧
    linkLive {} 0 = false ∧ linkState (wLink lkInit {}) 0 = lkInit ∧ ((wLink lkActive { away := true }).link 0).away = true ∧
    ((wLink lkActive { away := true }).link 0).since < ({ frame := 1 } : Clk).frame ∧
    unacked ((wLink lkActive {}).link (sibling 0)) = [] ∧
    (let w : Work := { board4 with home := { absent := [(1, 0)] } }
     w.home.absent.find? (fun x => x.1 == 1) = some (1, 0) ∧ lostDue lateEnv w 0 = true ∧ isolated lateEnv w = false) ∧
    fromPeer (sv {}) h1 [] ∧ 2 ≠ (sv {}).env.board ∧ isLost { home := { lost := [1] } } 1 = true ∧
    isolated lateEnv wGone = true ∧ wGone.home.absent.any (fun x => lostDue lateEnv wGone x.2) = true := by
  and_intros <;> decide +kernel

/-- Ring 1 of host 0 in a state, host 0's head up. -/
def wRing (st : Nat) (x : Machine.Ring) (d : Desc) : Work :=
  { w5 with
    mash := { rings := [(1, x)], descs := [(2 ^ 32, d)] }
    regs := (aRingCtl 1, BitVec.ofNat 32 (2 ^ 31)) :: (aRingStatus 1, BitVec.ofNat 32 (2 ^ 16 * st)) ::
      (aRingDqParcel 1, 5) :: (aTunRole 0, BitVec.ofNat 32 (2 ^ 16)) :: w5.regs
    xlat := { ctxs := [(0, ⟨0, true⟩)] } }

theorem witness_RingWritesAreChecked :
    ({} : Work).fld (aRingCtl 1) 31 31 = 0 ∧ getRing {} 1 = none ∧ (wRing 1 {} dF).fld (aRingCtl 1) 31 31 = 1 ∧
    ldReachable (wRing 1 {} dF) 0 = true ∧ ldOpen (wRing 1 {} dF) 0 = true ∧ getRing (wRing 1 {} dF) 1 = some {} ∧
    ringState (wRing 1 {} dF) 1 ≠ 0 ∧ ringOwner (wRing 1 {} dF) 1 = 0 ∧
    (let n := ringEntries (wRing 1 {} dF) 1
     (1 + 2 ^ 32 - 0 % 2 ^ 32) % 2 ^ 32 ≤ n ∧ ¬(9 + 2 ^ 32 - 0 % 2 ^ 32) % 2 ^ 32 ≤ n) := by and_intros <;> decide +kernel

theorem witness_DoorbellPageWorks :
    ldReachable (wRing 1 {} dF) 0 = true ∧ ringState (wRing 1 {} dF) 1 = 1 ∧ ringState (wRing 2 {} dF) 1 = 2 ∧
    (ringDescs (wRing 1 {} { dF with phase := .faulted }) 1).filter (fun d => d.phase == .faulted && dCtx d.img == 0) =
      [{ dF with phase := .faulted }] ∧
    (ringDescs (wRing 1 {} dF) 1).filter (fun d => d.phase == .faulted && dCtx d.img == 0) = [] ∧
    getRing (wRing 1 {} dF) 1 = some {} ∧ ringOwner (wRing 1 {} dF) 1 = 0 ∧
    getRing (wRing 1 {} dF) 2 = none ∧ ringState (wRing 0 {} dF) 1 = 0 ∧ ringOwner (wRing 1 {} dF) 1 ≠ 1 := by
  and_intros <;> decide +kernel

/-- A FILL of 1000 elements to CVA 4096 that is valid, not yet started. -/
def dV : Desc := { ring := 1, n := 0, img := 2 + 1000 * 2 ^ 128 + 4096 * 2 ^ 192 }

theorem witness_DescriptorsRunTheirCourse :
    getRing (wRing 1 { tail := 1 } dV) 1 = some { tail := 1 } ∧ ringState (wRing 1 { tail := 1 } dV) 1 = 1 ∧
    (let w := wRing 1 { tail := 1 } dV
     let a := acctDesc 0 1 0
     ({ tail := 1 } : Machine.Ring).head ≠ ({ tail := 1 } : Machine.Ring).tail ∧ ({} : Machine.Ring).head = ({} : Machine.Ring).tail ∧
     dqOff w 1 = 0 ∧
     ((ringAccess (sv w5).env w 1 5 1 0 a (ringRef 1 0 0) .mashRd false).bind
       (fun x => ringAccess (sv w5).env x 1 5 1 64 a (ringRef 1 0 1) .mashRd false)).isSome = true) ∧
    mayStart (wRing 1 {} { dV with img := 0xFF }) { dV with img := 0xFF } = true ∧ knownOp 0xFF = false ∧
    mayStart (wRing 1 {} dV) dV = true ∧ onTun (dOp dV.img) = true ∧ takesDesc (wRing 1 {} dV) 0 0 = true ∧
    tunDie 0 = ringDie (wRing 1 {} dV) 1 ∧ descValid dV.img (sizeOf (wRing 1 {} dV) dV) = true ∧
    descValid (dV.img + 256) (sizeOf (wRing 1 {} dV) dV) = false ∧ ctxAllowed (wRing 1 {} dV) dV = true ∧
    ctxAllowed { wRing 1 {} dV with xlat := {} } dV = false ∧ dOp dV.img ≠ opRecipe ∧ isSync (dOp dV.img) = false ∧
    dOp 0x70 = opFence ∧ ({ regs := [(aRingLimit 1, 3)] } : Work).fld (aRingLimit 1) 15 0 ≠ 0 ∧
    ({ regs := [(aXlatFaultWait, 3)] } : Work).fld aXlatFaultWait 23 0 ≠ 0 := by and_intros <;> decide +kernel

/-- A SIGNAL of an object in parcel 6, which lies on device 1, its tile translated. -/
def dS : Desc := { ring := 1, n := 0, img := opSignal, tun := some 0, phase := .running }
def tS : Tile := { tF .reading with pages := [{ page := 0, wr := true, stream := 0, place := some (6, 1, 64) }] }
def wS : Work := { w6 with
  pool := { w6.pool with cad := [(6, setEf cad6 38 36 2)] }, mash := { tiles := [tS], descs := [(2 ^ 32, dS)], rings := [(1, {})] } }

theorem witness_SyncDescriptorsAndWindows :
    getDesc wS 1 0 = some dS ∧ dOp dS.img = opSignal ∧ dSrc dS.img 0 % 64 = 0 ∧ dSrc (opSignal + 2 ^ 256) 0 % 64 ≠ 0 ∧
    getTile (tileTranslate (sv wS).env (putDesc wS dS) 1 0 0) 1 0 0 = some tS ∧
    getDesc (tileTranslate (sv wS).env (putDesc wS dS) 1 0 0) 1 0 = some dS ∧
    tilePlace tS (dSrc dS.img 0) = some (6, 1, 64) ∧ eKind (cadEntry wS 6) = 2 ∧ mhas wS.sync.saved (dCtx dS.img) = false ∧
    (locate (sv wS).env wS (cadEntry wS 6) 64).primary wS = some ⟨1, 2 ^ 22 + 64⟩ ∧ isLost wS 1 = false ∧
    (let t : Tile := { tS with pages := [{ page := 0, wr := true, stream := 0, place := some (5, 1, 64) }] }
     tilePlace t (dSrc dS.img 0) = some (5, 1, 64) ∧ eKind (cadEntry wSyn2 5) = 2 ∧
     (locate (sv wSyn2).env wSyn2 (cadEntry wSyn2 5) 64).primary wSyn2 = some p5 ∧ p5.dev = (sv wSyn2).env.board ∧
     mhas wSyn2.sync.saved (dCtx dS.img) = false ∧
     (let x := carrySync (sv wSyn2).env (putDesc wSyn2 { dS with phase := .held }) (acctOf dS) 1 0 (schedAgent wSyn2 1) 32769 false
      findTxn x 32769 = none ∧ reservation x 32769 = none) ∧
     (let w : Work := { wSyn2 with home := { txns := [txn5] } }
      (findTxn (carrySync (sv w).env (putDesc w { dS with phase := .held }) (acctOf dS) 1 0 (schedAgent w 1) 32769 false) 32769).isSome = true)) ∧
    ({ parcel := 5 } : Win).off = false ∧
    mget ({} : Work).mash.wins 0 = none ∧ mget wWin.mash.wins 0 = some { parcel := 5, b0 := { epoch := 0, atN0 := 1 } } := by
  and_intros <;> decide +kernel

/-- An invalidation of context 0 since frame 0. -/
def wInv : Work := { wRing 1 {} dV with xlat := { ctxs := [(0, ⟨0, true⟩)], invals := [(0, ⟨[0], none, 0⟩)] } }

theorem witness_ContextsAndInvalidations :
    ldReachable (wRing 1 {} dV) 0 = true ∧ bitAt (0x80000000#32).toNat 31 = true ∧
    ((wRing 1 {} dV).setHreg 0 hInvalCtl 0).hfld 0 hInvalStatus 0 0 = 1 ∧ ctxHost (wRing 1 {} dV) 0 = some 0 ∧
    ctxHost (wRing 1 {} dV) 3 ≠ some 0 ∧ ((wRing 1 {} dV).setHreg 0 hInvalPages 2).hreg 0 hInvalPages ≠ 0 ∧
    mget wInv.xlat.invals 0 = some ⟨[0], none, 0⟩ ∧ invalTiles wInv ⟨[0], none, 0⟩ = [] ∧ 0 + 2 ≤ ({ frame := 2 } : Clk).frame ∧
    ({ frame := 2 } : Clk).frame < 0 + 4 := by and_intros <;> decide +kernel

/-! ### Witnesses: sync objects (10), commits, QoS, Kiln, registers (03, 11, 16, 19) -/

/-- Parcel 5 as a SYNC parcel with a barrier of two parties at offset 64, known to the plot map, served by its channel. -/
def wSync : Work :=
  { w5 with
    pool := { mem := [(4096, 1), (4097, 1), (2097216, 1), (2097218, 2), (0x900000, 5), (0x900003, 0x80)], cad := [(5, setEf cad5 38 36 2)] }
    regs := (aChannelSvc 11, 0) :: w5.regs }
def oSync : Obj := ⟨5, 64, 32769⟩
def armWrite : HomeOp := .wr .i ⟨BitVec.ofNat 512 (2 ^ 56 * 2 ^ 448), false⟩ cmdMask false
def rSync : Req := { r5 with op := armWrite }
def wt : Waiter := { line := 32769, gate := false, value := 0, dev := 0, agent := 0, ctx := 3, ring := 1, n := 0, tag := 0, start := 7, expiry := some 0 }

theorem witness_SyncCommandsReachTheirEngine :
    (let w := taken (sv wSync) q0 armWrite
     let r := portReq (sv wSync).env w q0 x5 armWrite
     portTakes (sv wSync) w q0 ∧ extentOf (w.ld 0) 64 = some x5 ∧ hostMay w 0 x5 true ∧ resolvesAs 2 (sv wSync).env w r p5) ∧
    (∀ k ∈ [1, 2, 3, 15], bitsOf (BitVec.ofNat 64 (2 ^ 56 * k)).toNat 63 56 = k) ∧
    rSync.agent < 0x7E ∧ rSync.op = armWrite ∧ findTxn wSync rSync.line = none ∧ reserved wSync rSync = false ∧
    (objRead (sv wSync).env (dropWaiting wSync rSync) (objOf rSync)).1 = some (1 + 2 * 2 ^ 16) ∧
    (objRead (sv wSync).env (settleExpired (sv wSync).env wSync oSync) oSync).1 = some (1 + 2 * 2 ^ 16) ∧
    oKind (1 + 2 * 2 ^ 16) = kBarrier ∧
    oStale (1 + 2 * 2 ^ 16) = false ∧ oHeld (1 + 2 * 2 ^ 16) = 0 ∧ 0 = oSense (1 + 2 * 2 ^ 16) ∧
    oArrived (putBits (1 + 2 * 2 ^ 16) 47 32 1) ≠ oParts (putBits (1 + 2 * 2 ^ 16) 47 32 1) := by and_intros <;> decide +kernel

theorem witness_SyncMaintenance :
    ([wt] : List Waiter).find? (fun x => expired (sv {}).env x && dieOf wSync x.line == 0 && x.start == 7 && x.value == 0 && x.ctx == 3) =
      some wt ∧
    objAt (sv wSync).env wSync 32769 = some oSync ∧ (objRead (sv wSync).env wSync oSync).1 = some (1 + 2 * 2 ^ 16) ∧
    bitAt (0x80000000#32).toNat 31 = true ∧ bitAt (0#32).toNat 31 = false ∧
    viewCheck (sv {}).env (({} : Work).setReg (aSyncDieViewCtl 0) 3) 0 3 ≠ 0 := by and_intros <;> decide +kernel

/-- Values of the Kiln registers that pass. -/
def kilnOk (a : Nat) : Nat :=
  if a = aKilnLimits then 1000 + 300 * 2 ^ 16 else if a = aKilnBgCap then 100 else if a = aKilnWeight 14 ∨ a = aKilnWeight 15 then 0 else 1

theorem witness_KilnCommitIsChecked :
    kilnCheck kilnOk false = 0 ∧ ({ kiln := { pend := [(aKilnLimits, 1)] } } : Work).kiln.pend.isEmpty = false := by decide +kernel

theorem witness_CadastreAndQosCommits :
    bitAt (0x80000001#32).toNat 31 = true ∧ bitAt (0#32).toNat 31 = false ∧
    cadCount ({} : Work) = 0 ∧ cadCount (({} : Work).setReg aCadastreCtl 1) = 1 ∧
    readRecords (sv {}).env { pool := { poison := [0] } } 0 1 = none ∧ readRecords (sv {}).env {} 0 1 = some [0] := by
  and_intros <;> decide +kernel

theorem witness_CalendarSpacesHosts :
    lineGrant { qos := { grants := [(3, 10)] } } 3 ≠ 0 ∧ 0 < 1 ∧ 4 ≠ 3 ∧ 4096 ≤ 4096 ∧ 4095 < 4096 ∧ (∃ a, a < 64 ∧ hostDie a ≠ 0) := by
  refine ⟨by decide, by decide, by decide, by decide, by decide, 32, by decide⟩

theorem witness_LatencyAndCounterReads :
    ldReachable w5 0 = true ∧ ldOpen w5 0 = true ∧ bitAt (0#32).toNat 0 = false ∧ bitAt (1#32).toNat 0 = true ∧
    counterLow aKilnInputEnergy = true ∧ counterLow (aKilnInputEnergy + 4) = false ∧
    mget ({ half := [(aKilnInputEnergy + 4, 1)] } : Work).half (aKilnInputEnergy + 4) = some 1 ∧
    mget ({} : Work).half (aKilnInputEnergy + 4) = none := by and_intros <;> decide +kernel

theorem witness_RegisterWritesReachTheirFields :
    regLay 1 = none ∧ 64 ≤ 0x7E ∧ (regLay aKilnLimits).isSome = true ∧ powered (sv {}).env aKilnLimits = true ∧
    (datumWrite (sv {}).env {} aKilnLimits 5).isNone = true ∧ (ctlWrite (sv {}).env {} aKilnLimits 5).isNone = true ∧
    0 < 64 ∧ 1023 < 1024 := by
  and_intros <;> decide +kernel

/-! ### Witnesses: ports, mailbox, FM API (12), security (17), resets (18, 20), faults (15) -/

/-- Port 0 in a state of its head 0, enabled. -/
def wPort (st : Nat) : Work :=
  { w5 with regs := (aPortCtl 0, BitVec.ofNat 32 (2 ^ 31)) :: (aPortStatus 0, BitVec.ofNat 32 (2 ^ 16 * st)) :: (aPortLdCtl 0 0, BitVec.ofNat 32 (2 ^ 31)) :: w5.regs }
/-- `w5` with an IDE stream on host 0's logical device. -/
def wIde : Work := { w5 with ports := { lds := [(0, { (w5.ld 0) with ide := [(0, (9, true))] })] } }
/-- A session of host 0 whose anchor is enrolled for port 0. -/
def eIde : Env := { (sv {}).env with sec := { sessions := [(1, { who := .host 0, mutualAuth := true, anchor := 4 })], anchors := [(0, [4])] } }

theorem witness_PortsTrainFallAndReset :
    w5.fld (aPortCtl 0) 31 31 = 0 ∧ Due.portOff 0 ∉ w5.due ∧ portCheck (sv w5).env w5 1 = 0 ∧ (wPort 1).fld (aPortCtl 0) 31 31 = 1 ∧
    (w5.setMask (aPortCtl 1) 0x0FE00000 (setBitAt (3 * 2 ^ 26) 31 true)).fld (aPortCtl 1) 27 26 = 3 ∧
    w5.fld (aPortLdCtl 0 0) 31 31 = 0 ∧ (wPort 1).fld (aPortLdCtl 0 0) 31 31 = 1 ∧
    ldCheck (sv w5).env w5 0 0 = 0 ∧ ldCheck (sv w5).env w5 0 1 = 0x0403 ∧
    (({ ports := { lds := [(0, { off := some 0 })] } } : Work).ld 0).off = some 0 ∧ 0 + 2 ≤ ({ frame := 2 } : Clk).frame ∧
    recovering (sv w5).env = false ∧ portRuns (wPort 1) 0 = true ∧ portBarred (sv w5).env (wPort 1) 0 = false ∧
    0 ∈ headsOfMode (portMode (wPort 1) 0) ∧ headState (wPort 1) 0 0 = hdTraining ∧ headState w5 0 0 = hdUp ∧
    (∃ a ∈ headLds wIde 0 0, ∃ x ∈ (wIde.ld a).ide, x.2.2 = true) ∧ ldExists w5 0 = true ∧ headIo w5 0 = true ∧
    ldReachable w5 0 = true ∧ ldOpen w5 0 = true ∧ reaches w5 (.host 0) = true ∧
    ideAllowed eIde 0 1 = true ∧ ideStream w5 0 0 = true ∧ mget (w5.ld 0).ide 0 = none ∧ mget (wIde.ld 0).ide 0 = some (9, true) ∧
    ideAllowed eIde 0 2 = false := by and_intros <;> decide +kernel

/-- Host 0's offer and release request of the extent at LDA 0, open since frame 0. -/
def wOffer : Work :=
  { w5 with ports := { lds := [(0, { (w5.ld 0) with offers := [(0, 0)], releases := [(0, 0)] })] } }
def offLd : Work := { w5 with ports := { lds := [(0, {})] } }
theorem witness_MailboxCommandsAnswer :
    mainRuns (sv w5).env = true ∧ ldExists w5 0 = true ∧ headIo w5 0 = true ∧ ldOpen w5 0 = true ∧ freeCtx w5 = some 0 ∧
    getCtx (wRing 1 {} dV) 0 = some ⟨0, true⟩ ∧ boundCtx (wRing 1 {} dV) 0 0 = true ∧ boundCtx w5 0 0 = false ∧ freeRing w5 = some 0 ∧
    extentOf (w5.ld 0) (2 ^ 21) = none ∧ extentOf (w5.ld 0) 64 = some x5 ∧
    accessCheck (sv w5).env w5 (.host 0 1) 5 64 true = .served (.copies p5 none none false 0) ∧
    ldExists offLd 0 = true ∧ headIo offLd 0 = true ∧ recovering (sv offLd).env = false ∧ (offLd.ld 0).enabled = false ∧
    (wOffer.ld 0).offers.find? (fun x => x.1 == 0) = some (0, 0) ∧
    (wOffer.ld 0).extents.find? (fun x => x.parcel == 5) = some x5 ∧ (x5.lda, 0) ∈ (wOffer.ld 0).releases ∧
    late200 lateEnv 0 = true := by and_intros <;> decide +kernel

/-- No context is free when all 4,096 are on. -/
theorem witness_NoFreeContext :
    freeCtx { xlat := { ctxs := (List.range 4096).map (fun c => (c, ⟨0, true⟩)) } } = none := by
  unfold freeCtx
  rw [List.find?_eq_none]
  intro c hc
  have key : ∀ (l : List Nat), c ∈ l → mget (l.map (fun c => (c, (⟨0, true⟩ : Ctx)))) c = some ⟨0, true⟩ := by
    intro l
    induction l with
    | nil => intro h; cases h
    | cons a l ih =>
      intro h
      by_cases e : a = c
      · subst e; simp [mget]
      · simp only [List.map_cons, mget, if_neg e]
        exact ih (by simpa [Ne.symm e] using h)
  have on := key _ hc
  have : ctxOn ({ xlat := { ctxs := (List.range 4096).map (fun c => (c, ⟨0, true⟩)) } } : Work) c = true := by
    unfold ctxOn getCtx
    rw [on]
  simp only [this, List.any_nil, Bool.not_true, Bool.false_and, Bool.false_eq_true, not_false_eq_true]

/-- Parcel 9 is FREE with generation 2 and one plot. -/
def wFree : Work := { w5 with pool := { w5.pool with cad := (9, BitVec.ofNat 512 (9 + 2 * 2 ^ 16 + 2 ^ 40 + 2 ^ 64)) :: w5.pool.cad } }

theorem witness_FabricManagerCommandsAnswer :
    reaches w5 .bmc = true ∧ isBmc .bmc = true ∧ isFm (.fm 0) = true ∧ ldExists w5 0 = true ∧
    dcPlaceOk w5 ⟨0, 0, 5, 0, true⟩ (2 ^ 21 * eSize (cadNow w5 5)) = false ∧
    dcPlaceOk wFree ⟨0, 0, 9, 2 ^ 21, true⟩ (2 ^ 21 * eSize (cadNow wFree 9)) = true ∧ eState (cadNow wFree 9) = stFree ∧
    (w5.ld 0).extents.find? (fun x => x.parcel == 5 && x.lda == 0) = some x5 ∧ reaches w5 (.host 0) = true := by
  and_intros <;> decide +kernel

/-- An image in TRIAL in bank A, which runs, and a staged one in bank B. -/
def img0 : FwImage := ⟨0x4B4C4657, 0, 3, 1, 0, true, true, true⟩
def eFw : Env := { (sv {}).env with
  sec := { bankA := { st := bkTrial, img := some img0 }, bankB := { st := bkStaged, img := some img0 }, running := 0, authority := some 1
           nonces := [(.bmc, 55, 0)], sessions := [(1, { who := .bmc, mutualAuth := false, anchor := 0 })]
           debugs := [(7, { who := .bmc, scopes := 1, expires := 0 })], handover := some 0, switching := true, provisioned := true } }
def tok : DebugToken := ⟨1, 1, 60, true, 55, 0xFF, 0, true⟩

theorem witness_RootOfTrustAnswers :
    mainRuns eFw = true ∧ reaches {} .bmc = true ∧ isBmc .bmc = true ∧ isBmc (.host 0) = false ∧ reaches w5 (.host 0) = true ∧
    isHostLd (.host 0) = true ∧ (measurement eFw {} 1).isSome = true ∧ (sessionOf eFw .bmc 1).isSome = true ∧
    sessionOf eFw .bmc 2 = none ∧ tokenOk { eFw with sec := { eFw.sec with debugs := [] } } .bmc tok = true ∧
    eFw.sec.handover = some 0 ∧ 0 ≤ eFw.clk.frame ∧ eFw.sec.switching = true ∧ extestAllowed (sv {}).env = true ∧
    eFw.sec.provisioned = true ∧ recovering eFw = false ∧ (bankOf eFw.sec eFw.sec.running).st = bkTrial ∧
    bankPasses eFw 1 = true := by and_intros <;> decide +kernel

def inEntry (k : Nat) : Rst := { phase := .entry, step := k }

theorem witness_ResetsRunTheirSteps :
    (sv {}).env.rst.phase = .service ∧ (inEntry 0).phase = .entry ∧ standbyUp (sv {}).env = true ∧ ({ phase := .off } : Rst).phase = .off ∧
    mainRuns (sv {}).env = true ∧ (inEntry 1).bound ≤ (sv {}).env.clk.frame ∧ (inEntry 2).step = 2 ∧
    mayBegin State.reset.env = true ∧
    (let r : Rst := { phase := .bringup, powerOn := false, cold := false, selfRefresh := true }
     r.phase = .bringup ∧ r.cold = false ∧ r.selfRefresh = true ∧ r.stopped = false) ∧
    (let e := { State.reset.env with rst := { State.reset.env.rst with powerOn := false } }
     let w := (List.range 80).foldl (fun w c => setChanState w c chOnline) {}
     e.rst.phase = .bringup ∧ e.rst.powerOn = false ∧ e.rst.stopped = false ∧ memoryUp e w = true ∧ e.rst.s + 10 * 10 ^ 12 ≤ 10 ^ 13) ∧
    (sv {}).env.rst.cold = true ∧ (sv {}).env.rst.powerOn = false := by and_intros <;> decide +kernel

/-- The firmware ring enabled. -/
def wFw : Work := { w5 with regs := (aFaultFwCtl, BitVec.ofNat 32 (2 ^ 31)) :: w5.regs }
def heldTun : Work := { blocks := [{ kind := 1, inst := 4, hold := true, since := some 0 }] }

theorem witness_FaultRingsAndBlockResets :
    w5.fld aFaultFwCtl 31 31 = 0 ∧ wFw.fld aFaultFwCtl 31 31 = 1 ∧ mergeRec [] { ty := 0x1001 } = none ∧
    w5.hfld 0 hFaultHostCtl 31 31 = 0 ∧ (w5.setHfld 0 hFaultHostCtl 31 31 1).hfld 0 hFaultHostCtl 31 31 = 1 ∧
    ldReachable w5 0 = true ∧ ldOpen w5 0 = true ∧ ldReachable offLd 0 = true ∧ ldOpen offLd 0 = false ∧ (4 : Nat) < 128 ∧
    getBlock {} 1 4 = none ∧ getBlock heldTun 1 4 = some { kind := 1, inst := 4, hold := true, since := some 0 } ∧
    ({ frame := 1 } : Clk).frame < 0 + 2 ∧ 0 + 2 ≤ ({ frame := 2 } : Clk).frame := by and_intros <;> decide +kernel

/-! ### Ill-formed commands: one for each check of WellFormed, and a well-formed neighbour at the bound -/

theorem test_wf_host_request :
    Instr.wf (.hostMemrdI ⟨64, 0, 0, false⟩) = false ∧ Instr.wf (.hostMemrdI ⟨0, 2 ^ 48, 0, false⟩) = false ∧
    Instr.wf (.hostMemrdI ⟨0, 0, 2 ^ 16, false⟩) = false ∧ Instr.wf (.hostMemrdI ⟨63, 2 ^ 48 - 1, 2 ^ 16 - 1, false⟩) = true ∧
    Instr.wf (.hostAtomicFetchadd q0 17 0) = false ∧ Instr.wf (.hostAtomicFetchadd q0 16 0) = true := by decide

theorem test_wf_header :
    Instr.wf (.cmp ⟨4, 0, 0, 0, false⟩) = false ∧ Instr.wf (.cmp ⟨0, 128, 0, 0, false⟩) = false ∧ Instr.wf (.cmp ⟨0, 0, 128, 0, false⟩) = false ∧
    Instr.wf (.cmp ⟨0, 0, 0, 2 ^ 16, false⟩) = false ∧ Instr.wf (.cmp ⟨3, 127, 127, 2 ^ 16 - 1, false⟩) = true := by decide

theorem test_wf_extension :
    Instr.wf (.fwdRdI h1 { e5 with parcel := 2 ^ 16 }) = false ∧ Instr.wf (.fwdRdI h1 { e5 with gen := 2 ^ 16 }) = false ∧
    Instr.wf (.fwdRdI h1 { e5 with off := 2 ^ 47 }) = false ∧ Instr.wf (.fwdRdI h1 { e5 with frame := 2 ^ 48 }) = false ∧
    Instr.wf (.fwdRdI h1 { e5 with dev := 4 }) = false ∧ Instr.wf (.fwdRdI h1 { e5 with agent := 128 }) = false ∧
    Instr.wf (.fwdRdI h1 { e5 with hops := 4 }) = false ∧ Instr.wf (.fwdRdI h1 e5) = true := by decide

theorem test_wf_numbers :
    Instr.wf (.nearCacheEvict (2 ^ 42)) = false ∧ Instr.wf (.channelQuiesce 80) = false ∧ Instr.wf (.descriptorFetch 1024) = false ∧
    Instr.wf (.fence 0 (2 ^ 32)) = false ∧ Instr.wf (.tunRoleCommit 32 0) = false ∧ Instr.wf (.cxlReset 64) = false ∧
    Instr.wf (.portEnable 32 0) = false ∧ Instr.wf (.keepalive 8) = false ∧ Instr.wf (.contextPut 0 4096) = false ∧
    Instr.wf (.revokeDrainForced (2 ^ 16)) = false ∧ Instr.wf (.nearCacheFlushDone 8) = false ∧
    Instr.wf (.windowEnable 256 0) = false ∧ Instr.wf (.peerLostTimeout 4) = false ∧ Instr.wf (.syncView 2 0) = false := by decide

theorem test_wf_fields :
    Instr.wf (.strikeLapse 0 9) = false ∧ Instr.wf (.retry 0 4 0 0) = false ∧ Instr.wf (.retry 0 0 128 0) = false ∧
    Instr.wf (.retry 0 0 0 (2 ^ 16)) = false ∧ Instr.wf (.refreshSlot 0 2 0) = false ∧ Instr.wf (.refreshSlot 0 0 4) = false ∧
    Instr.wf (.rfmSlot 0 0 0 32) = false ∧ Instr.wf (.dramAlert 0 2 0) = false ∧ Instr.wf (.bankMaskWrite 0 8 0) = false ∧
    Instr.wf (.psnphost h1 0 0 65 0 0 []) = false ∧ Instr.wf (.psnphost h1 0 0 0 3 0 []) = false ∧
    Instr.wf (.establishChunk 3) = false ∧ Instr.wf (.vorirCrcError 9 0) = false ∧ Instr.wf (.vorirCrcError 0 (2 ^ 16)) = false ∧
    Instr.wf (.windowReport 0 2 0) = false ∧ Instr.wf (.latHwmRead 0 4) = false ∧ Instr.wf (.ldEnable 0 2) = false ∧
    Instr.wf (.headDown 0 2) = false ∧ Instr.wf (.blockRelease 8 0) = false ∧ Instr.wf (.blockRelease 0 128) = false ∧
    Instr.wf (.registerWrite 128 0 0) = false ∧ Instr.wf (.registerWrite 0 (2 ^ 49) 0) = false ∧
    Instr.wf (.timingFlitReceive (2 ^ 48) 0 0 0) = false ∧ Instr.wf (.timingFlitReceive 0 256 0 0) = false ∧
    Instr.wf (.timingFlitReceive 0 0 4 0) = false ∧ Instr.wf (.dramCommandIssue 0 2 0 []) = false ∧
    Instr.wf (.dramCommandIssue 0 1 0 [256]) = false ∧ Instr.wf (.dramCommandIssue 0 1 0 [255]) = true ∧
    Instr.wf (.nearCacheSetSweep 8 0 true) = false ∧ Instr.wf (.nearCacheSetSweep 0 16384 true) = false ∧
    Instr.wf (.nearCacheSetSweep 7 16383 true) = true := by decide

theorem test_wf_managers_and_operations :
    Instr.wf (.getLdInfo (.fm 32)) = false ∧ Instr.wf (.getLdInfo (.host 64)) = false ∧ Instr.wf (.getLdInfo (.peer 4)) = false ∧
    Instr.wf (.getLdInfo .bmc) = true ∧ Instr.wf (.mashRmw h1 e5 (.fetchAdd 2 0)) = false ∧ Instr.wf (.mashRmw h1 e5 (.swap 16 0)) = false ∧
    Instr.wf (.mashRmw h1 e5 (.cas 2 0 0)) = false ∧ Instr.wf (.mashRmw h1 e5 (.addFmt 16 0)) = false ∧
    Instr.wf (.mashRmw h1 e5 (.cas 16 0 0)) = true ∧ Instr.wf (.hostSnpRsp h1 65 0 .i) = false := by decide

theorem test_wf_sram_words :
    Instr.wf (.frameBoundary [⟨.ncTags 8, 0, true⟩]) = false ∧ Instr.wf (.frameBoundary [⟨.xlatCache 34 0, 0, true⟩]) = false ∧
    Instr.wf (.frameBoundary [⟨.dirCache 0 (2 ^ 17) 0, 0, true⟩]) = false ∧ Instr.wf (.frameBoundary [⟨.dirCache 0 0 17, 0, true⟩]) = false ∧
    Instr.wf (.frameBoundary [⟨.dirCache 2 0 0, 0, true⟩]) = false ∧ Instr.wf (.frameBoundary [⟨.mapCopy (2 ^ 16), 0, true⟩]) = false ∧
    Instr.wf (.frameBoundary [⟨.tunTable 32 0, 0, true⟩]) = false ∧ Instr.wf (.frameBoundary [⟨.extentTable 64, 0, true⟩]) = false ∧
    Instr.wf (.frameBoundary [⟨.ringState 1024, 0, true⟩]) = false ∧ Instr.wf (.frameBoundary [⟨.retained 80 true, 0, true⟩]) = false ∧
    Instr.wf (.frameBoundary [⟨.readQueue (2 ^ 42), 0, true⟩]) = false ∧ Instr.wf (.frameBoundary [⟨.waiter 0 1024 0, 0, true⟩]) = false ∧
    Instr.wf (.frameBoundary [⟨.staging 0 (2 ^ 32) 0 0, 0, true⟩]) = false ∧ Instr.wf (.frameBoundary [⟨.datumMem, 0, true⟩]) = true := by decide

theorem test_wf_sweeps :
    Instr.wf (.recentreSlot 79 false [(79, ⟨List.replicate 9 true, 0⟩)]) = true ∧
    Instr.wf (.recentreSlot 80 false []) = false ∧ Instr.wf (.recentreSlot 0 false [(80, ⟨List.replicate 9 true, 0⟩)]) = false ∧
    Instr.wf (.recentreSlot 0 false [(0, ⟨List.replicate 8 true, 0⟩)]) = false := by decide +kernel

/-! ### Single steps -/

/-- The number of what a command leaves, where it answers a next state. -/
def after (i : Instr) (s : State) (f : State → Nat) : Option Nat :=
  match step { s with pending := [i] } with
  | .next t => some (f t)
  | _ => none

/-- A step on an empty queue idles. -/
theorem test_idle : (step (sv w5) = .next (sv w5)) := rfl

/-- 02 R13: the frame counter counts at the boundary. -/
theorem test_frame_counts : after (.frameBoundary []) (sv {}) (fun t => t.env.clk.frame) = some 1 := by decide +kernel

/-! ### The spec's worked examples -/

/-- 03 Table 3-9: offset 0x1236A40 of a spread parcel of 64 plots on four devices is entry 34 at 0x48DA40 of its member. -/
theorem test_table_3_9_entry :
    sheetIndex (BitVec.ofNat 512 (15 * 2 ^ 40 + 2 ^ 44 + 64 * 2 ^ 64)) 0x1236A40 = (0x48DA40, 34) := by decide +kernel

/-- 03 Table 3-9, steps 8 to 12: the line's tract, channel and channel line, subchannel, bank group and bank. -/
theorem test_table_3_9_place :
    let l := 0x1A68DA40 / 64
    tractOf {} (64 * l) = 3 ∧ tractAddr (64 * l) = 0x348DA40 ∧ channelOf {} l = 33 ∧ channelLine l = 86103 ∧ dieOf {} l = 0 ∧
    (coordOf {} l).sub = 1 ∧ (coordOf {} l).bg = 3 ∧ (coordOf {} l).bank = 1 := by decide +kernel

/-- 07 Table 7-4: the FP32 values nearest to 0.09, -0.02 and 0.031 as a block of MXFP4. -/
def mxVals : List Val := [fp32.decode 0x3DB851EC, fp32.decode 0xBCA3D70A, fp32.decode 0x3CFDF3B6]

theorem test_table_7_4 :
    mxScale 10 mxVals = 0x79 ∧ mxEncode 10 0x79 (mxVals.map (fun v => (v, .nearest))) = [7, 0xB, 4] ∧
    fp32.encode (mxValue 10 0x79 7) .nearest false = 0x3DC00000 ∧ fp32.encode (mxValue 10 0x79 0xB) .nearest false = 0xBCC00000 ∧
    fp32.encode (mxValue 10 0x79 4) .nearest false = 0x3D000000 := by decide +kernel

/-- 08 Table 8-8, bag 0, and Table 8-14: FP16 and BF16 addends into an FP32 accumulator; the sum read as BF16. -/
theorem test_tables_8_8_and_8_14 :
    (fp32.encode ([0x3800, 0xBD00, 0x3400, 0x3800, 0x4000].foldl (fun a x => accAdd (.fp fp32) a (fp16.decode x)) vzero) .nearest false = 0x40000000) ∧
    (let sum := [0x3F00, 0xBE80, 0x3F80, 0x3E00, 0x3EC0, 0xBF00, 0x3F40, 0x3D80].foldl (fun a x => accAdd (.fp fp32) a (bf16.decode x)) vzero
     fp32.encode sum .nearest false = 0x40040000 ∧ bf16.encode sum .nearest false = 0x4004) := by decide +kernel

/-- 16 Table 16-5: the budget before the carry at 42, 45 and 47 C of coolant, in pJ. -/
def warm (c : Int) : Work :=
  { kiln := { coolant := 4 * c }, regs := [(aKilnStatus, BitVec.ofNat 32 (64 * 2 ^ 16))]
    live := [(aKilnLimits, BitVec.ofNat 32 (1550 + 500 * 2 ^ 16)), (aKilnCoolant, BitVec.ofNat 32 (40 + 8 * 2 ^ 8))] }

theorem test_table_16_5_budget :
    preBudget (sv {}).env (warm 42) = 11408000000 ∧ preBudget (sv {}).env (warm 45) = 9920000000 ∧
    preBudget (sv {}).env (warm 47) = 8928000000 := by decide +kernel

/-- 11 Table 11-9, step 2: H = 22,000 lines shared among three hosts. -/
def qosV : Nat → Nat := fun a =>
  if a = aQosHostMin 0 ∨ a = aQosHostMin 2 then 6000 else if a = aQosHostMin 4 then 4000
  else if a = aQosHostMax 0 then 12000 else if a = aQosHostMax 2 then 0xFFFFFF else if a = aQosHostMax 4 then 8000
  else if a = aQosHostCtl 0 then 3 * 2 ^ 16 else if a = aQosHostCtl 2 ∨ a = aQosHostCtl 4 then 2 ^ 16 else 0

theorem test_table_11_9_grants :
    let g := shareLines qosV { qos := { counted := [(0, 13000), (2, 11000), (4, 3000)] } } 8000000 [0, 2, 4] 22000
    mgetD g 0 0 = 12000 ∧ mgetD g 2 0 = 6000 ∧ mgetD g 4 0 = 4000 := by decide +kernel

/-- 02 Table 2-2, steps 1 and 2: in CAPTURE, an edge at 3 us lengthens the frame by 1 us and leaves 2 us to go. -/
def capture : State :=
  let s := sv {}
  { s with env := { s.env with mer := { s.env.mer with live := ⟨BitVec.ofNat 32 (0x10 + 2 ^ 27), BitVec.ofNat 32 (0x10 + 2 ^ 27), BitVec.ofNat 32 (0x10 + 2 ^ 27)⟩ } } }

theorem test_table_2_2 :
    capture.env.syncMode = 2 ∧ after (.meridianSyncEdge 3000000 30) capture (fun t => t.env.clk.next) = some 9000000 ∧
    after (.meridianSyncEdge 3000000 30) capture (fun t => t.env.clk.phi.toNat) = some 2000000 ∧
    after (.meridianSyncEdge 3000000 30) capture (fun t => t.w.reg aMeridianSlewFrames) = some 1 ∧
    after (.meridianSyncEdge 3000000 30) capture (fun t => t.w.reg aMeridianSyncIgnored) = some 1 := by decide +kernel

/-! ### More single steps -/

/-- 05: a write of host 0 at LDA 64 lands, and a read answers it. -/
def wrote : Work := match exec (.hostMemwr q0 .i ⟨0xABCD, false⟩) (sv w5) with | .next t => t.w | _ => {}
theorem test_write_then_read :
    wrote.out.length = 1 ∧
    (match exec (.hostMemrdI q0) (sv wrote) with | .next t => t.w.out.length | _ => 0) = 2 := by decide +kernel

/-- 19 Table 19-8: WINDOW[3] over a STRIPE parcel of `n` plots of this device, its barrier at offset `o` of a SYNC parcel. -/
def wWindow (n o : Nat) : Work :=
  { pool := { cad := [(0x4410, BitVec.ofNat 512 (0x4410 + 2 ^ 32 + 2 ^ 34 + 2 ^ 36 + 2 ^ 40 + 2 ^ 64 * n)), (0x4411, BitVec.ofNat 512 (2 * 2 ^ 36 + 2 ^ 64))] }
    regs := [(0x8060, 0x81304410#32), (0x8064, 0x100000#32), (0x8068, 8#32), (0x806C, 0x80004411#32), (0x8070, BitVec.ofNat 32 o)] }

theorem test_table_19_8 :
    windowCheck (sv {}).env (wWindow 197 0x44) 3 = 0x0610 ∧ windowCheck (sv {}).env (wWindow 197 0x40) 3 = 0 ∧
    windowCheck (sv {}).env (wWindow 196 0x44) 3 = 0x060E := by decide +kernel

end Sys2Proof.Tests
end

section
/-! PROOFS. Meridian commits, edges of MERIDIAN_SYNC and abandoned snapshots (02 R45-R50, R58, R61). -/

namespace Sys2Proof.Machine

/-! ### Commands of the clock -/

theorem whole_run (s : State) (f : Env → Work → Env × Work) :
    whole s f = .next { s with env := (f s.env s.w).1, w := (f s.env s.w).2 } := rfl

/-! ### Snapshots -/

/-- Abandoning a snapshot touches its own mark, one counter and the interval marks (R45). -/
theorem abandonSnap_of_writing {e : Env} {x : SnapWrite} (h : e.mer.writing = some x) (w : Work) :
    ∃ q, abandonSnap e w =
      ({ e with mer := { e.mer with writing := none } }, { w.inc aMeridianSnapSkipped 1 with qos := q }) := by
  simp only [abandonSnap, h]
  exact ⟨_, rfl⟩

theorem execSnapshotAbandon_run {s : State} (h : poolRuns s.env = true) :
    execSnapshotAbandon s = .next { s with env := (abandonSnap s.env s.w).1, w := (abandonSnap s.env s.w).2 } := by
  simp only [execSnapshotAbandon, whole_run, if_pos h]

/-! ### Edges of MERIDIAN_SYNC -/

theorem edgeSeen_of {e : Env} {w : Work} {t highNs : Nat} (hr : mainRuns e = true) (hs : isSource e w = true)
    (hm : e.syncMode ≠ 0) (hh : 20 ≤ highNs) (ha : e.clk.start ≤ t) (hb : t ≤ e.clk.next) :
    edgeSeen e w t highNs = true := by
  simp [edgeSeen, hr, hs, hm, hh, ha, hb]

/-- An edge is the second one of its window when it lies at or before the end of the window last used. -/
theorem edgeKind_again {e : Env} {t x : Nat} (hx : e.clk.taken = some x) (h : t ≤ x) : edgeKind e t = .again := by
  simp [edgeKind, hx, h]

/-- Otherwise the windows of the two boundaries decide. -/
theorem edgeKind_first {e : Env} {t : Nat} (h : ∀ x, e.clk.taken = some x → x < t) :
    edgeKind e t =
      if ¬ 8 * (t - e.clk.start) ≤ e.clk.lastPeriod ∧ ¬ 8 * (e.clk.next - t) ≤ e.period then .outside
      else if 8 * (e.clk.next - t) ≤ e.period ∧
        (¬ 8 * (t - e.clk.start) ≤ e.clk.lastPeriod ∨ e.clk.next - t < t - e.clk.start) then .early
      else .late := by
  cases hx : e.clk.taken with
  | none => simp [edgeKind, hx]
  | some x => simp [edgeKind, hx, h x hx]

theorem edgeKind_late {e : Env} {t : Nat} (h : ∀ x, e.clk.taken = some x → x < t)
    (ha : 8 * (t - e.clk.start) ≤ e.clk.lastPeriod)
    (hb : e.period < 8 * (e.clk.next - t) ∨ t - e.clk.start ≤ e.clk.next - t) : edgeKind e t = .late := by
  rw [edgeKind_first h, if_neg (fun hn => hn.1 ha), if_neg]
  rintro ⟨hn, hm⟩
  omega

/-- An edge outside both windows is ignored, whether or not a window was used before. -/
theorem edgeKind_ignored {e : Env} {t : Nat} (ha : e.clk.lastPeriod < 8 * (t - e.clk.start))
    (hb : e.period < 8 * (e.clk.next - t)) : edgeKind e t = .again ∨ edgeKind e t = .outside := by
  by_cases h : ∃ x, e.clk.taken = some x ∧ t ≤ x
  · obtain ⟨x, hx, ht⟩ := h
    exact .inl (edgeKind_again hx ht)
  · refine .inr ?_
    rw [edgeKind_first (fun x hx => Nat.lt_of_not_le fun ht => h ⟨x, hx, ht⟩), if_pos (by omega)]

theorem syncEdge_late {e : Env} {w : Work} {t highNs : Nat} (hs : edgeSeen e w t highNs = true)
    (hk : edgeKind e t = .late) (ht : t ≠ e.clk.start) :
    syncEdge e w t highNs = (false,
      { e with clk := { e.clk with now := t, taken := some (e.clk.start + e.clk.lastPeriod / 8), next := t + e.period } },
      w.inc aMeridianSyncAccepted 1) := by
  simp only [syncEdge, hs, hk, if_neg ht, Bool.not_true, Bool.false_eq_true, if_false]

/-- In TRACK an ignored edge is counted and moves nothing (R50, R51). -/
theorem syncEdge_ignored {e : Env} {w : Work} {t highNs : Nat} (hs : edgeSeen e w t highNs = true)
    (hk : edgeKind e t = .again ∨ edgeKind e t = .outside) (hm : e.syncMode ≠ 2) :
    syncEdge e w t highNs = (false, { e with clk := { e.clk with now := t } }, w.inc aMeridianSyncIgnored 1) := by
  rcases hk with hk | hk <;>
    simp only [syncEdge, hs, hk, if_neg hm, Bool.not_true, Bool.false_eq_true, if_false]

/-- An edge that does not end the frame leaves what `syncEdge` answers. -/
theorem execMeridianSyncEdge_stays {s : State} {t highNs : Nat} {e : Env} {w : Work}
    (h : syncEdge s.env s.w t highNs = (false, e, w)) :
    execMeridianSyncEdge t highNs s = .next { s with env := e, w := w } := by
  simp only [execMeridianSyncEdge, whole_run, h]

/-! ### Commits -/

/-- The check of a commit that is written, in the order of Table 2-4. -/
theorem merCheck_staged (e : Env) (w : Work) (p : MerPending) :
    merCheck e w p false =
      if p.period < 0x04 ∨ 0x80 < p.period then 0x0701
      else if p.frame < e.clk.frame + 2 then 0x0702
      else if p.mode = 3 then 0x0703
      else if present e w p.src = false then 0x0704
      else if snapOk e w p = false then 0x0705
      else 0 := by
  simp [merCheck]

/-- What is pending has no part in the check. -/
theorem merCheck_setMerPending (e : Env) (w : Work) (p : MerPending) (q : Option MerPending) (again : Bool) :
    merCheck (e.setMerPending q) w p again = merCheck e w p again := rfl

theorem merPending_setMerPending (e : Env) (q : Option MerPending) : (e.setMerPending q).merPending = q := by
  simp [Env.setMerPending, Env.merPending, Tri.vote]

theorem merWord_of_triOf {e : Env} {v : Nat} (h : e.mer.live = triOf v) : e.merWord = v % 2 ^ 32 := by
  simp [Env.merWord, h, triOf, Tri.vote]

/-- The fields of a commit read back from the live word (Table 2-3). -/
theorem live_of_merPack {e : Env} {p : MerPending} (h : e.mer.live = triOf (merPack p)) (hp : p.period < 256)
    (hs : p.src < 4) (hm : p.mode < 4) : e.periodCode = p.period ∧ e.srcDev = p.src ∧ e.syncMode = p.mode := by
  simp only [Env.periodCode, Env.srcDev, Env.syncMode, merWord_of_triOf h, merPack, bitsOf]
  omega

theorem applyMeridian_waits {e : Env} {p : MerPending} (h : e.merPending = some p) (hf : e.clk.frame < p.frame) (w : Work) :
    applyMeridian e w = (e, w) := by
  simp only [applyMeridian, h, if_pos hf]

/-- A commit that reaches its frame and passes again is live, and nothing is pending any more (R58, 19 R701). -/
theorem applyMeridian_passes {e : Env} {w : Work} {p : MerPending} (h : e.merPending = some p) (hf : p.frame ≤ e.clk.frame)
    (hc : merCheck e w p true = 0) :
    (applyMeridian e w).1.merPending = none ∧ (applyMeridian e w).2 = w ∧
      (applyMeridian e w).1.mer.live = triOf (merPack p) := by
  simp only [applyMeridian, h, if_neg (Nat.not_lt.mpr hf), merCheck_setMerPending, hc, ne_eq, not_true_eq_false, if_false,
    and_self, and_true]
  exact merPending_setMerPending e none

theorem merCtlWrite_commit (e : Env) (w : Work) {v : Nat} (h : bitAt v 31 = true) :
    merCtlWrite e w v =
      (let w := w.setMask aMeridianCtl 0x0F0000FF v
       let code := merCheck e w (merStaged w) false
       (if code = 0 then e.setMerPending (some (merStaged w)) else e, w.setFld aMeridianStatus 15 0 code)) := by
  simp only [merCtlWrite, h, Bool.not_true, Bool.false_eq_true, if_false]
  split <;> rfl

theorem merCtlWrite_stage (e : Env) (w : Work) {v : Nat} (h : bitAt v 31 = false) :
    merCtlWrite e w v = (e, w.setMask aMeridianCtl 0x0F0000FF v) := by
  simp only [merCtlWrite, h, Bool.not_false, if_true]

theorem execMeridianCommit_run {v : Word} {s : State} (h : mainRuns s.env = true) :
    execMeridianCommit v s =
      .next { s with env := (merCtlWrite s.env s.w v.toNat).1, w := (merCtlWrite s.env s.w v.toNat).2 } := by
  simp only [execMeridianCommit, whole_run, if_pos h]

end Sys2Proof.Machine

open Sys2Proof Sys2Proof.Machine

/-- Settles O12: what `abandonSnap` leaves, with one counter gone up (R45). -/
theorem abandonedSnapshotKeepsItsHeader : Obligations.AbandonedSnapshotKeepsItsHeader := by
  intro s x hp hx
  obtain ⟨q, hq⟩ := abandonSnap_of_writing hx s.w
  refine ⟨_, execSnapshotAbandon_run hp, ?_⟩
  rw [hq]
  exact ⟨rfl, rfl, rfl, Work.reg_inc_same s.w _ 1, fun a ha => Work.reg_inc_ne s.w _ a 1 ha⟩

/-- Settles O10: the first edge in the window of the boundary just passed is late, one outside both windows is ignored. -/
theorem lateSyncEdgeLengthensTheFrame : Obligations.LateSyncEdgeLengthensTheFrame := by
  constructor
  · intro t highNs s hr hs hm hh ha hb hw hn hx
    exact execMeridianSyncEdge_stays
      (syncEdge_late (edgeSeen_of hr hs hm hh ha.le hb) (edgeKind_late hx hw hn) ha.ne')
  · intro t highNs s hr hs hm hh ha hb hw hn
    exact execMeridianSyncEdge_stays
      (syncEdge_ignored (edgeSeen_of hr hs (by omega) hh ha hb) (edgeKind_ignored hw hn) (by omega))

/-- Settles O9: the write as Table 2-4 orders it, and the boundary by whether the commit has reached its frame. -/
theorem meridianCommitIsChecked : Obligations.MeridianCommitIsChecked := by
  refine ⟨fun v s hr hv => ?_, fun v s hr hv => ?_, fun e w p h hf => applyMeridian_waits h hf w, fun e w p h hf hc => ?_⟩
  · intro w p code
    have hcode : merCheck s.env w p false = code := merCheck_staged s.env w p
    refine (execMeridianCommit_run hr).trans ?_
    rw [merCtlWrite_commit _ _ hv]
    simp only [← hcode]
    rfl
  · refine (execMeridianCommit_run hr).trans ?_
    rw [merCtlWrite_stage _ _ hv]
  · obtain ⟨hnone, hw, hlive⟩ := applyMeridian_passes h hf hc
    exact ⟨hnone, hw, live_of_merPack hlive⟩
end

section
/-! PROOFS. What the commands keep of the frame in progress (02 R36, R54). -/

namespace Sys2Proof.Machine

/-- The frame in progress: its number, the instant it began, the period of the frame before, and what a source's flit gives for
the next boundary. -/
def Clk.stamp (c : Clk) : Nat × Nat × Nat × Option (Nat × Nat × Nat) := (c.frame, c.start, c.lastPeriod, c.follow)

/-! ### Traffic -/

/-- A command that is not one of the clock, of security or of resets changes the traffic state alone: `cases h` leaves those
commands, and each of them is `traffic` or `serve`, which build such a state. -/
theorem exec_of_not_ownsEnv {c : Instr} (h : c.ownsEnv = false) (s : State) : ∃ w, exec c s = .next { s with w := w } := by
  cases c <;> cases h <;> exact ⟨_, rfl⟩

/-! ### Folds and guards -/

/-- A fold keeps what each of its steps keeps. -/
theorem foldl_keeps {α β γ : Type} (g : β → γ) {f : β → α → β} (h : ∀ b a, g (f b a) = g b) (l : List α) (b : β) :
    g (l.foldl f b) = g b :=
  List.foldlRecOn (motive := fun x => g x = g b) l f rfl fun x hx a _ => (h x a).trans hx

/-- A choice keeps the frame counter when both sides do. -/
theorem ite_frame {b : Prop} [Decidable b] {x y : Env × Work} {n : Nat} (hx : x.1.clk.frame = n) (hy : y.1.clk.frame = n) :
    (if b then x else y).1.clk.frame = n := by
  split
  · exact hx
  · exact hy

/-! ### Operations that leave the clock as it is -/

@[simp] theorem startEntry_clk (e : Env) (cause t : Nat) : (startEntry e cause t).clk = e.clk := by
  unfold startEntry
  split <;> rfl

@[simp] theorem startEntry_mer (e : Env) (cause t : Nat) : (startEntry e cause t).mer = e.mer := by
  unfold startEntry
  split <;> rfl

@[simp] theorem setNotOnline_clk (e : Env) (v : Nat) : (setNotOnline e v).clk = e.clk := rfl

@[simp] theorem voteAll_clk (e : Env) (w : Work) : (voteAll e w).1.clk = e.clk :=
  foldl_keeps (fun x : Env × Work × List Nat => x.1.clk) (h := fun _ _ => by rfl) e.backup (e, w, [])

@[simp] theorem voteStep_clk (e : Env) (w : Work) : (voteStep e w).1.clk = e.clk := by
  unfold voteStep
  refine Eq.trans ?_ (voteAll_clk e w)
  dsimp only
  split
  · rfl
  · exact startEntry_clk ..

@[simp] theorem commitWords_clk (e : Env) (w : Work) : (commitWords e w).clk = e.clk := by
  unfold commitWords
  split
  · rfl
  · exact (foldl_keeps Env.clk (h := fun _ _ => by rfl) _ _).trans (setNotOnline_clk ..)

@[simp] theorem completeSnap_clk (e : Env) (w : Work) : (completeSnap e w).1.clk = e.clk := by
  unfold completeSnap
  split <;> rfl

@[simp] theorem completeSnap_live (e : Env) (w : Work) : (completeSnap e w).1.mer.live = e.mer.live := by
  unfold completeSnap
  split <;> rfl

@[simp] theorem abandonSnap_clk (e : Env) (w : Work) : (abandonSnap e w).1.clk = e.clk := by
  unfold abandonSnap
  split <;> rfl

@[simp] theorem startSnap_clk (e : Env) (w : Work) (body : Nat) (iv : AMap Nat × AMap Nat) :
    (startSnap e w body iv).1.clk = e.clk := by
  unfold startSnap
  split <;> rfl

@[simp] theorem resetDatum_clk (e : Env) (w : Work) : (resetDatum e w).1.clk = e.clk := by
  unfold resetDatum
  split
  · exact startEntry_clk ..
  all_goals rfl

@[simp] theorem resetDatum_mer (e : Env) (w : Work) : (resetDatum e w).1.mer = e.mer := by
  unfold resetDatum
  split
  · exact startEntry_mer ..
  all_goals rfl

theorem sramAct_keeps {γ : Type} (g : Env → γ) (hg : ∀ e w, g (resetDatum e w).1 = g e) (e : Env) (w : Work) (x : SramWord) :
    g (sramAct e w x).1 = g e := by
  cases x
  case datumMem => exact hg e w
  all_goals rfl

/-- Errors of on-die arrays change of `Env` no more than a reset of Datum does. -/
theorem sramErrs_keep {γ : Type} (g : Env → γ) (hg : ∀ e w, g (resetDatum e w).1 = g e) (errs : List SramErr) (x : Env × Work) :
    g (errs.foldl sramErr x).1 = g x.1 := by
  refine foldl_keeps (fun y : Env × Work => g y.1) (fun y a => ?_) errs x
  unfold sramErr
  split
  · exact sramAct_keeps g hg ..
  · rfl

/-! ### Operations that leave the frame in progress as it is -/

theorem applyMeridian_stamp (e : Env) (w : Work) : (applyMeridian e w).1.clk.stamp = e.clk.stamp := by
  unfold applyMeridian
  dsimp only
  repeat' split
  all_goals rfl

theorem applySource_stamp (e : Env) (w : Work) : (applySource e w).1.clk.stamp = e.clk.stamp := by
  unfold applySource
  dsimp only
  repeat' split
  all_goals rfl

theorem slew_stamp (e : Env) (w : Work) : (slew e w).1.clk.stamp = e.clk.stamp := by
  unfold slew
  split <;> rfl

/-- The length of the frame that begins does not touch its start. -/
theorem schedule_stamp (e : Env) (w : Work) : (schedule e w).1.clk.stamp = e.clk.stamp := by
  unfold schedule slewNext
  split
  · exact slew_stamp ..
  · rfl

/-! ### The steps of a boundary -/

theorem heldSteps_stamp (e : Env) (w : Work) : (heldSteps e w).1.clk.stamp = e.clk.stamp :=
  (schedule_stamp ..).trans (applyMeridian_stamp ..)

theorem recoverySteps_stamp (e : Env) (w : Work) : (recoverySteps e w).1.clk.stamp = e.clk.stamp :=
  ((schedule_stamp ..).trans (applySource_stamp ..)).trans (applyMeridian_stamp ..)

/-- Of the steps of a boundary of the pool four act on `Env`. -/
theorem poolSteps_env (e : Env) (w : Work) (f : Nat) : ∃ w₁ w₂ w₃ w₄,
    (poolSteps e w f).1 = (schedule (commitWords (applySource (applyMeridian e w₁).1 w₂).1 w₃) w₄).1 :=
  ⟨_, _, _, _, rfl⟩

theorem poolSteps_stamp (e : Env) (w : Work) (f : Nat) : (poolSteps e w f).1.clk.stamp = e.clk.stamp := by
  obtain ⟨w₁, w₂, w₃, w₄, h⟩ := poolSteps_env e w f
  rw [h, schedule_stamp, commitWords_clk, applySource_stamp, applyMeridian_stamp]

/-- What a boundary does once the clock has advanced and the triplicated words are voted; `f` is the frame that ended. -/
def afterVote (e : Env) (w : Work) (f : Nat) : Env × Work :=
  if !mainRuns e then heldSteps e w
  else if !poolRuns e then recoverySteps e w
  else
    let w := showHosts (closeAccounts e ((List.range 3).foldl (commitMark e) w))
    let x := poolSteps e w f
    startSnap x.1 x.2 (snapBody w) (w.qos.ivHwm, w.qos.ivHist)

theorem afterVote_stamp (e : Env) (w : Work) (f : Nat) : (afterVote e w f).1.clk.stamp = e.clk.stamp := by
  unfold afterVote
  split
  · exact heldSteps_stamp ..
  · split
    · exact recoverySteps_stamp ..
    · rw [startSnap_clk, poolSteps_stamp]

/-- What the boundary does before the clock advances: the frame's errors are taken, and a snapshot still being written ends. -/
def endFrame (e : Env) (w : Work) (errs : List SramErr) : Env × Work :=
  if poolRuns e then errs.foldl sramErr (completeSnap e w) else (e, w)

theorem endFrame_clk (e : Env) (w : Work) (errs : List SramErr) : (endFrame e w errs).1.clk = e.clk := by
  unfold endFrame
  split
  · rw [sramErrs_keep Env.clk resetDatum_clk, completeSnap_clk]
  · rfl

theorem endFrame_live (e : Env) (w : Work) (errs : List SramErr) : (endFrame e w errs).1.mer.live = e.mer.live := by
  unfold endFrame
  split
  · rw [sramErrs_keep (fun e => e.mer.live) (fun e w => by rw [resetDatum_mer]), completeSnap_live]
  · rfl

theorem boundary_eq {e : Env} (h : e.rst.phase ≠ .off) (w : Work) (errs : List SramErr) :
    boundary e w errs =
      (let x := endFrame e w errs
       let y := adopt (advance x.1 x.2) x.2 ((e.clk.frame + 1) % 2 ^ 48)
       let z := voteStep y.1 y.2
       afterVote z.1 z.2 e.clk.frame) := by
  unfold boundary
  rw [if_neg h, ← endFrame]
  unfold afterVote
  dsimp only

theorem adopt_clk (e : Env) (w : Work) (own : Nat) : (adopt e w own).1.clk = { e.clk with follow := none } := by
  unfold adopt
  split
  · next h => rw [← h]
  · dsimp only
    repeat' split
    all_goals rfl

/-- The number of the frame that begins: the next one, or the one that the source's flit gives (R36, R54). -/
def Clk.nextFrame (c : Clk) : Nat :=
  match c.follow with
  | some (n, _, _) => n % 2 ^ 48
  | none => (c.frame + 1) % 2 ^ 48

/-- The clock advances to the frame that begins, and the source's flit is used up. -/
theorem adopt_advance_stamp (e : Env) (w v : Work) (own : Nat) :
    (adopt (advance e w) v own).1.clk.stamp = (e.clk.nextFrame, e.clk.next, e.period, none) :=
  (congrArg Clk.stamp (adopt_clk (advance e w) v own)).trans rfl

theorem period_of_live {e e' : Env} (h : e.mer.live = e'.mer.live) : e.period = e'.period := by
  simp only [Env.period, Env.periodCode, Env.merWord, h]

/-- The frame that a boundary begins. -/
theorem boundary_stamp {e : Env} (h : e.rst.phase ≠ .off) (w : Work) (errs : List SramErr) :
    (boundary e w errs).1.clk.stamp = (e.clk.nextFrame, e.clk.next, e.period, none) := by
  rw [boundary_eq h]
  dsimp only
  rw [afterVote_stamp, voteStep_clk, adopt_advance_stamp, endFrame_clk, period_of_live (endFrame_live e w errs)]

end Sys2Proof.Machine
end

section
/-! PROOFS. The frame counter under the operations of the clock, of security and of resets (02 R36). -/

namespace Sys2Proof.Machine

/-! ### Commands of the forms that may change `Env` -/

theorem whole_frame {s t : State} {f : Env → Work → Env × Work} (h : whole s f = .next t)
    (hf : ∀ e w, (f e w).1.clk.frame = e.clk.frame) : t.env.clk.frame = s.env.clk.frame := by
  rw [whole_next h]
  exact hf s.env s.w

theorem manage_frame {e : Env} {w : Work} {m : Mgr} {may : Bool} {x : Env × Work} (hx : x.1.clk.frame = e.clk.frame) :
    (manage e w m may x).1.clk.frame = e.clk.frame := by
  unfold manage
  exact ite_frame rfl (ite_frame hx rfl)

theorem bmcOnly_frame {s t : State} {m : Mgr} {f : Env → Work → Env × Work} (h : bmcOnly m s f = .next t)
    (hf : ∀ e w, (f e w).1.clk.frame = e.clk.frame) : t.env.clk.frame = s.env.clk.frame :=
  whole_frame h fun e w => manage_frame (hf e w)

theorem bmcOrHost_frame {s t : State} {m : Mgr} {f : Env → Work → Env × Work} (h : bmcOrHost m s f = .next t)
    (hf : ∀ e w, (f e w).1.clk.frame = e.clk.frame) : t.env.clk.frame = s.env.clk.frame :=
  whole_frame h fun e w => manage_frame (hf e w)

theorem peerWhole_frame {s t : State} {m : Hdr} {f : Env → Work → Env × Work} (h : peerWhole m s f = .next t)
    (hf : ∀ e w, (f e w).1.clk.frame = e.clk.frame) : t.env.clk.frame = s.env.clk.frame := by
  refine whole_frame h fun e w => ite_frame rfl ?_
  split
  · rfl
  · exact hf e w

theorem driveLow_frame {k : Nat} {ok : Bool} {s t : State} (h : driveLow k ok s = .next t) :
    t.env.clk.frame = s.env.clk.frame :=
  whole_frame h fun e _ => ite_frame rfl (congrArg Clk.frame (startEntry_clk e 2 e.clk.now))

theorem jtagInstr_frame {s t : State} {op : Nat} {always : Bool} (h : jtagInstr s op always = .next t) :
    t.env.clk.frame = s.env.clk.frame :=
  whole_frame h fun _ _ => rfl

/-! ### Their operations -/

theorem answer_frame (e : Env) (w : Work) (m : Mgr) (ok : Bool) (sec : Sec) (data : List Nat) :
    (answer e w m ok sec data).1.clk.frame = e.clk.frame := by
  unfold answer
  exact ite_frame rfl rfl

theorem startEntry_frame (e : Env) (cause t : Nat) : (startEntry e cause t).clk.frame = e.clk.frame :=
  congrArg Clk.frame (startEntry_clk e cause t)

theorem timingFlit_frame (e : Env) (w : Work) (frame code src boundary : Nat) :
    (timingFlit e w frame code src boundary).1.clk.frame = e.clk.frame := by
  unfold timingFlit
  refine ite_frame rfl ?_
  dsimp only
  split <;> rfl

theorem memberOk_clk {e x : Env} {d hash : Nat} (h : memberOk e d hash = some x) : x.clk = e.clk := by
  unfold memberOk at h
  split at h
  · split at h <;> cases h
    rfl
  · split at h <;> cases h
    rfl

theorem datumIn_frame (e : Env) (w : Work) (d step : Nat) (ok : Bool) (hash key sig : Nat) :
    (datumIn e w d step ok hash key sig).1.clk.frame = e.clk.frame := by
  unfold datumIn
  refine ite_frame rfl (ite_frame ?_ (ite_frame ?_ (ite_frame rfl rfl)))
  · split
    · next h => exact congrArg Clk.frame (memberOk_clk h)
    · rfl
  · split
    · next h =>
      split at h
      · exact congrArg Clk.frame (memberOk_clk h)
      · cases h
    · rfl

theorem merCtlWrite_frame (e : Env) (w : Work) (v : Nat) : (merCtlWrite e w v).1.clk.frame = e.clk.frame := by
  unfold merCtlWrite
  exact ite_frame rfl (ite_frame rfl rfl)

theorem warmWrite_frame (e : Env) (v : Nat) : (warmWrite e v).clk.frame = e.clk.frame := by
  unfold warmWrite
  split
  · exact startEntry_frame ..
  · rfl

theorem resetDatum_frame (e : Env) (w : Work) : (resetDatum e w).1.clk.frame = e.clk.frame :=
  congrArg Clk.frame (resetDatum_clk e w)

theorem swresetWrite_frame (e : Env) (w : Work) (v : Nat) : (swresetWrite e w v).1.clk.frame = e.clk.frame := by
  unfold swresetWrite
  exact ite_frame (resetDatum_frame e w) rfl

theorem wdtWrite_frame (e : Env) (w : Work) (v : Nat) : (wdtWrite e w v).1.clk.frame = e.clk.frame := by
  unfold wdtWrite
  dsimp only
  split <;> rfl

theorem datumWrite_frame {e : Env} {w : Work} {addr v : Nat} {x : Env × Work} (h : datumWrite e w addr v = some x) :
    x.1.clk.frame = e.clk.frame := by
  unfold datumWrite at h
  split at h
  · cases h; exact merCtlWrite_frame ..
  split at h
  · cases h; exact warmWrite_frame ..
  split at h
  · cases h; exact swresetWrite_frame ..
  split at h
  · cases h; exact wdtWrite_frame ..
  · obtain ⟨n, -, rfl⟩ := Option.map_eq_some_iff.mp h
    dsimp only
    split <;> rfl

theorem regWrite_frame (e : Env) (w : Work) (addr v : Nat) : (regWrite e w addr v).1.clk.frame = e.clk.frame := by
  unfold regWrite
  refine ite_frame rfl ?_
  split
  · next h => exact datumWrite_frame h
  · split <;> rfl

theorem holdMain_frame (e : Env) (w : Work) (self : Bool) : (holdMain e w self).1.clk.frame = e.clk.frame := rfl

theorem defaultMer_clk (e : Env) (k : Nat) : (defaultMer e k).clk = e.clk := by
  unfold defaultMer
  repeat' split
  all_goals rfl

theorem defaultWord_clk (e : Env) (k : Nat) : (defaultWord e k).clk = e.clk := by
  unfold defaultWord
  repeat' split
  all_goals rfl

theorem votedMer_clk (e : Env) (w : Work) : ((voteAll e w).2.2.foldl defaultMer (voteAll e w).1).clk = e.clk :=
  (foldl_keeps Env.clk defaultMer_clk _ _).trans (voteAll_clk e w)

theorem votedWords_clk (e : Env) (ks : List Nat) : (ks.foldl defaultWord e).clk = e.clk :=
  foldl_keeps Env.clk defaultWord_clk ks e

/-- Bring-up votes the words, gives defaults to those without a majority, and sets the phase. -/
theorem bringup_frame (e : Env) (w : Work) (t : Nat) (romOk : Bool) : (bringup e w t romOk).1.clk.frame = e.clk.frame := by
  have hmer (x : Env) (h : x.clk = (e.at t).clk) :
      ((voteAll x w).2.2.foldl defaultMer (voteAll x w).1).clk.frame = e.clk.frame := by
    rw [votedMer_clk, h]
    rfl
  unfold bringup
  dsimp only
  split
  · exact hmer _ rfl
  · refine ite_frame (hmer _ rfl) (ite_frame ?_ (ite_frame ?_ ?_))
    all_goals exact (congrArg Clk.frame (votedWords_clk _ _)).trans (hmer _ rfl)

theorem resumeChannel_clk (e : Env) (x : Env × Work) (c : Nat) (badRec badMask : Bool) :
    (resumeChannel e x c badRec badMask).1.clk = x.1.clk := by
  unfold resumeChannel
  dsimp only
  repeat' split
  all_goals rfl

theorem leaveRefresh_frame (e : Env) (w : Work) (bad : List Nat) (drifts : List (Nat × Nat × Drift)) :
    (leaveRefresh e w bad drifts).1.clk.frame = e.clk.frame := by
  unfold leaveRefresh
  refine congrArg Clk.frame (foldl_keeps (fun x : Env × Work => x.1.clk) (h := fun x c => ?_) (List.range 80) (e, _))
  exact resumeChannel_clk ..

end Sys2Proof.Machine
end

section
/-! PROOFS. Which commands change the frame counter (02 R36), command by command. -/

namespace Sys2Proof.Machine

/-! ### The commands of the clock and of peers -/

theorem execSnapshotAbandon_frame {s t : State} (h : execSnapshotAbandon s = .next t) : t.env.clk.frame = s.env.clk.frame :=
  whole_frame h fun e w => ite_frame (congrArg Clk.frame (abandonSnap_clk e w)) rfl

theorem execPlanLatch_frame {r : Sensors} {s t : State} (h : execPlanLatch r s = .next t) : t.env.clk.frame = s.env.clk.frame :=
  whole_frame h fun e w => ite_frame (congrArg Clk.frame (completeSnap_clk e w)) rfl

theorem execTimingFlitReceive_frame {frame code src boundary : Nat} {s t : State}
    (h : execTimingFlitReceive frame code src boundary s = .next t) : t.env.clk.frame = s.env.clk.frame :=
  whole_frame h fun e w => ite_frame (timingFlit_frame e w frame code src boundary) rfl

theorem execMeridianSourceLost_frame {s t : State} (h : execMeridianSourceLost s = .next t) :
    t.env.clk.frame = s.env.clk.frame :=
  whole_frame h fun _ _ => ite_frame rfl rfl

theorem execMeridianCommit_frame {v : Word} {s t : State} (h : execMeridianCommit v s = .next t) :
    t.env.clk.frame = s.env.clk.frame :=
  whole_frame h fun e w => ite_frame (merCtlWrite_frame e w v.toNat) rfl

theorem execTiming_frame {n : Nat} {f : FlitHdr} {frame code src offset arrival : Nat} {s t : State}
    (h : execTiming n f frame code src offset arrival s = .next t) : t.env.clk.frame = s.env.clk.frame :=
  whole_frame h fun _ _ => ite_frame rfl (ite_frame (timingFlit_frame ..) rfl)

theorem identIn_frame (e : Env) (w : Work) (n : Nat) (x : IdentInfo) : (identIn e w n x).1.clk.frame = e.clk.frame := by
  unfold identIn
  exact ite_frame (ite_frame (startEntry_frame ..) rfl) (ite_frame rfl rfl)

theorem execIdent_frame {n : Nat} {f : FlitHdr} {x : IdentInfo} {s t : State} (h : execIdent n f x s = .next t) :
    t.env.clk.frame = s.env.clk.frame :=
  whole_frame h fun _ _ => ite_frame rfl (ite_frame (identIn_frame ..) rfl)

theorem execLost_frame {m : Hdr} {dev : Nat} {s t : State} (h : execLost m dev s = .next t) :
    t.env.clk.frame = s.env.clk.frame :=
  peerWhole_frame h fun _ _ => ite_frame (startEntry_frame ..) rfl

theorem execIsolationReset_frame {s t : State} (h : execIsolationReset s = .next t) : t.env.clk.frame = s.env.clk.frame :=
  whole_frame h fun _ _ => ite_frame (startEntry_frame ..) rfl

/-! ### The commands of security -/

theorem execFwHandover_frame {s t : State} (h : execFwHandover s = .next t) : t.env.clk.frame = s.env.clk.frame := by
  refine whole_frame h fun e w => ?_
  split
  · exact ite_frame rfl (ite_frame rfl rfl)
  · rfl

theorem execGetMeasurements_frame {m : Mgr} {index : Nat} {s t : State} (h : execGetMeasurements m index s = .next t) :
    t.env.clk.frame = s.env.clk.frame := by
  refine bmcOrHost_frame h fun e w => ?_
  split <;> rfl

theorem execKeyUpdate_frame {m : Mgr} {session : Nat} {s t : State} (h : execKeyUpdate m session s = .next t) :
    t.env.clk.frame = s.env.clk.frame := by
  refine bmcOrHost_frame h fun e w => ?_
  split
  · exact answer_frame ..
  · rfl

/-! ### The commands of resets and power -/

theorem execRstNReset_frame {x : Nat} {s t : State} (h : execRstNReset x s = .next t) : t.env.clk.frame = s.env.clk.frame :=
  whole_frame h fun e _ => ite_frame rfl (startEntry_frame (e.at x) 2 x)

theorem execWarmResetDrainEnd_frame {s t : State} (h : execWarmResetDrainEnd s = .next t) :
    t.env.clk.frame = s.env.clk.frame :=
  whole_frame h fun _ _ => ite_frame rfl rfl

theorem execNearCacheFlushDone_frame {x : Nat} {s t : State} (h : execNearCacheFlushDone x s = .next t) :
    t.env.clk.frame = s.env.clk.frame := by
  refine whole_frame h fun e w => ite_frame rfl ?_
  dsimp only
  rw [holdMain_frame, Env.setBackup_clk]
  split <;> rfl

theorem execVinCollapse_frame {mv : Nat} {s t : State} (h : execVinCollapse mv s = .next t) :
    t.env.clk.frame = s.env.clk.frame :=
  whole_frame h fun e _ => ite_frame (startEntry_frame e 2 e.clk.now) rfl

theorem execRegisterWrite_frame {agent addr : Nat} {v : Word} {s t : State} (h : execRegisterWrite agent addr v s = .next t) :
    t.env.clk.frame = s.env.clk.frame :=
  whole_frame h fun e w => ite_frame (ite_frame (regWrite_frame e w addr v.toNat) rfl) (ite_frame rfl rfl)

/-! ### All commands -/

/-- Only a boundary, an edge that ends the frame, power-on and the loss of standby power change the frame counter (R36). -/
theorem exec_keeps_frame {c : Instr} {s t : State} (hb : ∀ errs, c ≠ .frameBoundary errs)
    (he : ∀ x y, c ≠ .meridianSyncEdge x y) (hp : ∀ x y, c ≠ .powerOn x y) (hl : ∀ x, c ≠ .standbyLost x)
    (h : exec c s = .next t) : t.env.clk.frame = s.env.clk.frame := by
  cases hc : c.ownsEnv with
  | false =>
    obtain ⟨w, hw⟩ := exec_of_not_ownsEnv hc s
    cases hw.symm.trans h
    rfl
  | true =>
    cases c with
    | frameBoundary errs => exact absurd rfl (hb errs)
    | meridianSyncEdge x y => exact absurd rfl (he x y)
    | powerOn x y => exact absurd rfl (hp x y)
    | standbyLost x => exact absurd rfl (hl x)
    | snapshotAbandon => exact execSnapshotAbandon_frame h
    | planLatch _ => exact execPlanLatch_frame h
    | timingFlitReceive _ _ _ _ => exact execTimingFlitReceive_frame h
    | meridianSourceLost => exact execMeridianSourceLost_frame h
    | meridianCommit _ => exact execMeridianCommit_frame h
    | timing _ _ _ _ _ _ _ => exact execTiming_frame h
    | ident _ _ _ => exact execIdent_frame h
    | lost _ _ => exact execLost_frame h
    | datum _ _ _ _ => exact peerWhole_frame (show execDatum _ _ _ _ s = _ from h) fun _ _ => datumIn_frame ..
    | isolationReset => exact execIsolationReset_frame h
    | cxlHotReset _ _ => exact whole_frame (show execCxlHotReset _ _ s = _ from h) fun _ _ => ite_frame rfl rfl
    | cxlReset _ => exact whole_frame (show execCxlReset _ s = _ from h) fun _ _ => ite_frame rfl rfl
    | getMeasurements _ _ => exact execGetMeasurements_frame h
    | keyUpdate _ _ => exact execKeyUpdate_frame h
    | getCertificate _ _ => exact bmcOrHost_frame (show execGetCertificate _ _ s = _ from h) fun _ _ => rfl
    | challenge _ _ => exact bmcOrHost_frame (show execChallenge _ _ s = _ from h) fun _ _ => rfl
    | setCertificate _ => exact bmcOrHost_frame (show execSetCertificate _ s = _ from h) fun _ _ => rfl
    | getCsr _ => exact bmcOrHost_frame (show execGetCsr _ s = _ from h) fun _ _ => rfl
    | getFwInfo _ => exact bmcOrHost_frame (show execGetFwInfo _ s = _ from h) fun _ _ => rfl
    | heartbeat _ _ => exact bmcOrHost_frame (show execHeartbeat _ _ s = _ from h) fun _ _ => rfl
    | keyExchange _ _ _ => exact bmcOrHost_frame (show execKeyExchange _ _ _ s = _ from h) fun _ _ => ite_frame rfl (answer_frame ..)
    | debugChallenge _ => exact bmcOrHost_frame (show execDebugChallenge _ s = _ from h) fun _ _ => answer_frame ..
    | debugOpen _ _ => exact bmcOrHost_frame (show execDebugOpen _ _ s = _ from h) fun _ _ => ite_frame (answer_frame ..) rfl
    | debugClose _ _ => exact bmcOrHost_frame (show execDebugClose _ _ s = _ from h) fun _ _ => ite_frame rfl rfl
    | debugSessionExpiry _ => exact whole_frame (show execDebugSessionExpiry _ s = _ from h) fun _ _ => rfl
    | transferFw _ _ => exact bmcOnly_frame (show execTransferFw _ _ s = _ from h) fun _ _ => answer_frame ..
    | activateFw _ _ => exact bmcOnly_frame (show execActivateFw _ _ s = _ from h) fun _ _ => answer_frame ..
    | fwCommit _ => exact bmcOnly_frame (show execFwCommit _ s = _ from h) fun _ _ => answer_frame ..
    | svnAdvance _ => exact bmcOnly_frame (show execSvnAdvance _ s = _ from h) fun _ _ => answer_frame ..
    | slotRetire _ _ _ => exact bmcOnly_frame (show execSlotRetire _ _ _ s = _ from h) fun _ _ => answer_frame ..
    | debugAuthority _ _ => exact bmcOnly_frame (show execDebugAuthority _ _ s = _ from h) fun _ _ => answer_frame ..
    | enrolArm _ _ _ _ => exact bmcOnly_frame (show execEnrolArm _ _ _ _ s = _ from h) fun _ _ => ite_frame (answer_frame ..) (answer_frame ..)
    | backupWrite _ _ _ => exact bmcOnly_frame (show execBackupWrite _ _ _ s = _ from h) fun _ _ => ite_frame rfl rfl
    | recoveryExit _ => exact bmcOnly_frame (show execRecoveryExit _ s = _ from h) fun _ _ => ite_frame (startEntry_frame ..) rfl
    | fwHandover => exact execFwHandover_frame h
    | fwBankSwitch => exact whole_frame (show execFwBankSwitch s = _ from h) fun _ _ => ite_frame rfl rfl
    | idcode => exact jtagInstr_frame (show execIdcode s = _ from h)
    | bypass x => exact jtagInstr_frame (show execBypass x s = _ from h)
    | samplePreload => exact jtagInstr_frame (show execSamplePreload s = _ from h)
    | extest => exact jtagInstr_frame (show execExtest s = _ from h)
    | clamp => exact jtagInstr_frame (show execClamp s = _ from h)
    | highz => exact jtagInstr_frame (show execHighz s = _ from h)
    | extestPulse => exact jtagInstr_frame (show execExtestPulse s = _ from h)
    | extestTrain => exact jtagInstr_frame (show execExtestTrain s = _ from h)
    | vinLow _ _ => exact driveLow_frame (show execVinLow _ _ s = _ from h)
    | junctionTrip _ _ => exact driveLow_frame (show execJunctionTrip _ _ s = _ from h)
    | refclkLoss _ => exact driveLow_frame (show execRefclkLoss _ s = _ from h)
    | rstNReset _ => exact execRstNReset_frame h
    | rstNGlitch _ => exact whole_frame (show execRstNGlitch _ s = _ from h) fun _ _ => ite_frame rfl rfl
    | rstNRelease _ => exact whole_frame (show execRstNRelease _ s = _ from h) fun _ _ => ite_frame rfl rfl
    | warmResetEntry => exact whole_frame (show execWarmResetEntry s = _ from h) fun _ _ => ite_frame rfl rfl
    | flushTimeout => exact whole_frame (show execFlushTimeout s = _ from h) fun _ _ => ite_frame rfl rfl
    | warmResetDrainEnd => exact execWarmResetDrainEnd_frame h
    | nearCacheFlushDone _ => exact execNearCacheFlushDone_frame h
    | vinCollapse _ => exact execVinCollapse_frame h
    | resetWarm _ => exact whole_frame (show execResetWarm _ s = _ from h) fun _ _ => ite_frame (warmWrite_frame ..) rfl
    | bringupStart _ _ => exact whole_frame (show execBringupStart _ _ s = _ from h) fun _ _ => ite_frame (bringup_frame ..) rfl
    | selfRefreshExit _ => exact whole_frame (show execSelfRefreshExit _ s = _ from h) fun _ _ => ite_frame (leaveRefresh_frame ..) rfl
    | resetDone _ => exact whole_frame (show execResetDone _ s = _ from h) fun _ _ => ite_frame rfl rfl
    | startTimeout _ => exact whole_frame (show execStartTimeout _ s = _ from h) fun _ _ => ite_frame (startEntry_frame ..) rfl
    | datumSwreset _ => exact whole_frame (show execDatumSwreset _ s = _ from h) fun _ _ => ite_frame (swresetWrite_frame ..) rfl
    | datumWatchdog _ => exact whole_frame (show execDatumWatchdog _ s = _ from h) fun _ _ => ite_frame (resetDatum_frame ..) rfl
    | wdtKick _ => exact whole_frame (show execWdtKick _ s = _ from h) fun _ _ => ite_frame (wdtWrite_frame ..) rfl
    | registerWrite _ _ _ => exact execRegisterWrite_frame h
    | _ => cases hc

/-! ### Boundaries and power-on -/

theorem execFrameBoundary_run (errs : List SramErr) (s : State) :
    execFrameBoundary errs s =
      .next { s with env := (boundary s.env s.w errs).1, w := (boundary s.env s.w errs).2 } := rfl

theorem boundary_off {e : Env} (h : e.rst.phase = .off) (w : Work) (errs : List SramErr) : boundary e w errs = (e, w) := by
  unfold boundary
  exact if_pos h

theorem execPowerOn_run {p board : Nat} {s : State} (h : s.env.rst.phase = .off) :
    ∃ t, execPowerOn p board s = .next t ∧ t.env.clk.frame = 0 := by
  have hs : standbyUp s.env = false := by simp [standbyUp, h]
  refine ⟨_, whole_run .., ?_⟩
  simp [hs]

end Sys2Proof.Machine

open Sys2Proof Sys2Proof.Machine

/-- Settles O8: `boundary_stamp` for a boundary, and `exec_keeps_frame` for every other command. -/
theorem frameCounterCountsBoundaries : Obligations.FrameCounterCountsBoundaries := by
  refine ⟨fun errs s h => ⟨_, execFrameBoundary_run errs s, ?_⟩, fun errs s h => ?_, fun p board s h => execPowerOn_run h,
    fun c s t hb he hp hl h => exec_keeps_frame hb he hp hl h⟩
  · have hstamp := boundary_stamp h s.w errs
    simp only [Clk.stamp, Prod.mk.injEq] at hstamp
    obtain ⟨hframe, hstart, hperiod, hfollow⟩ := hstamp
    exact ⟨hframe, hstart, hperiod, hfollow, rfl⟩
  · refine (execFrameBoundary_run errs s).trans ?_
    rw [boundary_off h]
end

section
/-! PROOFS. Service commands of a channel (04 R119). -/

namespace Sys2Proof.Machine

/-- A service command with go set: the command, the code of its check, and the transition of an accepted one. -/
theorem svcGo_run {s : State} (hp : poolRuns s.env = true) (chan : Nat) {cmd : Nat} (h : cmd < 16) :
    svcGo chan cmd s = .next { s with
      w := let w := s.w.setFld (aChannelSvc chan) 27 24 cmd
           let code := svcCheck s.env w chan cmd
           let w' := w.setFld (aChannelSvcReason chan) 15 0 code
           if code = 0 then w'.queue (svcDue chan cmd) else w' } := by
  have hcmd : bitsOf (2 ^ 31 + 2 ^ 24 * cmd) 27 24 = cmd := by simp only [bitsOf]; omega
  have hgo : bitAt (2 ^ 31 + 2 ^ 24 * cmd) 31 = true := by simp only [bitAt, beq_iff_eq]; omega
  rw [svcGo, traffic_run hp]
  simp only [svcWrite, hcmd, hgo, Bool.not_true, Bool.false_eq_true, if_false]

/-- Every check of a service command ends in a code of Table 4-6. -/
theorem svcCheck_code (e : Env) (w : Work) (c cmd : Nat) :
    svcCheck e w c cmd ∈ [0, 0x0203, 0x0205, 0x0206, 0x0207, 0x0208] := by
  unfold svcCheck
  dsimp only
  repeat' split
  all_goals simp

theorem svcCheck_powerOnTrain_illegal (e : Env) {w : Work} {c : Nat} (h : chanState w c ≠ chOff) :
    svcCheck e w c 3 = 0x0205 := by
  simp [svcCheck, h]

theorem svcCheck_fromOut_illegal (e : Env) {w : Work} {c cmd : Nat} (hc : cmd = 2 ∨ cmd = 4) (h : chanState w c ≠ chOut) :
    svcCheck e w c cmd = 0x0205 := by
  rcases hc with rfl | rfl <;> simp [svcCheck, h]

end Sys2Proof.Machine

open Sys2Proof Sys2Proof.Machine

/-- Settles O31: `svcGo_run` for the five commands, and the codes that the check can end in (R119). -/
theorem channelServiceCommands : Obligations.ChannelServiceCommands := by
  intro chan cmd c s hp hc w code w'
  refine ⟨?_, svcCheck_code .., ?_, fun h => svcCheck_fromOut_illegal _ h⟩
  · simp only [List.mem_cons, Prod.mk.injEq, List.not_mem_nil, or_false] at hc
    rcases hc with ⟨rfl, rfl⟩ | ⟨rfl, rfl⟩ | ⟨rfl, rfl⟩ | ⟨rfl, rfl⟩ | ⟨rfl, rfl⟩
    all_goals exact svcGo_run hp chan (by decide)
  · rintro rfl h
    exact svcCheck_powerOnTrain_illegal _ h
end

section
/-! PROOFS. The start and the copies of TWIN operations (04 R136, R141-R146). -/

namespace Sys2Proof.Machine

/-! ### The start of an operation (R146) -/

/-- The commands of a kind take the other fields from the word that is written. -/
theorem opCtlWrite_kind (e : Env) (w : Work) (v : Nat) {kind : Nat} (h : kind < 4) :
    opCtlWrite e w (putBits v 30 29 kind) =
      (let parcel := bitsOf v 15 0
       let peer := bitsOf v 17 16
       let w := w.setReg aProtectOpCtl (2 ^ 29 * kind + 2 ^ 16 * peer + parcel)
       let code := opCheck e w kind parcel peer
       let w' := w.setFld aProtectStatus 15 0 code
       if bitAt v 31 = true then if code = 0 then w'.queue (.opStart kind parcel peer) else w' else w) := by
  have hkind : bitsOf (putBits v 30 29 kind) 30 29 = kind := by simp only [bitsOf, putBits]; omega
  have hpeer : bitsOf (putBits v 30 29 kind) 17 16 = bitsOf v 17 16 := by simp only [bitsOf, putBits]; omega
  have hparcel : bitsOf (putBits v 30 29 kind) 15 0 = bitsOf v 15 0 := by simp only [bitsOf, putBits]; omega
  have hgo : bitAt (putBits v 30 29 kind) 31 = bitAt v 31 := by simp only [bitAt, bitsOf, putBits]; congr 1; omega
  simp only [opCtlWrite, hkind, hpeer, hparcel, hgo]
  cases bitAt v 31 <;> rfl

/-- Every check of an operation ends in a code of Table 4-9. -/
theorem opCheck_code (e : Env) (w : Work) (kind parcel peer : Nat) :
    opCheck e w kind parcel peer ∈ [0, 0x010C, 0x010D, 0x010E, 0x010F] := by
  unfold opCheck
  dsimp only
  repeat' split
  all_goals simp

/-- ESTABLISH and RESILVER are writes of PROTECT.OP_CTL whose kind is their own. -/
theorem opCommand_run {s : State} {c : Instr} {v : Word} {kind : Nat} (hp : poolRuns s.env = true)
    (hc : (kind, c) ∈ [(1, .establish v), (2, .resilver v)]) :
    kind < 4 ∧ exec c s = .next { s with w := opCtlWrite s.env s.w (putBits v.toNat 30 29 kind) } := by
  simp only [List.mem_cons, Prod.mk.injEq, List.not_mem_nil, or_false] at hc
  rcases hc with ⟨rfl, rfl⟩ | ⟨rfl, rfl⟩
  · exact ⟨by decide, show execEstablish v s = _ from traffic_run hp⟩
  · exact ⟨by decide, show execResilver v s = _ from traffic_run hp⟩

/-! ### The copies (R136, R141, R144, R145) -/

section
variable {s : State} {slot : Nat} {o : OpSlot}

/-- A dirty plot below the watermark comes first (R144). -/
theorem execEstablishChunk_dirty {i : Nat} (hp : poolRuns s.env = true) (hr : runningSlot s.w slot 2 = some o)
    (hd : nextDirty s.env s.w o.parcel ((o.mark + 31) / 32) = some i) :
    execEstablishChunk slot s = .next { s with
      w := if rangeOpen s.w o (2 ^ 21 * i) (2 ^ 21) then s.w
        else copyPlot s.env (bgDraw s.w (parcelPart s.w o.parcel) (2 * min (2 ^ 21) (65536 * o.mark - 2 ^ 21 * i))) o i
          (65536 * o.mark) } := by
  rw [execEstablishChunk, traffic_run hp]
  simp only [hr, hd]

/-- With none left below it, the chunk at the watermark is copied, and the watermark advances (R141, R145). -/
theorem execEstablishChunk_clean (hp : poolRuns s.env = true) (hr : runningSlot s.w slot 2 = some o)
    (hd : nextDirty s.env s.w o.parcel ((o.mark + 31) / 32) = none) :
    execEstablishChunk slot s = .next { s with
      w := let w := copyRange s.env o (bgDraw s.w (parcelPart s.w o.parcel) (2 * 65536)) (65536 * o.mark) 1024
           if rangeOpen s.w o (65536 * o.mark) 65536 then s.w
           else setSlot w slot { o with mark := o.mark + 1, st := if chunksOf w o.parcel ≤ o.mark + 1 then 3 else o.st } } := by
  rw [execEstablishChunk, traffic_run hp]
  simp only [hr, hd, ge_iff_le]
  split_ifs <;> rfl

/-- A resilver copies the next plot whose bit is set (R136). -/
theorem execResilverPlot_dirty {i : Nat} (hp : poolRuns s.env = true) (hr : runningSlot s.w slot 3 = some o)
    (hd : nextDirty s.env s.w o.parcel (eSize (cadEntry s.w o.parcel)) = some i) :
    execResilverPlot slot s = .next { s with
      w := if rangeOpen s.w o (2 ^ 21 * i) (2 ^ 21) then s.w
        else setSlot (copyPlot s.env (bgDraw s.w (parcelPart s.w o.parcel) (2 ^ 22)) o i (2 ^ 21 * (i + 1))) slot
          { o with mark := max o.mark (32 * (i + 1)) } } := by
  rw [execResilverPlot, traffic_run hp]
  simp only [hr, hd]

/-- With no bit left it is DONE. -/
theorem execResilverPlot_clean (hp : poolRuns s.env = true) (hr : runningSlot s.w slot 3 = some o)
    (hd : nextDirty s.env s.w o.parcel (eSize (cadEntry s.w o.parcel)) = none) :
    execResilverPlot slot s =
      .next { s with w := setSlot s.w slot { o with mark := chunksOf s.w o.parcel, st := 3 } } := by
  rw [execResilverPlot, traffic_run hp]
  simp only [hr, hd]

end

end Sys2Proof.Machine

open Sys2Proof Sys2Proof.Machine

/-- Settles O38: `opCtlWrite_kind` for the start (R146), and one lemma for each case of a copying step (R136, R144, R145). -/
theorem twinOperationsStartAndCopy : Obligations.TwinOperationsStartAndCopy := by
  refine ⟨fun kind c v s hp hc => ?_, fun slot i o s hp hr hd => execEstablishChunk_dirty hp hr hd,
    fun slot o s hp hr hd => execEstablishChunk_clean hp hr hd, fun slot o s hp hr => ?_⟩
  · intro parcel peer w code w'
    obtain ⟨hkind, hrun⟩ := opCommand_run hp hc
    rw [opCtlWrite_kind _ _ _ hkind] at hrun
    refine ⟨fun hgo => ⟨?_, opCheck_code ..⟩, fun hgo => ?_⟩
    · rw [hrun, if_pos hgo]
    · rw [hrun, if_neg (ne_true_of_eq_false hgo)]
  · cases hd : nextDirty s.env s.w o.parcel (eSize (cadEntry s.w o.parcel)) with
    | some i => exact execResilverPlot_dirty hp hr hd
    | none => exact execResilverPlot_clean hp hr hd
end

section
/-! PROOFS. A proxy drops a peer-homed line (06 R221, R230): what is left for each state of the copy. -/

namespace Sys2Proof.Machine

/-- The request by which a proxy gives up its copy `n` of a line, as agent 0x7F of its device. -/
def dropReq (e : Env) (n : NcLine) (line : Nat) (op : HomeOp) : Req :=
  { op := op, dev := e.board, agent := 0x7F, tag := line % 2 ^ 16, frame := e.clk.frame, parcel := n.parcel, gen := n.gen,
    off := n.off, line := line }

/-- The copy gone from the near cache and its home told: the request noted, carried out, and its message emitted (R221). -/
def dropAndTell (e : Env) (w : Work) (n : NcLine) (dev line : Nat) (op : HomeOp) : Work :=
  let r := dropReq e n line op
  let w := ncDrop w dev line
  (carryOut e { w with home := { w.home with forwarded := w.home.forwarded ++ [(dev, r)] } } r dev op.hasData).emit
    (.peer (fwdMsg r dev))

section
variable {e : Env} {w : Work} {dev line : Nat} {n : NcLine}

/-- A line with a request of this proxy outstanding is not dropped (R230). -/
theorem proxyDrop_busy (hb : proxyBusy w dev line = true) : proxyDrop e w dev line = w := by
  cases hn : ncGet w dev line with
  | none => simp only [proxyDrop, hn]
  | some n => simp only [proxyDrop, hn, hb, if_true]

variable (hn : ncGet w dev line = some n) (hb : proxyBusy w dev line = false)
include hn hb

theorem proxyDrop_shared (hst : n.st = some .s) : proxyDrop e w dev line = ncDrop w dev line := by
  simp only [proxyDrop, hn, hb, hst, Bool.false_eq_true, if_false]

theorem proxyDrop_dirty (hst : n.st = some .m ∨ n.st = some .o) :
    proxyDrop e w dev line = dropAndTell e w n dev line (.pWb ⟨n.data, n.poison⟩) := by
  obtain hst | hst := hst <;> simp only [proxyDrop, hn, hb, hst, Bool.false_eq_true, if_false] <;> rfl

theorem proxyDrop_exclusive (hst : n.st = some .e) :
    proxyDrop e w dev line = dropAndTell e w n dev line .pEvict := by
  simp only [proxyDrop, hn, hb, hst, Bool.false_eq_true, if_false]
  rfl

end

theorem execProxyDrop_run {s : State} {dev : Nat} (hp : poolRuns s.env = true) (hd : dev ≠ s.env.board) (line : Nat) :
    execProxyDrop dev line s = .next { s with w := proxyDrop s.env s.w dev line } := by
  rw [execProxyDrop, traffic_run hp, if_neg hd]

end Sys2Proof.Machine

open Sys2Proof Sys2Proof.Machine

/-- Settles O20: `execProxyDrop_run`, and one lemma for each state in which the copy is held (R221, R230). -/
theorem proxyDropTellsTheHome : Obligations.ProxyDropTellsTheHome := by
  intro dev line n s hp hd hn w r sent m
  have run : exec (.proxyDrop dev line) s = .next { s with w := proxyDrop s.env s.w dev line } := execProxyDrop_run hp hd line
  refine ⟨fun hb => ?_, fun hb => ⟨fun hst => ?_, fun hst => ?_, fun hst => ?_⟩⟩
  · rw [run, proxyDrop_busy hb]
  · rw [run, proxyDrop_shared hn hb hst]
  · rw [run, proxyDrop_dirty hn hb hst]
    rfl
  · rw [run, proxyDrop_exclusive hn hb hst]
    rfl
end

section
/-! PROOFS. Writes of RING[r].CTL and of a ring's TAIL (08 R300, R301, R303, R309). -/

namespace Sys2Proof.Machine

/-! ### The word that an enable and a disable write -/

@[simp] theorem bitAt_setBitAt_enable (v : Nat) (b : Bool) : bitAt (setBitAt v 31 b) 31 = b := by
  simp only [bitAt, setBitAt, putBits, bitsOf]
  cases b <;> simp <;> omega

/-- The fields below the enable bit are those of the word written. -/
theorem setBitAt_enable_fields (v : Nat) (b : Bool) : setBitAt v 31 b &&& 0x0FFFFFFF = v &&& 0x0FFFFFFF := by
  rw [show (0x0FFFFFFF : Nat) = 2 ^ 28 - 1 from rfl, Nat.and_two_pow_sub_one_eq_mod, Nat.and_two_pow_sub_one_eq_mod]
  simp only [setBitAt, putBits, bitsOf]
  omega

/-! ### What a write of CTL leaves of the queues' parcels (R300) -/

@[simp] theorem cadEntry_setFld (w : Work) (a hi lo x p : Nat) : cadEntry (w.setFld a hi lo x) p = cadEntry w p := rfl

theorem Work.fld_setFld_ne (w : Work) {a b : Nat} (h : b ≠ a) (hi lo v hi' lo' : Nat) :
    (w.setFld a hi lo v).fld b hi' lo' = w.fld b hi' lo' := by
  rw [Work.fld, Work.setFld, Work.reg_setReg_ne _ _ _ _ h, Work.fld]

@[simp] theorem dqParcel_setFld_ctl (w : Work) (r hi lo x : Nat) :
    dqParcel (w.setFld (aRingCtl r) hi lo x) r = dqParcel w r :=
  w.fld_setFld_ne (by simp [aRingDqParcel, aRingCtl]) ..

@[simp] theorem cqParcel_setFld_ctl (w : Work) (r hi lo x : Nat) :
    cqParcel (w.setFld (aRingCtl r) hi lo x) r = cqParcel w r :=
  w.fld_setFld_ne (by simp [aRingCqParcel, aRingCtl]) ..

/-! ### Writes of CTL (R301, R309) -/

/-- The ring that an enable starts, with the generations of its queues' parcels (R300). -/
def startedRing (w : Work) (r : Nat) : Ring :=
  { dqGen := eGen (cadEntry w (dqParcel w r)), cqGen := eGen (cadEntry w (cqParcel w r)) }

/-- The generations are the same read before and after the enable bit is set. -/
theorem startedRing_setFld_ctl (w : Work) (r hi lo x : Nat) :
    startedRing (w.setFld (aRingCtl r) hi lo x) r = startedRing w r := by
  simp only [startedRing, cadEntry_setFld, dqParcel_setFld_ctl, cqParcel_setFld_ctl]

/-- Every check of a ring ends in a code of Table 8-2. -/
theorem ringCheck_code (w : Work) (r : Nat) : ringCheck w r ∈ [0, 0x0605, 0x0606, 0x0607, 0x0608] := by
  unfold ringCheck
  dsimp only
  split_ifs
  all_goals simp

section
variable {s : State} {r : Nat} (v : Word) (hp : poolRuns s.env = true)
include hp

/-- An enable of a disabled ring: its fields, the code of its check, and with code 0 the ring in RUNNING (R301). -/
theorem execRingEnable_disabled (hc : s.w.fld (aRingCtl r) 31 31 = 0) (hr : getRing s.w r = none) :
    execRingEnable r v s = .next { s with
      w := let w := s.w.setReg (aRingCtl r) (v.toNat &&& 0x0FFFFFFF)
           let w' := w.setFld (aRingStatus r) 15 0 (ringCheck w r)
           let w₁ := w'.setFld (aRingCtl r) 31 31 1
           if ringCheck w r = 0 then setRingState (putRing w₁ r (startedRing w₁ r)) r 1 else w' } := by
  have hoff : s.w.fld (aRingCtl r) 31 31 ≠ 1 := by omega
  rw [execRingEnable, traffic_run hp]
  simp only [ringCtlWrite, if_neg hoff, hr, setBitAt_enable_fields, bitAt_setBitAt_enable, startedRing_setFld_ctl]
  by_cases hcode : ringCheck (s.w.setReg (aRingCtl r) (v.toNat &&& 0x0FFFFFFF)) r = 0
  · simp [hcode, startedRing]
  · simp [hcode]

theorem execRingDisable_disabled (hc : s.w.fld (aRingCtl r) 31 31 = 0) (hr : getRing s.w r = none) :
    execRingDisable r v s = .next { s with w := s.w.setReg (aRingCtl r) (v.toNat &&& 0x0FFFFFFF) } := by
  have hoff : s.w.fld (aRingCtl r) 31 31 ≠ 1 := by omega
  rw [execRingDisable, traffic_run hp]
  simp [ringCtlWrite, hoff, hr, setBitAt_enable_fields]

theorem execRingEnable_enabled (hc : s.w.fld (aRingCtl r) 31 31 = 1) : execRingEnable r v s = .next s := by
  rw [execRingEnable, traffic_run hp]
  simp [ringCtlWrite, hc]

/-- A disable of an enabled ring clears the enable and stops it (R309). -/
theorem execRingDisable_enabled (hc : s.w.fld (aRingCtl r) 31 31 = 1) :
    execRingDisable r v s = .next { s with w := stopRing s.env (s.w.setFld (aRingCtl r) 31 31 0) r 0 } := by
  rw [execRingDisable, traffic_run hp]
  simp [ringCtlWrite, hc]

end

/-! ### Writes of the doorbell page (R302, R303) -/

theorem doorIn_open {w : Work} {a : Nat} (hreach : ldReachable w a = true) (hopen : ldOpen w a = true) (e : Env)
    (f : Work → Work) : doorIn e w a f = f w := by
  simp [doorIn, hreach, hopen]

/-- The work in which the owner's doorbell write has been carried to the die of its ring (01 R29). -/
def doorbellCarried (w : Work) (agent r : Nat) : Work :=
  carryPlain w acctDev .doorbell agent (schedAgent w r) (dieOfPort (agent / 2)) (.tun (ringDie w r))

/-- A write of the owner to a ring that is not disabled takes effect where the message arrives. -/
theorem doorbell_owner {w : Work} {agent r : Nat} {x : Ring} (hx : getRing w r = some x) (hst : ringState w r ≠ 0)
    (ho : ringOwner w r = agent) (f : Work → Ring → Work) :
    doorbell w agent r f = f (doorbellCarried w agent r) x := by
  simp only [doorbell, hx, if_pos (And.intro hst ho), doorbellCarried]

/-- The message changes the fabric alone, so the ring's entry count is as it was. -/
theorem ringEntries_doorbellCarried (w : Work) (agent r : Nat) :
    ringEntries (doorbellCarried w agent r) r = ringEntries w r := by
  obtain ⟨v, hv⟩ := carryOn_dev w .doorbell agent (schedAgent w r) false (dieOfPort (agent / 2))
    (vorirRoute (dieOfPort (agent / 2)) (.tun (ringDie w r)) none)
  rw [doorbellCarried, carryPlain, hv]
  rfl

section
variable {w : Work} {agent r t : Nat} {x : Ring} (hx : getRing w r = some x) (hst : ringState w r ≠ 0)
  (ho : ringOwner w r = agent)
include hx hst ho

theorem tailWrite_within (h : diff32 t x.head ≤ ringEntries w r ∧ diff32 t x.tail ≤ ringEntries w r) :
    tailWrite w agent r t = putRing (doorbellCarried w agent r) r { x with tail := t } := by
  rw [tailWrite, doorbell_owner hx hst ho, ringEntries_doorbellCarried, if_pos h]

theorem tailWrite_outside (h : ¬(diff32 t x.head ≤ ringEntries w r ∧ diff32 t x.tail ≤ ringEntries w r)) :
    tailWrite w agent r t = putRing (doorbellCarried w agent r) r { x with ignored := satAdd 16 x.ignored 1 } := by
  rw [tailWrite, doorbell_owner hx hst ho, ringEntries_doorbellCarried, if_neg h]

end

theorem execTail_open {s : State} {agent : Nat} (hp : poolRuns s.env = true) (hreach : ldReachable s.w agent = true)
    (hopen : ldOpen s.w agent = true) (r : Nat) (v : Word) :
    execTail agent r v s = .next { s with w := tailWrite s.w agent r v.toNat } := by
  rw [execTail, traffic_run hp, doorIn_open hreach hopen]

end Sys2Proof.Machine

open Sys2Proof Sys2Proof.Machine

/-- Settles O43: one lemma for each command on a disabled and on an enabled ring (R301, R309), and one for each side of the
bound on TAIL (R303). -/
theorem ringWritesAreChecked : Obligations.RingWritesAreChecked := by
  refine ⟨fun r v s hp => ⟨fun hc hr => ?_, fun hc => ?_⟩, fun agent r v x s hp hreach hopen hx hst ho => ?_⟩
  · exact ⟨execRingEnable_disabled v hp hc hr, ringCheck_code .., rfl, rfl, rfl, rfl, rfl, rfl,
      execRingDisable_disabled v hp hc hr⟩
  · exact ⟨execRingEnable_enabled v hp hc, execRingDisable_enabled v hp hc⟩
  · have run : exec (.tail agent r v) s = .next { s with w := tailWrite s.w agent r v.toNat } :=
      execTail_open hp hreach hopen r v
    refine ⟨fun h => ?_, fun h => ?_⟩
    · rw [run, tailWrite_within hx hst ho h]
      rfl
    · rw [run, tailWrite_outside hx hst ho h]
      rfl
end

section
/-! PROOFS. A write of SPARGE.ZERO_CTL and its check (17 R648). -/

namespace Sys2Proof.Machine

/-- The rate is that of the word written, whatever go is set to. -/
@[simp] theorem bitsOf_setBitAt_go (v : Nat) (b : Bool) : bitsOf (setBitAt v 31 b) 15 0 = bitsOf v 15 0 := by
  simp only [setBitAt, putBits, bitsOf]
  omega

/-- Without go a write sets the rate and runs no check. -/
theorem zeroCtlWrite_rate (e : Env) (w : Work) (v : Nat) :
    zeroCtlWrite e w (setBitAt v 31 false) = w.setReg aSpargeZeroCtl (bitsOf v 15 0) := by
  simp only [zeroCtlWrite, bitAt_setBitAt_enable, bitsOf_setBitAt_go, Bool.not_false, if_true]

/-- With go it sets the rate and the code of the check, and code 0 makes the zeroing due. -/
theorem zeroCtlWrite_go (e : Env) (w : Work) (v : Nat) :
    zeroCtlWrite e w (setBitAt v 31 true) =
      (let w := w.setReg aSpargeZeroCtl (bitsOf v 15 0)
       let p := w.fld aSpargeZeroParcel 15 0
       let code := zeroCheck e w p (bitsOf v 15 0)
       let w' := w.setFld aSpargeStatus 15 0 code
       if code = 0 then w'.queue (.zero p) else w') := by
  simp only [zeroCtlWrite, bitAt_setBitAt_enable, bitsOf_setBitAt_go, Bool.not_true, Bool.false_eq_true, if_false]

/-- Every check of a go ends in a code of Table 17-6; 0x0115 is a code of the Cadastre commit. -/
theorem zeroCheck_code (e : Env) (w : Work) (p rate : Nat) :
    zeroCheck e w p rate ∈ [0, 0x0112, 0x0113, 0x0114] := by
  unfold zeroCheck
  dsimp only
  split_ifs
  all_goals simp

theorem zeroCheck_not_scrubbing (e : Env) {w : Work} {p : Nat} (h : eState (cadEntry w p) ≠ stScrubbing) (rate : Nat) :
    zeroCheck e w p rate = 0x0112 :=
  if_pos (.inl h)

theorem execSpargeZero_run (v : Word) {s : State} (hp : poolRuns s.env = true) :
    execSpargeZero v s = .next { s with w := zeroCtlWrite s.env s.w (setBitAt v.toNat 31 true) } :=
  traffic_run hp

theorem execSpargeRateWrite_run (v : Word) {s : State} (hp : poolRuns s.env = true) :
    execSpargeRateWrite v s = .next { s with w := zeroCtlWrite s.env s.w (setBitAt v.toNat 31 false) } :=
  traffic_run hp

end Sys2Proof.Machine

open Sys2Proof Sys2Proof.Machine

/-- Settles O34: the write with go and without it, and the codes that the check can end in (R648). -/
theorem zeroingIsChecked : Obligations.ZeroingIsChecked := by
  intro v s hp w p code w'
  refine ⟨?_, zeroCheck_code .., fun h => zeroCheck_not_scrubbing _ h _, ?_⟩
  · exact (execSpargeZero_run v hp).trans (by rw [zeroCtlWrite_go])
  · exact (execSpargeRateWrite_run v hp).trans (by rw [zeroCtlWrite_rate])
end

section
/-! PROOFS. What every command keeps of fuses, clock, mode and JTAG state (02 R36, R54, R58; 17 R629, R633, R660; 18 R671). -/

namespace Sys2Proof.Machine

/-! ### Setting a bit -/

theorem setBitAt_set {v i : Nat} (h : bitAt v i = true) : setBitAt v i true = v := by
  have hbit : v / 2 ^ i % 2 = 1 := by simpa [bitAt] using h
  have hle : 2 ^ i ≤ v := Nat.le_of_not_lt fun hlt => by simp [Nat.div_eq_of_lt hlt] at hbit
  simp only [setBitAt, putBits, bitsOf, Nat.add_sub_cancel_left, pow_one, hbit, if_true, Nat.one_mod, one_mul]
  omega

theorem setBitAt_clear {v i : Nat} (h : bitAt v i = false) : setBitAt v i true = 2 ^ i + v := by
  have hbit : v / 2 ^ i % 2 = 0 := by
    have : v / 2 ^ i % 2 ≠ 1 := by simpa [bitAt] using h
    omega
  simp only [setBitAt, putBits, bitsOf, Nat.add_sub_cancel_left, pow_one, hbit, if_true, Nat.one_mod, one_mul, zero_mul]
  omega

/-- Adding a bit that is not set carries into no other bit. -/
theorem bitAt_two_pow_add {v i k : Nat} (hi : bitAt v i = false) (hk : bitAt v k = true) : bitAt (2 ^ i + v) k = true := by
  have hbit : v / 2 ^ i % 2 ≠ 1 := by simpa [bitAt] using hi
  rcases Nat.lt_trichotomy k i with hlt | rfl | hgt
  · have := Nat.testBit_two_pow_add_gt hlt v
    simp only [Nat.testBit_eq_decide_div_mod_eq, decide_eq_decide] at this
    simpa [bitAt, this] using hk
  · exact absurd hk (by simp [hi])
  · obtain ⟨d, rfl⟩ := Nat.exists_eq_add_of_lt hgt
    have hsame : (2 ^ i + v) / 2 ^ (i + d + 1) = v / 2 ^ (i + d + 1) := by
      rw [show i + d + 1 = i + (1 + d) by omega, Nat.pow_add, Nat.pow_add, ← Nat.div_div_eq_div_mul,
        ← Nat.div_div_eq_div_mul, ← Nat.div_div_eq_div_mul, ← Nat.div_div_eq_div_mul,
        Nat.add_div_left v (Nat.two_pow_pos i)]
      congr 1
      omega
    simpa only [bitAt, hsame] using hk

/-- A blown bit stays blown when another is blown. -/
theorem bitAt_setBitAt_mono {v k : Nat} (h : bitAt v k = true) (i : Nat) : bitAt (setBitAt v i true) k = true := by
  cases hi : bitAt v i with
  | true => rwa [setBitAt_set hi]
  | false => rw [setBitAt_clear hi]; exact bitAt_two_pow_add hi h

/-! ### The relation that every step keeps -/

/-- Fuses are blown and never restored (17 R629, R633, R660). -/
def Sec.FusesKept (x y : Sec) : Prop :=
  (∀ k, bitAt x.retired k = true → bitAt y.retired k = true) ∧ x.rollback ≤ y.rollback ∧
    (x.provisioned = true → y.provisioned = true)

/-- `Env.legal` but for READY. -/
def Env.clockLegal (e : Env) : Prop :=
  e.clk.frame < 2 ^ 48 ∧ periodLegal e.periodCode ∧ e.syncMode ≠ 3 ∧
  (∀ p, e.merPending = some p → periodLegal p.period ∧ p.mode < 3 ∧ p.src < 4) ∧
  (∀ n c d, e.clk.follow = some (n, c, d) → periodLegal c) ∧ e.jtag ≤ 8

/-- READY is high in service alone (20 Table 20-4). -/
def Env.readyLegal (e : Env) : Prop := e.rst.ready = true → e.rst.phase = .service

theorem Env.legal_iff (e : Env) : e.legal ↔ e.clockLegal ∧ e.readyLegal := by
  simp only [Env.legal, Env.clockLegal, Env.readyLegal]
  tauto

/-- Fuses stay blown, and the clock, mode and JTAG state stays legal. -/
structure Lasts (e e' : Env) : Prop where
  fuses : e.sec.FusesKept e'.sec
  clock : e.clockLegal → e'.clockLegal

/-- The same with READY. -/
structure Sound (e e' : Env) : Prop extends Lasts e e' where
  ready : e.readyLegal → e'.readyLegal

theorem Sec.FusesKept.refl (x : Sec) : x.FusesKept x := ⟨fun _ h => h, le_rfl, fun h => h⟩

theorem Sec.FusesKept.trans {x y z : Sec} (h : x.FusesKept y) (g : y.FusesKept z) : x.FusesKept z :=
  ⟨fun k a => g.1 k (h.1 k a), h.2.1.trans g.2.1, fun a => g.2.2 (h.2.2 a)⟩

theorem Lasts.refl (e : Env) : Lasts e e := ⟨.refl _, fun h => h⟩

theorem Lasts.trans {a b c : Env} (h : Lasts a b) (g : Lasts b c) : Lasts a c :=
  ⟨h.fuses.trans g.fuses, fun x => g.clock (h.clock x)⟩

theorem Sound.refl (e : Env) : Sound e e := ⟨.refl e, fun h => h⟩

theorem Sound.trans {a b c : Env} (h : Sound a b) (g : Sound b c) : Sound a c :=
  ⟨h.toLasts.trans g.toLasts, fun x => g.ready (h.ready x)⟩

/-- The parts of `Env` that `Lasts` speaks of. -/
def Env.lasting (e : Env) :
    (Nat × Nat × Bool) × Nat × Option (Nat × Nat × Nat) × Nat × Option MerPending × Nat :=
  ((e.sec.retired, e.sec.rollback, e.sec.provisioned), e.clk.frame, e.clk.follow, e.merWord, e.merPending, e.jtag)

/-- A change that touches none of them keeps everything. -/
theorem Lasts.of_lasting {e e' : Env} (h : e'.lasting = e.lasting) : Lasts e e' := by
  simp only [Env.lasting, Prod.mk.injEq] at h
  obtain ⟨⟨hret, hroll, hprov⟩, hframe, hfollow, hword, hpend, hjtag⟩ := h
  refine ⟨⟨fun k => by rw [hret]; exact id, hroll.ge, by rw [hprov]; exact id⟩, fun hc => ?_⟩
  simpa only [Env.clockLegal, Env.periodCode, Env.syncMode, hframe, hfollow, hword, hpend, hjtag] using hc

theorem Sound.of_lasting {e e' : Env} (h : e'.lasting = e.lasting) (hr : e.readyLegal → e'.readyLegal) : Sound e e' :=
  ⟨.of_lasting h, hr⟩

/-- The same where READY and the phase stay as well. -/
theorem Lasts.sound {e e' : Env} (h : Lasts e e') (hr : e'.rst.ready = e.rst.ready) (hp : e'.rst.phase = e.rst.phase) :
    Sound e e' :=
  ⟨h, by simp only [Env.readyLegal, hr, hp]; exact id⟩

/-- Fuses blown in the root of trust, the rest as it was. -/
theorem Sound.of_sec {e : Env} {x : Sec} (h : e.sec.FusesKept x) : Sound e { e with sec := x } := ⟨⟨h, fun c => c⟩, fun r => r⟩

theorem Sound.ite {b : Prop} [Decidable b] {e : Env} {x y : Env × Work} (hx : Sound e x.1) (hy : Sound e y.1) :
    Sound e (if b then x else y).1 := by
  split
  · exact hx
  · exact hy

theorem Lasts.foldl {α β : Type} (g : β → Env) {f : β → α → β} (h : ∀ b a, Lasts (g b) (g (f b a))) (l : List α) (b : β) :
    Lasts (g b) (g (l.foldl f b)) :=
  List.foldlRecOn (motive := fun x => Lasts (g b) (g x)) l f (.refl _) fun x hx a _ => hx.trans (h x a)

theorem Sound.foldl {α β : Type} (g : β → Env) {f : β → α → β} (h : ∀ b a, Sound (g b) (g (f b a))) (l : List α) (b : β) :
    Sound (g b) (g (l.foldl f b)) :=
  List.foldlRecOn (motive := fun x => Sound (g b) (g x)) l f (.refl _) fun x hx a _ => hx.trans (h x a)

/-! ### Resets begin -/

theorem startEntry_sound (e : Env) (cause t : Nat) : Sound e (startEntry e cause t) := by
  have hlow : Sound e { e.setBackup 5 cause with rst := { (e.setBackup 5 cause).rst with
      phase := .entry, t0 := t, step := 0, bound := (e.setBackup 5 cause).clk.frame + 2, ready := false, stopped := false } } :=
    .of_lasting rfl fun _ h => nomatch h
  unfold startEntry
  split
  · exact .refl e
  · exact .refl e
  · exact .refl e
  · exact hlow

theorem setBackup_sound (e : Env) (k v : Nat) : Sound e (e.setBackup k v) := .of_lasting rfl id

theorem at_sound (e : Env) (t : Nat) : Sound e (e.at t) := .of_lasting rfl id

theorem startEntry_at_sound (e : Env) (cause t : Nat) : Sound e (startEntry (e.at t) cause t) :=
  (at_sound e t).trans (startEntry_sound ..)

/-! ### Votes -/

theorem Tri.vote_repaired {α : Type} [DecidableEq α] (t : Tri α) : t.repaired.vote = t.vote := by
  unfold Tri.repaired
  split
  · next h => rw [h]; simp [Tri.vote]
  · rfl

theorem voteWord_vote {α : Type} [DecidableEq α] (e : Env) (w : Work) (t : Tri α) (k : Nat) :
    (voteWord e w t k).1.vote = t.vote := by
  unfold voteWord
  split
  · exact t.vote_repaired
  · rfl

@[simp] theorem voteAll_sec (e : Env) (w : Work) : (voteAll e w).1.sec = e.sec :=
  foldl_keeps (fun x : Env × Work × List Nat => x.1.sec) (h := fun _ _ => by rfl) e.backup (e, w, [])

@[simp] theorem voteAll_jtag (e : Env) (w : Work) : (voteAll e w).1.jtag = e.jtag :=
  foldl_keeps (fun x : Env × Work × List Nat => x.1.jtag) (h := fun _ _ => by rfl) e.backup (e, w, [])

@[simp] theorem voteAll_rst (e : Env) (w : Work) : (voteAll e w).1.rst = e.rst :=
  foldl_keeps (fun x : Env × Work × List Nat => x.1.rst) (h := fun _ _ => by rfl) e.backup (e, w, [])

theorem voteAll_live (e : Env) (w : Work) : (voteAll e w).1.mer.live.vote = e.mer.live.vote :=
  (voteWord_vote ..).trans
    (foldl_keeps (fun x : Env × Work × List Nat => x.1.mer.live.vote) (h := fun _ _ => by rfl) e.backup (e, w, []))

theorem voteAll_pending (e : Env) (w : Work) : (voteAll e w).1.mer.pending.vote = e.mer.pending.vote :=
  (voteWord_vote ..).trans
    (foldl_keeps (fun x : Env × Work × List Nat => x.1.mer.pending.vote) (h := fun _ _ => by rfl) e.backup (e, w, []))

theorem voteAll_lasting (e : Env) (w : Work) : (voteAll e w).1.lasting = e.lasting := by
  simp only [Env.lasting, Env.merWord, Env.merPending, voteAll_sec, voteAll_jtag, voteAll_clk, voteAll_live, voteAll_pending]

theorem voteAll_sound (e : Env) (w : Work) : Sound e (voteAll e w).1 :=
  .of_lasting (voteAll_lasting e w) (by simp only [Env.readyLegal, voteAll_rst]; exact id)

theorem voteStep_sound (e : Env) (w : Work) : Sound e (voteStep e w).1 := by
  unfold voteStep
  refine (voteAll_sound e w).trans ?_
  dsimp only
  split
  · exact .of_lasting rfl id
  · refine Sound.trans ?_ (startEntry_sound ..)
    exact .of_lasting rfl id

/-! ### The Meridian configuration -/

theorem periodLegal_lt {p : Nat} (h : periodLegal p) : p < 256 := by
  unfold periodLegal at h
  omega

/-- A word written as the live one, with a legal period and mode. -/
theorem Lasts.of_live {e e' : Env} (hf : e.sec.FusesKept e'.sec) (hc : e.clockLegal → e'.clk.frame < 2 ^ 48 ∧
    periodLegal e'.periodCode ∧ e'.syncMode ≠ 3 ∧ (e'.merPending = none ∨ e'.merPending = e.merPending) ∧
    (e'.clk.follow = none ∨ e'.clk.follow = e.clk.follow) ∧ e'.jtag = e.jtag) : Lasts e e' := by
  refine ⟨hf, fun h => ?_⟩
  obtain ⟨hframe, hperiod, hmode, hpend, hfollow, hjtag⟩ := hc h
  obtain ⟨-, -, -, hp, hfl, hj⟩ := h
  refine ⟨hframe, hperiod, hmode, ?_, ?_, hjtag ▸ hj⟩
  · rcases hpend with hn | hn <;> simp [hn]
    exact hp
  · rcases hfollow with hn | hn <;> simp [hn]
    exact hfl

/-- The fields of a legal commit once it is live (Table 2-3). -/
theorem merPack_legal {e : Env} {p : MerPending} (h : e.mer.live = triOf (merPack p)) (hp : periodLegal p.period)
    (hm : p.mode < 3) (hs : p.src < 4) : periodLegal e.periodCode ∧ e.syncMode ≠ 3 := by
  obtain ⟨hperiod, -, hmode⟩ := live_of_merPack h (periodLegal_lt hp) hs (by omega)
  exact ⟨hperiod ▸ hp, by omega⟩

theorem applyMeridian_sound (e : Env) (w : Work) : Sound e (applyMeridian e w).1 := by
  unfold applyMeridian
  dsimp only
  split
  · exact .refl e
  next p hp =>
    refine .ite (.refl e) (.ite ?_ ?_)
    · refine Lasts.sound (.of_live (.refl _) fun h => ?_) rfl rfl
      obtain ⟨hframe, hperiod, hmode, -⟩ := h
      exact ⟨hframe, hperiod, hmode, .inl (merPending_setMerPending e none), .inr rfl, rfl⟩
    · refine Lasts.sound (.of_live (.refl _) fun h => ?_) rfl rfl
      obtain ⟨hframe, -, -, hpend, -⟩ := h
      obtain ⟨hperiod, hmode, hsrc⟩ := hpend p hp
      obtain ⟨hcode, hsync⟩ := merPack_legal (e := { e with mer := { e.mer with live := triOf (merPack p) } }) rfl hperiod hmode hsrc
      exact ⟨hframe, hcode, hsync, .inl (merPending_setMerPending e none), .inr rfl, rfl⟩

/-- The period that the source's flit gives replaces the live one (R54). -/
theorem live_period {e : Env} {v c : Nat} (h : e.mer.live = triOf (putBits v 7 0 c)) (hc : periodLegal c) :
    periodLegal e.periodCode ∧ e.syncMode = bitsOf v 27 26 := by
  simp only [periodLegal, Env.periodCode, Env.syncMode, merWord_of_triOf h, putBits, bitsOf] at hc ⊢
  omega

theorem adopt_sound (e : Env) (w : Work) (own : Nat) : Sound e (adopt e w own).1 := by
  unfold adopt
  split
  · exact .refl e
  next n code d hf =>
    have key : Sound e (if code = e.periodCode then { e with clk := { e.clk with follow := none } }
        else { e with clk := { e.clk with follow := none }, mer := { e.mer with live := triOf (putBits e.merWord 7 0 code) } }) := by
      split
      · refine Lasts.sound (.of_live (.refl _) fun h => ?_) rfl rfl
        obtain ⟨hframe, hperiod, hmode, -⟩ := h
        exact ⟨hframe, hperiod, hmode, .inr rfl, .inl rfl, rfl⟩
      · refine Lasts.sound (.of_live (.refl _) fun h => ?_) rfl rfl
        obtain ⟨hframe, -, hmode, -, hfollow, -⟩ := h
        have hcode := hfollow n code d hf
        obtain ⟨hp, hm⟩ := live_period (e := { e with mer := { e.mer with live := triOf (putBits e.merWord 7 0 code) } }) rfl hcode
        exact ⟨hframe, hp, fun h3 => hmode (hm.symm.trans h3), .inr rfl, .inl rfl, rfl⟩
    exact .ite key key

theorem advance_sound (e : Env) (w : Work) : Sound e (advance e w) := by
  refine Lasts.sound (.of_live (.refl _) fun h => ?_) rfl rfl
  obtain ⟨-, hperiod, hmode, -⟩ := h
  refine ⟨?_, hperiod, hmode, .inr rfl, .inr rfl, rfl⟩
  unfold advance
  dsimp only
  split <;> exact Nat.mod_lt _ (by decide)

theorem applySource_sound (e : Env) (w : Work) : Sound e (applySource e w).1 := by
  unfold applySource
  split
  · exact .refl e
  · exact .ite (.of_lasting rfl id) (.of_lasting rfl id)

theorem slew_sound (e : Env) (w : Work) : Sound e (slew e w).1 := .ite (.refl e) (.of_lasting rfl id)

theorem schedule_sound (e : Env) (w : Work) : Sound e (schedule e w).1 := by
  unfold schedule slewNext
  exact Sound.trans (b := { e with clk := { e.clk with next := e.clk.start + e.period } }) (.of_lasting rfl id)
    (.ite (slew_sound ..) (.refl _))

/-- A flit with an illegal period is not taken (log 100). -/
theorem timingFlit_sound (e : Env) (w : Work) (frame code src boundary : Nat) :
    Sound e (timingFlit e w frame code src boundary).1 := by
  have key (x : Env) (c : Clk) (hx : Sound e x) (hlo : 0x04 ≤ code) (hhi : code ≤ 0x80) (hf : c.frame = x.clk.frame) (n : Nat)
      (hc : c.follow = some (n, code, src)) : Sound e { x with clk := c } := by
    refine hx.trans (Lasts.sound ⟨.refl _, fun h => ?_⟩ rfl rfl)
    obtain ⟨hframe, hperiod, hmode, hpend, -, hjtag⟩ := h
    refine ⟨hf ▸ hframe, hperiod, hmode, hpend, fun m p d hm => ?_, hjtag⟩
    cases hc.symm.trans hm
    exact ⟨hlo, hhi⟩
  unfold timingFlit
  split
  · exact .refl e
  next h =>
    simp only [Bool.or_eq_true, decide_eq_true_eq, not_or, Nat.not_lt] at h
    obtain ⟨⟨-, hlo⟩, hhi⟩ := h
    refine key _ _ ?_ hlo hhi rfl _ rfl
    split
    · exact .of_lasting rfl id
    · exact .refl e

/-- Only a commit with code 0x0000 is pending, and it is legal (Table 2-4). -/
theorem merCheck_zero {e : Env} {w : Work} {p : MerPending} {again : Bool} (h : merCheck e w p again = 0) :
    periodLegal p.period ∧ p.mode ≠ 3 := by
  unfold merCheck at h
  unfold periodLegal
  split_ifs at h with h₁ h₂ h₃
  omega

theorem merStaged_fields (w : Work) : (merStaged w).mode < 4 ∧ (merStaged w).src < 4 := by
  simp only [merStaged, Work.fld, bitsOf]
  omega

theorem merCtlWrite_sound (e : Env) (w : Work) (v : Nat) : Sound e (merCtlWrite e w v).1 := by
  unfold merCtlWrite
  refine .ite (.refl e) ?_
  dsimp only
  split
  next hz =>
    refine Lasts.sound ⟨.refl _, fun h => ?_⟩ rfl rfl
    obtain ⟨hframe, hperiod, hmode, -, hfollow, hjtag⟩ := h
    refine ⟨hframe, hperiod, hmode, fun p hp => ?_, hfollow, hjtag⟩
    rw [merPending_setMerPending] at hp
    cases hp
    obtain ⟨hlegal, h3⟩ := merCheck_zero hz
    obtain ⟨h4, hsrc⟩ := merStaged_fields (w.setMask aMeridianCtl 0x0F0000FF v)
    exact ⟨hlegal, by omega, hsrc⟩
  · exact .refl e

end Sys2Proof.Machine
end

section
/-! PROOFS. What every command keeps of fuses, clock, mode and JTAG state: resets, boundaries, and command by command. -/

namespace Sys2Proof.Machine

/-! ### Resets and bring-up -/

theorem failTrials_kept (x : Sec) : x.FusesKept (failTrials x) := .refl x

theorem resetDatum_sound (e : Env) (w : Work) : Sound e (resetDatum e w).1 := by
  unfold resetDatum
  split
  · exact startEntry_sound ..
  · exact .of_lasting rfl id
  · exact .of_lasting rfl id
  · exact .refl e

theorem sramErrs_sound (errs : List SramErr) (x : Env × Work) : Sound x.1 (errs.foldl sramErr x).1 := by
  refine Sound.foldl (fun y : Env × Work => y.1) (fun y a => ?_) errs x
  unfold sramErr
  refine .ite ?_ (.refl _)
  unfold sramLost sramAct
  cases a.word
  case datumMem => exact resetDatum_sound ..
  all_goals exact .refl _

theorem endDebug_sound (e : Env) (w : Work) (sel : Nat × DebugSession → Bool) : Sound e (endDebug e w sel).1 := .of_lasting rfl id

theorem endSessions_sound (e : Env) (w : Work) (as : List Nat) : Sound e (endSessions e w as).1 := .of_lasting rfl id

/-- The main domain held in reset: READY is low (18 Table 18-3 step 7). -/
theorem holdMain_sound (e : Env) (w : Work) (self : Bool) : Sound e (holdMain e w self).1 := by
  refine ⟨.of_live (.refl _) fun h => ?_, fun _ h => nomatch h⟩
  obtain ⟨hframe, hperiod, hmode, -⟩ := h
  exact ⟨hframe, hperiod, hmode, .inr rfl, .inl rfl, rfl⟩

/-- The reset value of the live word is legal (Table 2-3). -/
theorem live_reset {e : Env} (h : e.mer.live = triOf 0x10) : periodLegal e.periodCode ∧ e.syncMode ≠ 3 := by
  simp [periodLegal, Env.periodCode, Env.syncMode, merWord_of_triOf h, bitsOf]

theorem defaultMer_lasts (e : Env) (k : Nat) : Lasts e (defaultMer e k) := by
  unfold defaultMer
  split
  · refine .of_live (.refl _) fun h => ?_
    obtain ⟨hperiod, hmode⟩ := live_reset (e := { e with mer := { e.mer with live := triOf 0x10 } }) rfl
    exact ⟨h.1, hperiod, hmode, .inr rfl, .inr rfl, rfl⟩
  · split
    · refine .of_live (.refl _) fun h => ?_
      obtain ⟨hframe, hperiod, hmode, -⟩ := h
      exact ⟨hframe, hperiod, hmode, .inl (merPending_setMerPending e none), .inr rfl, rfl⟩
    · exact .refl e

theorem defaultMer_rst (e : Env) (k : Nat) : (defaultMer e k).rst = e.rst := by
  unfold defaultMer
  repeat' split
  all_goals rfl

theorem defaultWord_lasting (e : Env) (k : Nat) : (defaultWord e k).lasting = e.lasting := by
  unfold defaultWord
  repeat' split
  all_goals rfl

theorem defaultWord_rst (e : Env) (k : Nat) : (defaultWord e k).rst = e.rst := by
  unfold defaultWord
  repeat' split
  all_goals rfl

/-- `Lasts`, and READY as it was. -/
def LastsLow (e x : Env) : Prop := Lasts e x ∧ x.rst.ready = e.rst.ready

theorem LastsLow.step {e x y : Env} (h : LastsLow e x) (hl : y.lasting = x.lasting) (hr : y.rst.ready = x.rst.ready) :
    LastsLow e y :=
  ⟨h.1.trans (.of_lasting hl), hr.trans h.2⟩

/-- The state in which bring-up looks for its image: words voted, the Meridian at its defaults where there is no majority. -/
theorem LastsLow.voted {e x : Env} (h : LastsLow e x) (w : Work) :
    LastsLow e ((voteAll x w).2.2.foldl defaultMer (voteAll x w).1) := by
  refine ⟨(h.1.trans (.of_lasting (voteAll_lasting x w))).trans (Lasts.foldl id defaultMer_lasts _ _), ?_⟩
  rw [foldl_keeps Env.rst defaultMer_rst, voteAll_rst, h.2]

theorem LastsLow.words {e x : Env} (h : LastsLow e x) (ks : List Nat) : LastsLow e (ks.foldl defaultWord x) :=
  h.step (foldl_keeps Env.lasting defaultWord_lasting ks x) (congrArg Rst.ready (foldl_keeps Env.rst defaultWord_rst ks x))

theorem LastsLow.ite {b : Prop} [Decidable b] {e : Env} {x y : Env × Work} (hx : LastsLow e x.1) (hy : LastsLow e y.1) :
    LastsLow e (if b then x else y).1 := by
  split
  · exact hx
  · exact hy

/-- The image that boots is running, and the count of starts is kept in word 3 (R669, R673). -/
theorem LastsLow.booted {e x : Env} (h : LastsLow e x) (v b : Nat) :
    LastsLow e { x.setBackup 3 v with sec := { x.sec with running := b } } :=
  h.step rfl rfl

theorem LastsLow.rst {e x : Env} (h : LastsLow e x) {r : Rst} (hr : r.ready = x.rst.ready) : LastsLow e { x with rst := r } :=
  h.step rfl hr

/-- The instant of a bring-up, with the trials failed (17 R631). -/
def startedAt (e : Env) (t : Nat) : Env :=
  { e.at t with sec := failTrials e.sec, rst := { e.rst with s := t, kick := t } }

/-- Bring-up leaves READY as it is, in each of its ends. -/
theorem bringup_lasts (e : Env) (w : Work) (t : Nat) (romOk : Bool) : LastsLow e (bringup e w t romOk).1 := by
  have hvoted := LastsLow.voted (e := e) (x := startedAt e t) ⟨.of_lasting rfl, rfl⟩ w
  unfold bringup
  dsimp only
  generalize hx : List.foldl defaultMer _ _ = x
  have hlow : LastsLow e x := hx ▸ hvoted
  clear hx hvoted
  split
  · exact hlow.step rfl rfl
  · refine .ite (hlow.step rfl rfl) (.ite ?_ (.ite ?_ ?_))
    all_goals exact ((hlow.booted _ _).words _).step rfl rfl

/-- Before bring-up READY is low, so that it is low in recovery mode as well. -/
theorem bringup_sound {e : Env} (h : mayBegin e = true) (w : Work) (t : Nat) (romOk : Bool) : Sound e (bringup e w t romOk).1 := by
  obtain ⟨hlasts, hready⟩ := bringup_lasts e w t romOk
  refine ⟨hlasts, fun hr hy => ?_⟩
  have hs : e.rst.phase = .service := hr (hready ▸ hy)
  simp [mayBegin, hs] at h

theorem resumeChannel_sound (e : Env) (x : Env × Work) (c : Nat) (badRec badMask : Bool) :
    Sound x.1 (resumeChannel e x c badRec badMask).1 := by
  have hset (v : Nat) : Sound x.1 (setNotOnline x.1 v) := .of_lasting rfl id
  unfold resumeChannel
  dsimp only
  split
  · exact .refl _
  · split
    · exact hset _
    · split
      · exact hset _
      · split
        · exact .refl _
        · split <;> exact .refl _

theorem Sound.of_rst (e : Env) {r : Rst} (hr : r.ready = e.rst.ready) (hp : r.phase = e.rst.phase) :
    Sound e { e with rst := r } :=
  Lasts.sound (.of_lasting rfl) hr hp

/-- The same with fuses blown. -/
theorem Sound.of_sec_rst {e : Env} {x : Sec} {r : Rst} (h : e.sec.FusesKept x) (hr : r.ready = e.rst.ready)
    (hp : r.phase = e.rst.phase) : Sound e { e with sec := x, rst := r } :=
  (Sound.of_sec h).trans (.of_rst _ hr hp)

theorem leaveRefresh_sound (e : Env) (w : Work) (bad : List Nat) (drifts : List (Nat × Nat × Drift)) :
    Sound e (leaveRefresh e w bad drifts).1 := by
  unfold leaveRefresh
  refine (Sound.foldl (fun x : Env × Work => x.1) (fun x c => resumeChannel_sound e x c (bad.contains c) (bad.contains (128 + c)))
    (List.range 80) (e, _)).trans (.of_rst _ rfl rfl)

end Sys2Proof.Machine
end

section
/-! PROOFS. Fuses, clock, mode and JTAG state under every command (17 R629, R633, R660; 02 R36; 20 Table 20-4). -/

namespace Sys2Proof.Machine

/-! ### Boundaries -/

theorem completeSnap_sound (e : Env) (w : Work) : Sound e (completeSnap e w).1 := by
  unfold completeSnap
  split
  · exact .refl e
  · exact .of_lasting rfl id

theorem abandonSnap_sound (e : Env) (w : Work) : Sound e (abandonSnap e w).1 := by
  unfold abandonSnap
  split
  · exact .refl e
  · exact .of_lasting rfl id

theorem startSnap_sound (e : Env) (w : Work) (body : Nat) (iv : AMap Nat × AMap Nat) : Sound e (startSnap e w body iv).1 :=
  .ite (.refl e) (.of_lasting rfl id)

theorem commitWords_sound (e : Env) (w : Work) : Sound e (commitWords e w) := by
  unfold commitWords
  split
  · exact .refl e
  · refine Sound.trans (b := setNotOnline e _) (.of_lasting rfl id) (Sound.foldl id (fun x k => ?_) _ _)
    exact (setBackup_sound ..).trans (setBackup_sound ..)

theorem endFrame_sound (e : Env) (w : Work) (errs : List SramErr) : Sound e (endFrame e w errs).1 :=
  .ite ((completeSnap_sound e w).trans (sramErrs_sound errs _)) (.refl e)

theorem afterVote_sound (e : Env) (w : Work) (f : Nat) : Sound e (afterVote e w f).1 := by
  unfold afterVote
  refine .ite ((applyMeridian_sound ..).trans (schedule_sound ..)) (.ite ?_ ?_)
  · exact ((applyMeridian_sound ..).trans (applySource_sound ..)).trans (schedule_sound ..)
  · refine Sound.trans ?_ (startSnap_sound ..)
    obtain ⟨w₁, w₂, w₃, w₄, h⟩ := poolSteps_env e (showHosts (closeAccounts e ((List.range 3).foldl (commitMark e) w))) f
    rw [h]
    exact (((applyMeridian_sound e w₁).trans (applySource_sound _ w₂)).trans (commitWords_sound _ w₃)).trans (schedule_sound _ w₄)

theorem boundary_sound (e : Env) (w : Work) (errs : List SramErr) : Sound e (boundary e w errs).1 := by
  by_cases h : e.rst.phase = .off
  · rw [boundary_off h]
    exact .refl e
  · rw [boundary_eq h]
    exact (((endFrame_sound e w errs).trans (advance_sound ..)).trans (adopt_sound ..)).trans
      ((voteStep_sound ..).trans (afterVote_sound ..))

theorem syncEdge_sound (e : Env) (w : Work) (t highNs : Nat) : Sound e (syncEdge e w t highNs).2.1 := by
  unfold syncEdge
  dsimp only
  split
  · exact .refl e
  · split
    · exact .of_lasting rfl id
    · exact .of_lasting rfl id
    · exact .of_lasting rfl id
    · split
      · refine Sound.trans ?_ (slew_sound ..)
        exact .of_lasting rfl id
      · exact .of_lasting rfl id

/-! ### Commands of the forms that may change `Env` -/

theorem whole_sound {s t : State} {f : Env → Work → Env × Work} (h : whole s f = .next t)
    (hf : ∀ e w, Sound e (f e w).1) : Sound s.env t.env := by
  rw [whole_next h]
  exact hf s.env s.w

theorem manage_sound {e : Env} {w : Work} {m : Mgr} {may : Bool} {x : Env × Work} (hx : Sound e x.1) :
    Sound e (manage e w m may x).1 :=
  .ite (.refl e) (.ite hx (.refl e))

theorem bmcOnly_sound {s t : State} {m : Mgr} {f : Env → Work → Env × Work} (h : bmcOnly m s f = .next t)
    (hf : ∀ e w, Sound e (f e w).1) : Sound s.env t.env :=
  whole_sound h fun e w => manage_sound (hf e w)

theorem bmcOrHost_sound {s t : State} {m : Mgr} {f : Env → Work → Env × Work} (h : bmcOrHost m s f = .next t)
    (hf : ∀ e w, Sound e (f e w).1) : Sound s.env t.env :=
  whole_sound h fun e w => manage_sound (hf e w)

theorem peerWhole_sound {s t : State} {m : Hdr} {f : Env → Work → Env × Work} (h : peerWhole m s f = .next t)
    (hf : ∀ e w, Sound e (f e w).1) : Sound s.env t.env := by
  refine whole_sound h fun e w => .ite (.refl e) ?_
  split
  · exact .refl e
  · exact hf e w

theorem driveLow_sound {k : Nat} {ok : Bool} {s t : State} (h : driveLow k ok s = .next t) : Sound s.env t.env :=
  whole_sound h fun e _ => .ite (.refl e) ((startEntry_sound e 2 e.clk.now).trans (.of_rst _ rfl rfl))

/-- The instructions that the model numbers are 1 to 8, and one that is not decoded is BYPASS (17 R660). -/
theorem jtagInstr_sound {s t : State} {op : Nat} {always : Bool} (h : jtagInstr s op always = .next t) (hop : op ≤ 8) :
    Sound s.env t.env := by
  refine whole_sound h fun e w => ⟨⟨.refl _, fun c => ?_⟩, id⟩
  obtain ⟨hframe, hperiod, hmode, hpend, hfollow, -⟩ := c
  refine ⟨hframe, hperiod, hmode, hpend, hfollow, ?_⟩
  dsimp only
  split
  · exact hop
  · decide

/-- An answer changes at most the root of trust. -/
theorem answer_sound (e : Env) (w : Work) (m : Mgr) (ok : Bool) {sec : Sec} (data : List Nat) (h : e.sec.FusesKept sec) :
    Sound e (answer e w m ok sec data).1 :=
  .ite (.of_sec h) (.refl e)

theorem setBank_kept (x : Sec) (b : Nat) (k : Bank2) : x.FusesKept (setBank x b k) := by
  unfold setBank
  split <;> exact .refl x

/-! ### The commands of security -/

/-- The image of the running bank may raise the counter, and nothing lowers it (R633). -/
theorem execSvnAdvance_sound {m : Mgr} {s t : State} (h : execSvnAdvance m s = .next t) : Sound s.env t.env :=
  bmcOnly_sound h fun e w => answer_sound e w m _ _ ⟨fun _ => id, Nat.le_max_left .., id⟩

/-- A retirement adds a bit (R629). -/
theorem execSlotRetire_sound {m : Mgr} {item slot : Nat} {s t : State} (h : execSlotRetire m item slot s = .next t) :
    Sound s.env t.env :=
  bmcOnly_sound h fun e w => answer_sound e w m _ _ ⟨fun _ hk => bitAt_setBitAt_mono hk _, le_rfl, id⟩

theorem execFwHandover_sound {s t : State} (h : execFwHandover s = .next t) : Sound s.env t.env := by
  refine whole_sound h fun e w => ?_
  split
  next f _ =>
    refine .ite (.refl e) (.ite ?_ (.of_sec (.refl _)))
    exact .of_sec_rst (setBank_kept { e.sec with handover := none } (1 - e.sec.running) _) rfl rfl
  · exact .refl e

theorem execFwBankSwitch_sound {s t : State} (h : execFwBankSwitch s = .next t) : Sound s.env t.env :=
  whole_sound h fun e _ => .ite (.of_lasting rfl id) (.refl e)

theorem execGetMeasurements_sound {m : Mgr} {index : Nat} {s t : State} (h : execGetMeasurements m index s = .next t) :
    Sound s.env t.env := by
  refine bmcOrHost_sound h fun e w => ?_
  split <;> exact .refl e

theorem execKeyExchange_sound {m : Mgr} {auth : Bool} {anchor : Nat} {s t : State}
    (h : execKeyExchange m auth anchor s = .next t) : Sound s.env t.env :=
  bmcOrHost_sound h fun e w => .ite (.refl e) (answer_sound e w m _ _ (.refl _))

theorem execKeyUpdate_sound {m : Mgr} {session : Nat} {s t : State} (h : execKeyUpdate m session s = .next t) :
    Sound s.env t.env := by
  refine bmcOrHost_sound h fun e w => ?_
  split
  · exact answer_sound e w m _ _ (.refl _)
  · exact .refl e

theorem execEnrolArm_sound {m : Mgr} {host : Bool} {pos hash : Nat} {s t : State}
    (h : execEnrolArm m host pos hash s = .next t) : Sound s.env t.env :=
  bmcOnly_sound h fun e w => .ite (answer_sound e w m _ _ (.refl _)) (answer_sound e w m _ _ (.refl _))

theorem execTransferFw_sound {m : Mgr} {img : FwImage} {s t : State} (h : execTransferFw m img s = .next t) :
    Sound s.env t.env :=
  bmcOnly_sound h fun e w => answer_sound e w m _ _ (setBank_kept ..)

theorem execFwCommit_sound {m : Mgr} {s t : State} (h : execFwCommit m s = .next t) : Sound s.env t.env :=
  bmcOnly_sound h fun e w => answer_sound e w m _ _ (setBank_kept ..)

theorem execDebugOpen_sound {m : Mgr} {tok : DebugToken} {s t : State} (h : execDebugOpen m tok s = .next t) :
    Sound s.env t.env :=
  bmcOrHost_sound h fun e _ => .ite (answer_sound e _ m _ _ (.refl _)) (.refl e)

theorem execDebugClose_sound {m : Mgr} {session : Nat} {s t : State} (h : execDebugClose m session s = .next t) :
    Sound s.env t.env :=
  bmcOrHost_sound h fun e w => .ite (endDebug_sound e w _) (.refl e)

theorem execRecoveryExit_sound {m : Mgr} {s t : State} (h : execRecoveryExit m s = .next t) : Sound s.env t.env :=
  bmcOnly_sound h fun e _ =>
    .ite (((setBackup_sound e 3 0).trans (setBackup_sound _ 5 0)).trans (startEntry_sound ..)) (.refl e)

/-! ### Peers -/

theorem memberOk_sound {e x : Env} {d hash : Nat} (h : memberOk e d hash = some x) : Sound e x := by
  unfold memberOk at h
  split at h
  · split at h <;> cases h
    exact .refl e
  · split at h <;> cases h
    exact .of_sec (.refl _)

theorem datumIn_sound (e : Env) (w : Work) (d step : Nat) (ok : Bool) (hash key sig : Nat) :
    Sound e (datumIn e w d step ok hash key sig).1 := by
  unfold datumIn
  refine .ite (.refl e) (.ite ?_ (.ite ?_ (.ite (.refl e) (.refl e))))
  · split
    · next h => exact memberOk_sound h
    · exact .refl e
  · split
    · next h =>
      split at h
      · exact memberOk_sound h
      · cases h
    · exact .refl e

theorem identIn_sound (e : Env) (w : Work) (n : Nat) (x : IdentInfo) : Sound e (identIn e w n x).1 :=
  .ite (.ite (startEntry_sound ..) (.refl e)) (.ite (.refl e) (.refl e))

theorem execTiming_sound {n : Nat} {f : FlitHdr} {frame code src offset arrival : Nat} {s t : State}
    (h : execTiming n f frame code src offset arrival s = .next t) : Sound s.env t.env :=
  whole_sound h fun e _ => .ite (.refl e) (.ite (timingFlit_sound ..) (.refl e))

theorem execIdent_sound {n : Nat} {f : FlitHdr} {x : IdentInfo} {s t : State} (h : execIdent n f x s = .next t) :
    Sound s.env t.env :=
  whole_sound h fun e _ => .ite (.refl e) (.ite (identIn_sound ..) (.refl e))

/-! ### Register writes -/

theorem warmWrite_sound (e : Env) (v : Nat) : Sound e (warmWrite e v) := by
  unfold warmWrite
  split
  · exact startEntry_sound ..
  · exact .refl e

theorem swresetWrite_sound (e : Env) (w : Work) (v : Nat) : Sound e (swresetWrite e w v).1 :=
  .ite (resetDatum_sound ..) (.refl e)

theorem wdtWrite_sound (e : Env) (w : Work) (v : Nat) : Sound e (wdtWrite e w v).1 := by
  unfold wdtWrite
  dsimp only
  split
  · exact .of_rst e rfl rfl
  · exact .refl e

theorem datumWrite_sound {e : Env} {w : Work} {addr v : Nat} {x : Env × Work} (h : datumWrite e w addr v = some x) :
    Sound e x.1 := by
  unfold datumWrite at h
  split at h
  · cases h; exact merCtlWrite_sound ..
  split at h
  · cases h; exact warmWrite_sound ..
  split at h
  · cases h; exact swresetWrite_sound ..
  split at h
  · cases h; exact wdtWrite_sound ..
  · obtain ⟨n, -, rfl⟩ := Option.map_eq_some_iff.mp h
    dsimp only
    split
    · exact setBackup_sound ..
    · exact .refl e

theorem regWrite_sound (e : Env) (w : Work) (addr v : Nat) : Sound e (regWrite e w addr v).1 := by
  unfold regWrite
  refine .ite (.refl e) ?_
  split
  · next h => exact datumWrite_sound h
  · split <;> exact .refl e

theorem execRegisterWrite_sound {agent addr : Nat} {v : Word} {s t : State} (h : execRegisterWrite agent addr v s = .next t) :
    Sound s.env t.env :=
  whole_sound h fun e _ => .ite (.ite (regWrite_sound ..) (.refl e)) (.ite (.refl e) (.refl e))

/-- An edge that ends the frame is followed by its boundary (02 R48). -/
theorem execMeridianSyncEdge_sound {x y : Nat} {s t : State} (h : execMeridianSyncEdge x y s = .next t) : Sound s.env t.env := by
  refine whole_sound h fun e w => ?_
  have hedge := syncEdge_sound e w x y
  split
  next e' w' heq =>
    rw [heq] at hedge
    exact hedge.trans (boundary_sound e' w' [])
  next e' w' heq =>
    rw [heq] at hedge
    exact hedge

/-! ### Resets and power -/

theorem execRstNReset_sound {x : Nat} {s t : State} (h : execRstNReset x s = .next t) : Sound s.env t.env :=
  whole_sound h fun e _ => .ite (.refl e) ((startEntry_at_sound e 2 x).trans (.of_rst _ rfl rfl))

theorem execRstNRelease_sound {x : Nat} {s t : State} (h : execRstNRelease x s = .next t) : Sound s.env t.env :=
  whole_sound h fun e _ => .ite ((at_sound e x).trans (.of_rst _ rfl rfl)) (.refl e)

theorem execWarmResetEntry_sound {s t : State} (h : execWarmResetEntry s = .next t) : Sound s.env t.env :=
  whole_sound h fun e w => .ite (Sound.trans (endDebug_sound e w fun _ => true) (.of_rst _ rfl rfl)) (.refl e)

theorem execWarmResetDrainEnd_sound {s t : State} (h : execWarmResetDrainEnd s = .next t) : Sound s.env t.env :=
  whole_sound h fun e _ => .ite (.of_rst e rfl rfl) (.refl e)

theorem execFlushTimeout_sound {s t : State} (h : execFlushTimeout s = .next t) : Sound s.env t.env :=
  whole_sound h fun e _ => .ite (.of_rst e rfl rfl) (.refl e)

theorem execNearCacheFlushDone_sound {x : Nat} {s t : State} (h : execNearCacheFlushDone x s = .next t) : Sound s.env t.env := by
  refine whole_sound h fun e w => .ite (.refl e) ?_
  dsimp only
  refine Sound.trans (Sound.trans ?_ (setBackup_sound ..)) (holdMain_sound ..)
  split
  · exact (at_sound e x).trans (.of_rst _ rfl rfl)
  · exact at_sound e x

theorem execVinCollapse_sound {mv : Nat} {s t : State} (h : execVinCollapse mv s = .next t) : Sound s.env t.env := by
  refine whole_sound h fun e _ => .ite (Sound.trans ?_ (holdMain_sound ..)) (.refl e)
  exact (startEntry_sound e 2 e.clk.now).trans (.of_rst _ rfl rfl)

/-- A state of the standby domain right after its power has come or gone: the reset values of clock, mode and READY. -/
theorem Sound.fresh {e e' : Env} (hs : e.sec.FusesKept e'.sec) (hf : e'.clk.frame = 0) (hn : e'.clk.follow = none)
    (hm : e'.mer = {}) (hr : e'.rst.ready = false) (hj : e'.jtag = 1 ∨ e'.jtag = e.jtag) : Sound e e' := by
  have hlive : e'.mer.live = triOf 0x10 := by rw [hm]; rfl
  obtain ⟨hperiod, hmode⟩ := live_reset hlive
  refine ⟨⟨hs, fun h => ⟨by omega, hperiod, hmode, fun p hp => ?_, fun n c d hd => ?_, ?_⟩⟩, fun _ hy => ?_⟩
  · simp [Env.merPending, hm, Tri.vote] at hp
  · simp [hn] at hd
  · obtain ⟨-, -, -, -, -, hjtag⟩ := h
    omega
  · simp [hr] at hy

theorem execStandbyLost_sound {x : Nat} {s t : State} (h : execStandbyLost x s = .next t) : Sound s.env t.env :=
  whole_sound h fun e _ => .ite (.fresh (.refl _) rfl rfl rfl rfl (.inl rfl)) (.refl e)

theorem execPowerOn_sound {x board : Nat} {s t : State} (h : execPowerOn x board s = .next t) : Sound s.env t.env :=
  whole_sound h fun e _ => .ite (.refl e) (.fresh (.refl _) rfl rfl rfl rfl (.inr rfl))

theorem execBringupStart_sound {x : Nat} {romOk : Bool} {s t : State} (h : execBringupStart x romOk s = .next t) :
    Sound s.env t.env := by
  refine whole_sound h fun e w => ?_
  split
  next hb => exact bringup_sound hb w x romOk
  · exact .refl e

/-- Service begins: READY is high, and the provisioned fuse is blown (18 R671, 17 R660). -/
theorem execResetDone_sound {x : Nat} {s t : State} (h : execResetDone x s = .next t) : Sound s.env t.env := by
  refine whole_sound h fun e w => .ite ?_ (.refl e)
  refine ((at_sound e x).trans (setBackup_sound _ 3 0)).trans ⟨⟨⟨fun _ => id, le_rfl, fun _ => rfl⟩, id⟩, fun _ _ => rfl⟩

theorem execStartTimeout_sound {x : Nat} {s t : State} (h : execStartTimeout x s = .next t) : Sound s.env t.env :=
  whole_sound h fun e _ => .ite (startEntry_at_sound e 6 x) (.refl e)

theorem execDatumWatchdog_sound {x : Nat} {s t : State} (h : execDatumWatchdog x s = .next t) : Sound s.env t.env :=
  whole_sound h fun e _ => .ite ((at_sound e x).trans (resetDatum_sound ..)) (.refl e)

/-! ### All commands -/

/-- Every command keeps the fuses blown, and the clock, mode, READY and JTAG state legal. -/
theorem exec_sound {c : Instr} {s t : State} (h : exec c s = .next t) : Sound s.env t.env := by
  cases hc : c.ownsEnv with
  | false =>
    obtain ⟨w, hw⟩ := exec_of_not_ownsEnv hc s
    cases hw.symm.trans h
    exact .refl _
  | true =>
    cases c with
    | frameBoundary errs => exact whole_sound (show execFrameBoundary errs s = _ from h) fun _ _ => boundary_sound ..
    | meridianSyncEdge x y => exact execMeridianSyncEdge_sound h
    | powerOn _ _ => exact execPowerOn_sound h
    | standbyLost _ => exact execStandbyLost_sound h
    | snapshotAbandon => exact whole_sound (show execSnapshotAbandon s = _ from h) fun e _ => .ite (abandonSnap_sound ..) (.refl e)
    | planLatch r => exact whole_sound (show execPlanLatch r s = _ from h) fun e _ => .ite (completeSnap_sound ..) (.refl e)
    | timingFlitReceive _ _ _ _ => exact whole_sound (show execTimingFlitReceive _ _ _ _ s = _ from h) fun e _ => .ite (timingFlit_sound ..) (.refl e)
    | meridianSourceLost => exact whole_sound (show execMeridianSourceLost s = _ from h) fun e _ => .ite (.of_lasting rfl id) (.refl e)
    | meridianCommit _ => exact whole_sound (show execMeridianCommit _ s = _ from h) fun e _ => .ite (merCtlWrite_sound ..) (.refl e)
    | timing _ _ _ _ _ _ _ => exact execTiming_sound h
    | ident _ _ _ => exact execIdent_sound h
    | lost _ _ => exact peerWhole_sound (show execLost _ _ s = _ from h) fun e _ => .ite (startEntry_sound ..) (.refl e)
    | datum _ _ _ _ => exact peerWhole_sound (show execDatum _ _ _ _ s = _ from h) fun _ _ => datumIn_sound ..
    | isolationReset => exact whole_sound (show execIsolationReset s = _ from h) fun e _ => .ite (startEntry_sound ..) (.refl e)
    | cxlHotReset _ _ => exact whole_sound (show execCxlHotReset _ _ s = _ from h) fun e _ => .ite (endSessions_sound ..) (.refl e)
    | cxlReset _ => exact whole_sound (show execCxlReset _ s = _ from h) fun e _ => .ite (endSessions_sound ..) (.refl e)
    | getMeasurements _ _ => exact execGetMeasurements_sound h
    | keyUpdate _ _ => exact execKeyUpdate_sound h
    | getCertificate _ _ => exact bmcOrHost_sound (show execGetCertificate _ _ s = _ from h) fun e _ => .refl e
    | challenge _ _ => exact bmcOrHost_sound (show execChallenge _ _ s = _ from h) fun e _ => .refl e
    | setCertificate _ => exact bmcOrHost_sound (show execSetCertificate _ s = _ from h) fun e _ => .refl e
    | getCsr _ => exact bmcOrHost_sound (show execGetCsr _ s = _ from h) fun e _ => .refl e
    | getFwInfo _ => exact bmcOrHost_sound (show execGetFwInfo _ s = _ from h) fun e _ => .refl e
    | heartbeat _ _ => exact bmcOrHost_sound (show execHeartbeat _ _ s = _ from h) fun e _ => .refl e
    | keyExchange _ _ _ => exact execKeyExchange_sound h
    | debugChallenge m => exact bmcOrHost_sound (show execDebugChallenge m s = _ from h) fun e _ => answer_sound e _ m _ _ (.refl _)
    | debugOpen _ _ => exact execDebugOpen_sound h
    | debugClose _ _ => exact execDebugClose_sound h
    | debugSessionExpiry _ => exact whole_sound (show execDebugSessionExpiry _ s = _ from h) fun _ _ => endDebug_sound ..
    | transferFw _ _ => exact execTransferFw_sound h
    | activateFw m _ => exact bmcOnly_sound (show execActivateFw m _ s = _ from h) fun e w => answer_sound e w m _ _ (.refl _)
    | fwCommit _ => exact execFwCommit_sound h
    | svnAdvance _ => exact execSvnAdvance_sound h
    | slotRetire _ _ _ => exact execSlotRetire_sound h
    | debugAuthority m _ => exact bmcOnly_sound (show execDebugAuthority m _ s = _ from h) fun e w => answer_sound e w m _ _ (.refl _)
    | enrolArm _ _ _ _ => exact execEnrolArm_sound h
    | backupWrite _ _ _ => exact bmcOnly_sound (show execBackupWrite _ _ _ s = _ from h) fun e _ => .ite (setBackup_sound ..) (.refl e)
    | recoveryExit _ => exact execRecoveryExit_sound h
    | fwHandover => exact execFwHandover_sound h
    | fwBankSwitch => exact execFwBankSwitch_sound h
    | idcode => exact jtagInstr_sound (show execIdcode s = _ from h) (by decide)
    | bypass x => exact jtagInstr_sound (show execBypass x s = _ from h) (by decide)
    | samplePreload => exact jtagInstr_sound (show execSamplePreload s = _ from h) (by decide)
    | extest => exact jtagInstr_sound (show execExtest s = _ from h) (by decide)
    | clamp => exact jtagInstr_sound (show execClamp s = _ from h) (by decide)
    | highz => exact jtagInstr_sound (show execHighz s = _ from h) (by decide)
    | extestPulse => exact jtagInstr_sound (show execExtestPulse s = _ from h) (by decide)
    | extestTrain => exact jtagInstr_sound (show execExtestTrain s = _ from h) (by decide)
    | vinLow _ _ => exact driveLow_sound (show execVinLow _ _ s = _ from h)
    | junctionTrip _ _ => exact driveLow_sound (show execJunctionTrip _ _ s = _ from h)
    | refclkLoss _ => exact driveLow_sound (show execRefclkLoss _ s = _ from h)
    | rstNReset _ => exact execRstNReset_sound h
    | rstNGlitch _ => exact whole_sound (show execRstNGlitch _ s = _ from h) fun e _ => .ite (.refl e) (.refl e)
    | rstNRelease _ => exact execRstNRelease_sound h
    | warmResetEntry => exact execWarmResetEntry_sound h
    | warmResetDrainEnd => exact execWarmResetDrainEnd_sound h
    | flushTimeout => exact execFlushTimeout_sound h
    | nearCacheFlushDone _ => exact execNearCacheFlushDone_sound h
    | vinCollapse _ => exact execVinCollapse_sound h
    | resetWarm _ => exact whole_sound (show execResetWarm _ s = _ from h) fun e _ => .ite (warmWrite_sound ..) (.refl e)
    | bringupStart _ _ => exact execBringupStart_sound h
    | selfRefreshExit _ => exact whole_sound (show execSelfRefreshExit _ s = _ from h) fun e _ => .ite (leaveRefresh_sound ..) (.refl e)
    | resetDone _ => exact execResetDone_sound h
    | startTimeout _ => exact execStartTimeout_sound h
    | datumSwreset _ => exact whole_sound (show execDatumSwreset _ s = _ from h) fun e _ => .ite (swresetWrite_sound ..) (.refl e)
    | datumWatchdog _ => exact execDatumWatchdog_sound h
    | wdtKick _ => exact whole_sound (show execWdtKick _ s = _ from h) fun e _ => .ite (wdtWrite_sound ..) (.refl e)
    | registerWrite _ _ _ => exact execRegisterWrite_sound h
    | _ => cases hc

/-- A step runs one command, or nothing (log 12). -/
theorem step_sound {s t : State} (h : step s = .next t) : Sound s.env t.env := by
  unfold step at h
  split at h
  · cases h
    exact .refl _
  · next c rest _ => exact exec_sound (s := { s with pending := rest }) h

end Sys2Proof.Machine

open Sys2Proof Sys2Proof.Machine

/-- Settles O3: the part of `step_sound` about fuses (R629, R633, R660). -/
theorem fusesAreBlownOnce : Obligations.FusesAreBlownOnce := fun _ _ h => (step_sound h).fuses

/-- Settles O4: the parts of `step_sound` about the clock and READY. -/
theorem legalClockIsKept : Obligations.LegalClockIsKept := by
  intro s t hs h
  obtain ⟨hclock, hready⟩ := (Env.legal_iff _).mp hs
  have hsound := step_sound h
  exact (Env.legal_iff _).mpr ⟨hsound.clock hclock, hsound.ready hready⟩
end

section
/-! PROOFS. One step of the block: every command completes, and traffic is silent while the main domain is held (20 R707). -/

namespace Sys2Proof.Machine

/-- Every command answers a next state with the queue as it was: each is `traffic`, `serve` or `whole`, which build such a state. -/
theorem exec_completes (c : Instr) (s : State) : ∃ e w, exec c s = .next { s with env := e, w := w } := by
  cases c <;> exact ⟨_, _, rfl⟩

/-- A command of traffic leaves `Env` alone, and does nothing while the main domain does not run: the pool runs only while it does. -/
theorem exec_silent {c : Instr} (hc : c.ownsEnv = false) (s : State) :
    ∃ w, exec c s = .next { s with w := w } ∧ (mainRuns s.env = false → w = s.w) := by
  cases c <;> cases hc <;> exact ⟨_, rfl, fun h => if_neg (by simp [poolRuns, h])⟩

/-- Byte `i` of a number that was written, least significant byte at the lowest address (00 R2). -/
theorem memRd_memPut (m : List Host.Cell) (a n v i : Nat) (h : i < n) :
    memRd (memPut m a n v) (a + i) = BitVec.ofNat 8 (v / 256 ^ i) := by
  induction n generalizing m a v i with
  | zero => omega
  | succ k ih =>
    simp only [memPut]
    cases i with
    | zero =>
      rw [memRd_memPut_ne _ _ _ _ _ (by omega)]
      simpa using memRd_memWr_same m a (BitVec.ofNat 8 v)
    | succ j =>
      rw [show a + (j + 1) = a + 1 + j by omega, ih _ _ _ _ (by omega), Nat.div_div_eq_div_mul, ← Nat.pow_succ']

/-- A word of `n` bytes is below `256 ^ n`. -/
theorem toNat_lt_bytes {n : Nat} (d : BitVec (8 * n)) : d.toNat < 256 ^ n := by
  rw [show (256 : Nat) = 2 ^ 8 from rfl, ← Nat.pow_mul]
  exact d.isLt

theorem memLine_memPutLine (m : List Host.Cell) (l : Nat) (d : Line) : memLine (memPutLine m l d) l = d := by
  have hd : d.toNat < 256 ^ 64 := toNat_lt_bytes (n := 64) d
  rw [memLine, memPutLine, memNat_memPut, Nat.mod_eq_of_lt hd, BitVec.ofNat_toNat, BitVec.setWidth_eq]

end Sys2Proof.Machine

open Sys2Proof Sys2Proof.Machine

/-- Settles O1: the two cases of `step`. -/
theorem stepRunsFrontCommand : Obligations.StepRunsFrontCommand := by
  constructor
  · intro c rest s h
    simp only [step, h]
  · intro s h
    simp only [step, h]

/-- Settles O2: `exec_completes`, for the front command of the queue or for none. -/
theorem everyCommandCompletes : Obligations.EveryCommandCompletes := by
  have completes (c : Instr) (s : State) : ∃ t, exec c s = .next t ∧ t.pending = s.pending := by
    obtain ⟨e, w, h⟩ := exec_completes c s
    exact ⟨_, h, rfl⟩
  refine ⟨completes, fun s => ?_⟩
  cases hq : s.pending with
  | nil => exact ⟨s, stepRunsFrontCommand.2 s hq, by simp [hq]⟩
  | cons c rest =>
    obtain ⟨t, ht, hp⟩ := completes c { s with pending := rest }
    exact ⟨t, (stepRunsFrontCommand.1 c rest s hq).trans ht, hp⟩

/-- Settles O6: `exec_silent` for the command. -/
theorem trafficLeavesTheClockAlone : Obligations.TrafficLeavesTheClockAlone := by
  intro c s t hc h
  obtain ⟨w, hw, hsilent⟩ := exec_silent hc s
  cases hw.symm.trans h
  exact ⟨rfl, fun hm => by rw [hsilent hm]⟩

/-- Settles O7: the bytes that a write lists, those it leaves, and the canonical form (R2). -/
theorem memoryWriteReadsBack : Obligations.MemoryWriteReadsBack := by
  intro m l d
  exact ⟨memLine_memPutLine m l d, fun i hi => memRd_memPut m _ 64 _ i hi, fun a ha => memRd_memPut_ne m _ 64 _ a ha,
    memPutLine_wf m l d⟩

/-- Settles O5: the reset values of the tables, and lists that list nothing (R35, R36, R685; logs 3 and 5). -/
theorem resetState : Obligations.ResetState := by
  refine ⟨(Env.legal_iff _).mpr ⟨?_, fun h => nomatch h⟩, rfl, rfl, fun a => ⟨rfl, rfl⟩, rfl, rfl, rfl, fun a => rfl⟩
  obtain ⟨hperiod, hmode⟩ := live_reset (e := State.reset.env) rfl
  have hpend : State.reset.env.merPending = none := rfl
  have hfollow : State.reset.env.clk.follow = none := rfl
  exact ⟨by decide, hperiod, hmode, by simp [hpend], by simp [hfollow], by decide⟩
end

section
/-! PROOFS. The operations of a tile (08 Table 8-6, R319-R339; 07 R263-R274). -/

namespace Sys2Proof.Machine

/-- The commands of Table 8-6 with their operations are runs of a tile. -/
theorem mashOp_run {s : State} {ring n idx op : Nat} {c : Instr} (hp : poolRuns s.env = true)
    (hc : (op, c) ∈ [(opCopy, .copy ring n idx), (opFill, .fill ring n idx), (opConvert, .convert ring n idx),
      (opReduce, .reduce ring n idx), (opAxpby, .axpby ring n idx), (opDot, .dot ring n idx), (opGather, .gatherSum ring n idx),
      (opScatter, .scatterAdd ring n idx), (opStep, .optStep ring n idx), (opQuantize, .quantize ring n idx),
      (opDequant, .dequant ring n idx), (opChecksum, .checksum ring n idx), (opCow, .cowPage ring n idx),
      (opRecipe, .recipe ring n idx)]) :
    exec c s = .next { s with w := runTile s.env s.w ring n idx op } := by
  simp only [List.mem_cons, Prod.mk.injEq, List.not_mem_nil, or_false] at hc
  rcases hc with ⟨rfl, rfl⟩ | ⟨rfl, rfl⟩ | ⟨rfl, rfl⟩ | ⟨rfl, rfl⟩ | ⟨rfl, rfl⟩ | ⟨rfl, rfl⟩ | ⟨rfl, rfl⟩ | ⟨rfl, rfl⟩ | ⟨rfl, rfl⟩ |
    ⟨rfl, rfl⟩ | ⟨rfl, rfl⟩ | ⟨rfl, rfl⟩ | ⟨rfl, rfl⟩ | ⟨rfl, rfl⟩
  all_goals exact traffic_run (f := fun e w => runTile e w ring n idx _) hp

section
variable {e : Env} {w : Work} {ring n idx op : Nat} {t : Tile} {d : Desc} (ht : getTile w ring n idx = some t)
  (hd : getDesc w ring n = some d)
include ht hd

/-- A tile of another operation, or one whose inputs are not all there, is left alone. -/
theorem runTile_idle (e : Env) (h : dOp d.img ≠ op ∨ t.st ≠ .reading ∨ readsIn w t = false) : runTile e w ring n idx op = w := by
  simp only [runTile, ht, hd]
  exact if_pos (by tauto)

/-- A tile whose inputs are staged holds the results of its operation, with its cycles charged and poison noted. -/
theorem runTile_staged (e : Env) (hop : dOp d.img = op) (hst : t.st = .reading) (hph : t.ph = 2) (hr : readsIn w t = true)
    (hb : blockHeld w 1 t.tun = false) (ht' : d.tainted = false) :
    runTile e w ring n idx op =
      (let o := runOp w d t (tileMem w t)
       let p := (tileMem w t).any (·.2.poison)
       let w' := putDesc (chargeCycles (putTile w { t with st := .computed, writes := o.writes, part := o.part, poison := p }) d t)
         { d with poisoned := d.poisoned || p || (op == opRecipe && d.act.getD 7 0 == 1) }
       if p then consumed e w' d t else w') := by
  simp only [runTile, ht, hd, hop, hst, hph, hr, hb, ht', ne_eq, not_true_eq_false, or_self, if_false, Bool.true_eq_false,
    Bool.false_eq_true]

end

/-! ### FILL (R320) -/

/-- `k` copies of the pattern. -/
theorem fillVal_succ (pat k : Nat) : fillVal pat (8 * (k + 1)) = 2 ^ 64 * fillVal pat (8 * k) + pat := by
  simp only [fillVal, Nat.mul_div_cancel_left _ (show 0 < 8 by decide), List.range_succ, List.foldl_append, List.foldl_cons,
    List.foldl_nil]

/-- Every 64 bits of a filled run are the pattern. -/
theorem fillVal_word {pat k j : Nat} (hp : pat < 2 ^ 64) (hj : j < k) : fillVal pat (8 * k) / 2 ^ (64 * j) % 2 ^ 64 = pat := by
  induction k generalizing j with
  | zero => omega
  | succ k ih =>
    rw [fillVal_succ]
    cases j with
    | zero => omega
    | succ j =>
      rw [show 64 * (j + 1) = 64 + 64 * j by omega, Nat.pow_add, ← Nat.div_div_eq_div_mul,
        show (2 ^ 64 * fillVal pat (8 * k) + pat) / 2 ^ 64 = fillVal pat (8 * k) by omega]
      exact ih (by omega)

end Sys2Proof.Machine

open Sys2Proof Sys2Proof.Machine

/-- Settles O27: `runTile_staged` and `runTile_idle` for the fourteen operations, and `fillVal_word` for FILL. -/
theorem mashOperationsRun : Obligations.MashOperationsRun := by
  refine ⟨fun ring n idx op c t d s hp hc ht hd => ⟨?_, fun h => ?_⟩, fun pat k j hpat hj => fillVal_word hpat hj⟩
  · intro hop hst hph hr hb htaint m x o p w
    have ho : runOp s.w d t m = o := by
      subst hop
      rfl
    rw [mashOp_run hp hc, runTile_staged ht hd s.env hop hst hph hr hb htaint]
    dsimp only
    rw [ho]
  · rw [mashOp_run hp hc, runTile_idle ht hd s.env h]
end

section
/-! PROOFS. The calendar shaper (11 R446-R448). -/

namespace Sys2Proof.Machine

/-! ### Admitting lines of one host (R446) -/

theorem spacing_nonneg (g : Nat) : 0 ≤ spacing g := Int.natCast_nonneg _

@[simp] theorem lineGrant_admitLine (w : Work) (a b : Nat) (x : Int) : lineGrant (admitLine w a x) b = lineGrant w b := rfl

@[simp] theorem burstOf_admitLine (w : Work) (a b : Nat) (x : Int) : burstOf (admitLine w a x) b = burstOf w b := rfl

theorem admittedOf_admitLine_same (w : Work) (a : Nat) (x : Int) : admittedOf (admitLine w a x) a = admittedOf w a + 1 := by
  simp [admitLine, admittedOf, mgetD, mget_mset_same]

theorem admittedOf_admitLine_ne (w : Work) {a b : Nat} (x : Int) (h : b ≠ a) :
    admittedOf (admitLine w a x) b = admittedOf w b := by
  simp [admitLine, admittedOf, mgetD, mget_mset_ne _ _ _ _ h]

theorem eligOf_admitLine_same {w : Work} {a : Nat} (x : Int) (h : lineGrant w a ≠ 0) :
    eligOf (admitLine w a x) a =
      max (eligOf w a) (x - Int.ofNat (burstOf w a) * spacing (lineGrant w a)) + spacing (lineGrant w a) := by
  simp [admitLine, eligOf, clampElig, h, mgetD, mget_mset_same]

theorem eligOf_admitLine_ne (w : Work) {a b : Nat} (x : Int) (h : b ≠ a) : eligOf (admitLine w a x) b = eligOf w b := by
  unfold admitLine eligOf mgetD
  dsimp only
  split
  · rfl
  · rw [mget_mset_ne _ _ _ _ h]

/-- `n` lines of host `a` in one slot. -/
def admitRun (w : Work) (a : Nat) (x : Int) (n : Nat) : Work := (List.range n).foldl (fun w _ => admitLine w a x) w

theorem admitRun_succ (w : Work) (a : Nat) (x : Int) (n : Nat) : admitRun w a x (n + 1) = admitLine (admitRun w a x n) a x := by
  simp only [admitRun, List.range_succ, List.foldl_append, List.foldl_cons, List.foldl_nil]

/-- A run of lines leaves what the shaper reads of a host other than its count and eligible time. -/
theorem admitRun_frame (w : Work) (a : Nat) (x : Int) (n b : Nat) :
    lineGrant (admitRun w a x n) b = lineGrant w b ∧ burstOf (admitRun w a x n) b = burstOf w b := by
  induction n with
  | zero => exact ⟨rfl, rfl⟩
  | succ n ih => simpa only [admitRun_succ, lineGrant_admitLine, burstOf_admitLine] using ih

theorem admittedOf_admitRun_same (w : Work) (a : Nat) (x : Int) (n : Nat) :
    admittedOf (admitRun w a x n) a = admittedOf w a + n := by
  induction n with
  | zero => rfl
  | succ n ih => rw [admitRun_succ, admittedOf_admitLine_same, ih]; rfl

/-- After the first line the eligible time is past the burst allowance, so each line adds one spacing. -/
theorem eligOf_admitRun_same {w : Work} {a : Nat} (x : Int) (h : lineGrant w a ≠ 0) (n : Nat) :
    eligOf (admitRun w a x (n + 1)) a =
      max (eligOf w a) (x - Int.ofNat (burstOf w a) * spacing (lineGrant w a)) + (n + 1 : Nat) * spacing (lineGrant w a) := by
  induction n with
  | zero => rw [admitRun_succ, admitRun, List.range_zero, List.foldl_nil, eligOf_admitLine_same x h, Nat.zero_add, Nat.cast_one,
      one_mul]
  | succ n ih =>
    obtain ⟨hgrant, hburst⟩ := admitRun_frame w a x (n + 1) a
    have hd := spacing_nonneg (lineGrant w a)
    have hn : 0 ≤ ((n + 1 : Nat) : Int) * spacing (lineGrant w a) := by positivity
    rw [admitRun_succ, eligOf_admitLine_same x (hgrant ▸ h), hgrant, hburst, ih,
      max_eq_left ((le_max_right _ _).trans (le_add_of_nonneg_right hn)), Nat.cast_succ (n + 1), add_mul, one_mul, ← add_assoc]

theorem admitRun_ne (w : Work) {a b : Nat} (x : Int) (n : Nat) (h : b ≠ a) :
    eligOf (admitRun w a x n) b = eligOf w b ∧ admittedOf (admitRun w a x n) b = admittedOf w b := by
  induction n with
  | zero => exact ⟨rfl, rfl⟩
  | succ n ih => rwa [admitRun_succ, eligOf_admitLine_ne _ _ h, admittedOf_admitLine_ne _ _ h]

/-! ### A slot of a host die (R447) -/

theorem mem_mset {α : Type} {m : AMap α} {k : Nat} {v : α} {x : Nat × α} (h : x ∈ mset m k v) : x = (k, v) ∨ x ∈ m := by
  induction m with
  | nil => simpa [mset] using h
  | cons y r ih =>
    simp only [mset] at h
    split at h
    · rcases List.mem_cons.mp h with rfl | h
      · exact .inr List.mem_cons_self
      · exact (ih h).imp id (List.mem_cons_of_mem _)
    · split at h
      · exact (List.mem_cons.mp h).imp id (List.mem_cons_of_mem _)
      · exact List.mem_cons.mp h

/-- Every host of the map has its port on the die. -/
def OnDie (die : Nat) (q : AMap Nat) : Prop := ∀ x ∈ q, hostDie x.1 = die

theorem OnDie.mset {die k v : Nat} {q : AMap Nat} (h : OnDie die q) (hk : hostDie k = die) : OnDie die (mset q k v) := by
  intro x hx
  rcases mem_mset hx with rfl | hx
  · exact hk
  · exact h x hx

theorem OnDie.filter {die : Nat} {q : AMap Nat} (h : OnDie die q) (p : Nat × Nat → Bool) : OnDie die (q.filter p) :=
  fun x hx => h x (List.mem_of_mem_filter hx)

theorem firstElig_mem {w : Work} {l : List Nat} {a : Nat} (h : firstElig w l = some a) : a ∈ l := by
  suffices key : ∀ (l : List Nat) (b : Option Nat), l.foldl (fun b a => match b with
      | none => some a
      | some c => if eligOf w a < eligOf w c ∨ (eligOf w a = eligOf w c ∧ a < c) then some a else some c) b = some a →
      b = some a ∨ a ∈ l by
    rcases key l none h with h | h
    · cases h
    · exact h
  intro l
  induction l with
  | nil => exact fun b h => .inl h
  | cons x l ih =>
    intro b h
    rcases ih _ h with hx | hx
    · cases b with
      | none => cases hx; exact .inr List.mem_cons_self
      | some c =>
        dsimp only at hx
        split at hx
        · cases hx; exact .inr List.mem_cons_self
        · exact .inl hx
    · exact .inr (List.mem_cons_of_mem _ hx)

/-- The host whose line is admitted waits. -/
theorem nextAdmitted_mem {w : Work} {t : Int} {q : AMap Nat} {a : Nat} (h : nextAdmitted w t q = some a) : ∃ x ∈ q, x.1 = a := by
  have hwait (p : Nat → Bool) (ha : a ∈ ((q.filter (fun x => x.2 != 0)).map (·.1)).filter p) : ∃ x ∈ q, x.1 = a := by
    obtain ⟨x, hx, rfl⟩ := List.mem_map.mp (List.mem_of_mem_filter ha)
    exact ⟨x, List.mem_of_mem_filter hx, rfl⟩
  unfold nextAdmitted at h
  dsimp only at h
  split at h
  next b hb =>
    cases h
    exact hwait _ (firstElig_mem hb)
  · exact hwait _ (List.mem_of_mem_filter (firstElig_mem h))

/-- Admitting lines changes counts and eligible times, and of hosts that wait alone. -/
theorem admitLines_frame {die : Nat} (t : Int) (room : Nat) (w : Work) (q : AMap Nat) (hq : OnDie die q) :
    (∃ ad el, (admitLines w t q room).2 = { w with qos := { w.qos with admitted := ad, elig := el } }) ∧
    ∀ a, hostDie a ≠ die →
      admittedOf (admitLines w t q room).2 a = admittedOf w a ∧ eligOf (admitLines w t q room).2 a = eligOf w a := by
  induction room generalizing w q with
  | zero => exact ⟨⟨w.qos.admitted, w.qos.elig, rfl⟩, fun _ _ => ⟨rfl, rfl⟩⟩
  | succ k ih =>
    simp only [admitLines]
    split
    · exact ⟨⟨w.qos.admitted, w.qos.elig, rfl⟩, fun _ _ => ⟨rfl, rfl⟩⟩
    next b hb =>
      obtain ⟨x, hx, rfl⟩ := nextAdmitted_mem hb
      obtain ⟨⟨ad, el, h⟩, hother⟩ := ih (admitLine w x.1 t) _ (hq.mset (v := mgetD q x.1 0 - 1) (hq x hx))
      refine ⟨⟨ad, el, h⟩, fun a ha => ?_⟩
      have hne : a ≠ x.1 := fun h => ha (h ▸ hq x hx)
      obtain ⟨had, hel⟩ := hother a ha
      exact ⟨had.trans (admittedOf_admitLine_ne w t hne), hel.trans (eligOf_admitLine_ne w t hne)⟩

/-- The lines that wait at a die, by host. -/
def waitingAt (die : Nat) (queued : List (Nat × Nat)) : AMap Nat :=
  (queued.filter (fun x => decide (x.1 < 64) && hostDie x.1 == die)).foldl (fun m x => mset m x.1 x.2) []

theorem waitingAt_onDie (die : Nat) (queued : List (Nat × Nat)) : OnDie die (waitingAt die queued) := by
  refine List.foldlRecOn (motive := OnDie die) _ _ (fun x hx => nomatch hx) fun m hm x hx => hm.mset ?_
  have := List.of_mem_filter hx
  simp only [Bool.and_eq_true, beq_iff_eq] at this
  exact this.2

/-- A slot of the frame: lines admitted, and what is left noted. -/
theorem calendarSlot_of_lt {slot : Nat} (h : slot < 4096) (e : Env) (w : Work) (die room : Nat) (queued : List (Nat × Nat)) :
    ∃ now, calendarSlot e w die slot room queued =
      (let w' := (admitLines w (Int.ofNat (65536 * slot)) ((waitingAt die queued).filter (fun x => inSlot e w slot x.1)) room).2
       { w' with qos := { w'.qos with queued := now } }) := by
  unfold calendarSlot
  rw [if_neg (Nat.not_le.mpr h)]
  exact ⟨_, rfl⟩

theorem calendarSlot_beyond {slot : Nat} (h : 4096 ≤ slot) (e : Env) (w : Work) (die room : Nat) (queued : List (Nat × Nat)) :
    calendarSlot e w die slot room queued = w :=
  if_pos h

theorem execCalendarSlot_run {s : State} (hp : poolRuns s.env = true) (die slot room : Nat) (queued : List (Nat × Nat)) :
    execCalendarSlot die slot room queued s = .next { s with w := calendarSlot s.env s.w die slot room queued } :=
  traffic_run hp

end Sys2Proof.Machine

open Sys2Proof Sys2Proof.Machine

/-- Settles O52: the run of one host's lines (R446), and the frame of `admitLines` for a slot (R447). -/
theorem calendarSpacesHosts : Obligations.CalendarSpacesHosts := by
  refine ⟨fun w a x n hg => ⟨admittedOf_admitRun_same w a x n, fun hn => ?_, fun b hb => admitRun_ne w x n hb⟩,
    fun die slot room queued s hp => ⟨fun h => ?_, fun h => ?_⟩⟩
  · obtain ⟨m, rfl⟩ := Nat.exists_eq_add_of_lt hn
    exact eligOf_admitRun_same x hg (0 + m)
  · exact (execCalendarSlot_run hp ..).trans (by rw [calendarSlot_beyond h])
  · obtain ⟨now, hnow⟩ := calendarSlot_of_lt h s.env s.w die room queued
    obtain ⟨⟨ad, el, hframe⟩, hother⟩ := admitLines_frame (Int.ofNat (65536 * slot)) room s.w _
      ((waitingAt_onDie die queued).filter (fun x => inSlot s.env s.w slot x.1))
    refine ⟨_, execCalendarSlot_run hp .., rfl, rfl, ?_⟩
    dsimp only
    rw [hnow]
    refine ⟨by rw [hframe], by rw [hframe], by rw [hframe], fun a _ ha => hother a ha, ?_⟩
    rintro rfl
    exact ⟨rfl, rfl⟩
end

section
/-! PROOFS. Host ports, heads and logical devices (12). -/

namespace Sys2Proof.Machine

/-! ### Commands whose change of `Work` is known -/

theorem serve_of {s : State} {f : Env → Work → Work} {w : Work} (h : mainRuns s.env = true) (hf : f s.env s.w = w) :
    serve s f = .next { s with w := w } := by rw [serve_run h, hf]

theorem traffic_of {s : State} {f : Env → Work → Work} {w : Work} (h : poolRuns s.env = true) (hf : f s.env s.w = w) :
    traffic s f = .next { s with w := w } := by rw [traffic_run h, hf]

theorem whole_of {s : State} {f : Env → Work → Env × Work} {x : Env × Work} (hf : f s.env s.w = x) :
    whole s f = .next { s with env := x.1, w := x.2 } := by rw [whole_run, hf]

/-! ### Enable and disable of a port and of a logical device (R465, R468, R493) -/

section
variable {e : Env} {w : Work} {p l v : Nat}

theorem portCtlWrite_disable (hon : w.fld (aPortCtl p) 31 31 = 1) (hv : bitAt v 31 = false) :
    portCtlWrite e w p v = (w.setFld (aPortCtl p) 31 31 0).queue (.portOff p) := by
  simp [portCtlWrite, hon, hv]

/-- A write with the enable bit to a port that is off is checked; a check that passes puts every head into training. -/
theorem portCtlWrite_enable (hoff : w.fld (aPortCtl p) 31 31 = 0) (hdue : Due.portOff p ∉ w.due) (hv : bitAt v 31 = true) :
    portCtlWrite e w p v =
      (let w := w.setMask (aPortCtl p) 0x0FE00000 v
       let code := portCheck e w p
       let w0 := (w.setFld (aPortStatus p) 15 0 0).setFld (aPortCtl p) 31 31 1
       let w1 := { w0 with ports := { w0.ports with modes := mset w0.ports.modes p (w0.fld (aPortCtl p) 27 26) } }
       if code = 0 then startGrace e (trainHeads w1 p) p else w.setFld (aPortStatus p) 15 0 code) := by
  have hon : (w.fld (aPortCtl p) 31 31 == 1) = false := by simp [hoff]
  have hd : w.due.contains (.portOff p) = false := by simpa using hdue
  simp only [portCtlWrite, hon, hd, hv, Bool.not_true, Bool.false_eq_true, if_false]
  by_cases hcode : portCheck e (w.setMask (aPortCtl p) 0x0FE00000 v) p = 0
  · rw [if_pos hcode, hcode, if_neg (not_not_intro rfl)]
  · rw [if_neg hcode, if_pos hcode]

theorem fld_mode_lt (w : Work) (p : Nat) : w.fld (aPortCtl p) 27 26 < 4 := Nat.mod_lt _ (by decide)

theorem portCheck_mode (h : w.fld (aPortCtl p) 27 26 = 3) : portCheck e w p = 0x0401 := by simp [portCheck, h]

theorem portCheck_zero (h : portCheck e w p = 0) : w.fld (aPortCtl p) 27 26 < 3 ∧ portBarred e w p = false := by
  rw [portCheck] at h
  split_ifs at h with hmode hext hbar
  exact ⟨by have := fld_mode_lt w p; omega, by simpa using hbar⟩

theorem ldCtlWrite_enable (hoff : w.fld (aPortLdCtl p l) 31 31 = 0) :
    ldCtlWrite e w p l (2 ^ 31) =
      (let code := ldCheck e w p l
       let w := w.setFld (aPortStatus p) 15 0 code
       if code = 0 then (w.setReg (aPortLdCtl p l) (2 ^ 31)).queue (.ldOn (2 * p + l)) else w) := by
  have hon : w.fld (aPortLdCtl p l) 31 31 ≠ 1 := by omega
  have hbit : (!bitAt (2 ^ 31) 31) = false := rfl
  simp only [ldCtlWrite, if_neg hon, hbit, Bool.false_eq_true, if_false, ne_eq, ite_not]

theorem ldCtlWrite_disable (hon : w.fld (aPortLdCtl p l) 31 31 = 1) :
    ldCtlWrite e w p l 0 = (w.setReg (aPortLdCtl p l) 0).queue (.ldOff (2 * p + l)) := by
  have hbit : bitAt 0 31 = false := rfl
  simp only [ldCtlWrite, if_pos hon, hbit, Bool.false_eq_true, if_false]

theorem ldCheck_eq_zero_iff :
    ldCheck e w p l = 0 ↔ w.fld (aPortCtl p) 27 26 ≠ 3 ∧ w.fld (aPortCtl p) 25 24 ≤ 1 ∧
      ¬(l = 1 ∧ w.fld (aPortCtl p) 27 26 = 0) ∧ portBarred e w p = false ∧ w.livF (aQosHostCtl (2 * p + l)) 30 30 ≠ 0 := by
  unfold ldCheck
  dsimp only
  split
  · next h => simp only [Nat.reduceEqDiff, false_iff]; omega
  · next h =>
    split
    · next hl => simp [hl]
    · next hl =>
      split
      · next hb => simp [hb]
      · next hb =>
        split
        · next hq => simp [hq]
        · next hq => exact ⟨fun _ => ⟨by omega, by omega, hl, by simpa using hb, hq⟩, fun _ => rfl⟩

/-- At the second boundary after its disable the wrapper answers what is left of a logical device (R492). -/
theorem ldAnswer_due {a d : Nat} (hoff : (w.ld a).off = some d) (hd : d + 2 ≤ e.clk.frame) :
    ldAnswer e w a =
      (let x := wrapperAnswer e (w.setLd a { w.ld a with off := none })
        (fun r => r.dev == e.board && r.agent == a && r.tile == none && r.ans == .error)
       if x.1 = 0 then x.2
       else raise e x.2 { ty := 0x7006, sev := 1, dev := e.board, agent := a, count := x.1, unit := portOf a + 4 * 2 ^ 24,
                          host := some a }) := by
  have hlt : ¬ e.clk.frame < d + 2 := by omega
  simp only [ldAnswer, hoff, if_neg hlt]

end

/-! ### The heads of a port (R466, R467, R486) -/

theorem ports_raise (e : Env) (w : Work) (r : FaultRec) : (raise e w r).ports = w.ports := by
  have hostCopy (fr : Nat) (w : Work) (r : FaultRec) : (dropHostCopy fr w r).ports = w.ports := by
    unfold dropHostCopy; split <;> rfl
  have dropped (fr : Nat) (w : Work) (r : FaultRec) : (dropRec fr w r).ports = w.ports := rfl
  unfold raise
  dsimp only
  split
  · rfl
  · split
    · rfl
    · unfold holdRec
      split
      · rfl
      · rw [hostCopy, dropped]

/-- The logical devices of a head depend on the port modes alone. -/
theorem headLds_congr {w w' : Work} (h : w'.ports = w.ports) (p hd : Nat) : headLds w' p hd = headLds w p hd := by
  have hmode : portMode w' = portMode w := by funext q; rw [portMode, portMode, h]
  simp only [headLds, portLds, headOf, hmode]

@[simp] theorem ports_setHead (w : Work) (p h x : Nat) : (setHead w p h x).ports = w.ports := by
  unfold setHead
  split <;> exact Work.setFld_ports ..

@[simp] theorem ports_setHalf (w : Work) (p h x : Nat) : (setHalf w p h x).ports = w.ports := Work.setFld_ports ..

@[simp] theorem ports_setFlit (w : Work) (p h x : Nat) : (setFlit w p h x).ports = w.ports := Work.setFld_ports ..

section
variable {e : Env} {w : Work} {p h : Nat}

theorem headDown_up (hup : headState w p h = hdUp) :
    headDown e w p h = (headLds w p h).foldl (linkLost e) (setHalf (setHead w p h hdDown) p h 0) := by
  simp only [headDown, if_pos (Or.inl hup : headState w p h = hdUp ∨ headState w p h = hdIoOnly),
    headLds_congr ((ports_setHalf ..).trans (ports_setHead ..))]

section
variable (hrun : portRuns w p = true) (hbar : portBarred e w p = false) (hhead : h ∈ headsOfMode (portMode w p))
  (htrain : headState w p h = hdTraining) {width rate flit : Nat}
include hrun hbar hhead htrain

/-- A training head of a port that runs is judged by its lanes and its rate. -/
theorem headTrained_training :
    headTrained e w p h width rate flit =
      (let full := if portMode w p = 2 then 8 else 16
       if width < full / 2 ∨ rate < 32 then
         let w := setHead w p h hdHeld
         let w := if width < full / 2 then portOnly e w p 0x7001 else w
         if rate < 32 then portOnly e w p 0x7003 else w
       else
         let half := decide (width < full)
         let w := setFlit (setHalf w p h (if half = true then 1 else 0)) p h (flitMode w p rate flit)
         let w := if half = true then portOnly e w p 0x7002 else w
         if recovering e = true then (headLds w p h).foldl sendWaiting (setHead w p h hdIoOnly)
         else (headLds w p h).foldl sendWaiting (setHead w p h hdUp)) := by
  have hpass : ¬(portRuns w p = false ∨ portBarred e w p = true ∨ (headsOfMode (portMode w p)).contains h = false ∨
      (headState w p h ≠ hdDown ∧ headState w p h ≠ hdTraining)) := by
    simp [hrun, hbar, hhead, htrain]
  rw [headTrained, if_neg hpass]

theorem headTrained_up (hrec : recovering e = false) (hwidth : (if portMode w p = 2 then 8 else 16) ≤ 2 * width) (hrate : 32 ≤ rate) :
    headTrained e w p h width rate flit =
      (let half := decide (width < if portMode w p = 2 then 8 else 16)
       let w' := setFlit (setHalf w p h (if half = true then 1 else 0)) p h (flitMode w p rate flit)
       (headLds w p h).foldl sendWaiting (setHead (if half = true then portOnly e w' p 0x7002 else w') p h hdUp)) := by
  have hpass : ¬(width < (if portMode w p = 2 then 8 else 16) / 2 ∨ rate < 32) := by omega
  have hnorec : ¬ recovering e = true := by simp [hrec]
  rw [headTrained_training hrun hbar hhead htrain]
  dsimp only
  rw [if_neg hpass, if_neg hnorec]
  congr 1
  refine headLds_congr ?_ p h
  simp only [apply_ite Work.ports, portOnly, ports_raise, ports_setFlit, ports_setHalf, ite_self]

theorem headTrained_held (hwidth : 2 * width < if portMode w p = 2 then 8 else 16) (hrate : 32 ≤ rate) :
    headTrained e w p h width rate flit = portOnly e (setHead w p h hdHeld) p 0x7001 := by
  have hfew : width < (if portMode w p = 2 then 8 else 16) / 2 := by
    by_cases hm : portMode w p = 2
    · rw [if_pos hm] at hwidth ⊢; omega
    · rw [if_neg hm] at hwidth ⊢; omega
  have hfast : ¬ rate < 32 := by omega
  rw [headTrained_training hrun hbar hhead htrain]
  dsimp only
  rw [if_pos (.inl hfew), if_pos hfew, if_neg hfast]

end

end

/-! ### Accesses of a logical device (R475, R485) and its IDE keys (R643) -/

theorem barIn_open {e : Env} {w : Work} {a : Nat} (hr : ldReachable w a = true) (ho : ldOpen w a = true) (f : Work → Work) :
    barIn e w a f = f w := by
  simp [barIn, hr, ho]

section
variable {s : State} {a ses stream : Nat} (hm : mainRuns s.env = true) (hr : reaches s.w (.host a) = true)
include hm hr

/-- An IDE_KM request in an allowed session, for a stream that exists, sets what `f` gives. -/
theorem ideKm_some (h : ideAllowed s.env a ses = true ∧ ideStream s.w a stream = true) {f : Option (Nat × Bool) → Option (Nat × Bool)}
    {k : Nat × Bool} (hk : f (mget (s.w.ld a).ide stream) = some k) :
    ideKm a ses stream s f =
      .next { s with w := reply (s.w.setLd a { s.w.ld a with ide := mset (s.w.ld a).ide stream k }) (.host a) rcOk [] } :=
  serve_of hm (by simp [hr, h, hk])

theorem ideKm_none (h : ideAllowed s.env a ses = true ∧ ideStream s.w a stream = true) {f : Option (Nat × Bool) → Option (Nat × Bool)}
    (hk : f (mget (s.w.ld a).ide stream) = none) :
    ideKm a ses stream s f = .next { s with w := reply s.w (.host a) rcRefused [] } :=
  serve_of hm (by simp [hr, h, hk])

theorem ideKm_refused (h : ¬(ideAllowed s.env a ses = true ∧ ideStream s.w a stream = true)) (f : Option (Nat × Bool) → Option (Nat × Bool)) :
    ideKm a ses stream s f = .next { s with w := reply s.w (.host a) rcRefused [] } := by
  have hno : ¬(ideAllowed s.env a ses && ideStream s.w a stream) = true := by simpa using h
  exact serve_of hm (by simp only [hr, Bool.not_true, Bool.false_eq_true, if_false, if_neg hno])

end

end Sys2Proof.Machine

open Sys2Proof Sys2Proof.Machine

section
variable {s : State} (hm : mainRuns s.env = true)
include hm

/-- A failed integrity check of an active stream is the same as the head going down. -/
theorem execIdeIntegrityFail_active {p h : Nat} (hide : ∃ a ∈ headLds s.w p h, ∃ x ∈ (s.w.ld a).ide, x.2.2 = true) :
    execIdeIntegrityFail p h s = .next { s with w := headDown s.env s.w p h } := by
  have hany : (headLds s.w p h).any (fun a => (s.w.ld a).ide.any (fun x => x.2.2)) = true := by simpa using hide
  exact serve_of hm (if_pos hany)

section
variable {a idx hpa size lda ways v : Nat} (hr : ldReachable s.w a = true) (ho : ldOpen s.w a = true)
include hr ho

theorem execHdmDecoderCommit_open :
    execHdmDecoderCommit a idx hpa size lda ways s = .next { s with
      w := if ways = 1 ∧ idx < 8 then
          (s.w.setLd a { s.w.ld a with hdmNext := some (mset ((s.w.ld a).hdmNext.getD (s.w.ld a).hdm) idx (hpa, size, lda)),
                                       bi := true }).emit (.decoder a idx true)
        else s.w.emit (.decoder a idx false) } :=
  serve_of hm (barIn_open hr ho _)

theorem execMsixUnmask_open (hv : v < 2048) :
    execMsixUnmask a v s = .next { s with
      w :=
        let w := s.w.setLd a { s.w.ld a with unmasked := sadd (s.w.ld a).unmasked v, msix := sdel (s.w.ld a).msix v }
        if v ∈ (s.w.ld a).msix then w.emit (.msix a v) else w } :=
  serve_of hm ((barIn_open hr ho _).trans (by simp only [if_pos hv, List.contains_iff_mem]))

end

end

/-- Settles O55: each command of a port, a head or a logical device by the case its premises pick. -/
theorem portsTrainFallAndReset : Obligations.PortsTrainFallAndReset := by
  refine ⟨?_, ?_, ?_, ?_, ?_, ?_, ?_, ?_, ?_, ?_, ?_⟩
  · intro p v s hm hoff hdue
    have hrun : execPortEnable p v s = _ := serve_of hm (portCtlWrite_enable hoff hdue (bitAt_setBitAt_enable ..))
    exact ⟨hrun, portCheck_mode, portCheck_zero⟩
  · intro p v s hm hon
    change execPortDisable p v s = _
    exact serve_of hm (portCtlWrite_disable hon (bitAt_setBitAt_enable ..))
  · intro p l s hm hoff
    have hrun : execLdEnable p l s = _ := serve_of hm (ldCtlWrite_enable hoff)
    exact ⟨hrun, ldCheck_eq_zero_iff⟩
  · intro p l s hm hon
    change execLdDisable p l s = _
    exact serve_of hm (ldCtlWrite_disable hon)
  · intro a d s hm hoff hd
    change execLdDisableAnswer a s = _
    exact serve_of hm (ldAnswer_due hoff hd)
  · intro p h width rate flit s hm hrec hrun hbar hhead htrain
    refine ⟨fun hwidth hrate => ?_, fun hwidth hrate => ?_⟩
    · change execHeadTrained p h width rate flit s = _
      exact serve_of hm (headTrained_up hrun hbar hhead htrain hrec hwidth hrate)
    · change execHeadTrained p h width rate flit s = _
      exact serve_of hm (headTrained_held hrun hbar hhead htrain hwidth hrate)
  · intro p h s hm hup
    have hdown : execHeadDown p h s = .next { s with w := headDown s.env s.w p h } := serve_run hm
    rw [← headDown_up hup]
    exact ⟨hdown, execIdeIntegrityFail_active hm⟩
  · intro p h s hup
    change execCxlHotReset p h s = _
    exact whole_of (if_pos (Or.inl hup))
  · intro a s hld hio
    have hopen : (ldExists s.w a && headIo s.w a) = true := by rw [hld, hio]; rfl
    have hreset : execCxlReset a s = _ := whole_of (if_pos hopen)
    have hflr (hm : mainRuns s.env = true) : execFunctionLevelReset a s = _ := serve_of hm (if_pos hopen)
    exact ⟨hreset, hflr⟩
  · intro a idx hpa size lda ways v s hm hr ho
    refine ⟨fun hok => ?_, fun hno => ?_, fun hv => execMsixUnmask_open hm hr ho hv, ?_⟩
    · exact (execHdmDecoderCommit_open hm hr ho).trans (by rw [if_pos hok])
    · exact (execHdmDecoderCommit_open hm hr ho).trans (by rw [if_neg hno])
    · change execGlobalPersistentFlush a s = _
      exact serve_of hm (if_pos hr)
  · intro a ses stream key s hm hr
    dsimp only
    split
    · next hok =>
      split
      · next hnone => exact ⟨show execKeyProg _ _ _ _ _ = _ from ideKm_some hm hr hok (by rw [hnone]),
          show execKSetGo _ _ _ _ = _ from ideKm_none hm hr hok (by rw [hnone]; rfl),
          show execKSetStop _ _ _ _ = _ from ideKm_none hm hr hok (by rw [hnone]; rfl)⟩
      · next k hk => exact ⟨show execKeyProg _ _ _ _ _ = _ from ideKm_some hm hr hok (by rw [hk]),
          show execKSetGo _ _ _ _ = _ from ideKm_some hm hr hok (by rw [hk]; rfl),
          show execKSetStop _ _ _ _ = _ from ideKm_some hm hr hok (by rw [hk]; rfl)⟩
    · next hno => exact ⟨show execKeyProg _ _ _ _ _ = _ from ideKm_refused hm hr hno _,
        show execKSetGo _ _ _ _ = _ from ideKm_refused hm hr hno _, show execKSetStop _ _ _ _ = _ from ideKm_refused hm hr hno _⟩

end

section
/-! PROOFS. Mailbox commands of a logical device (12 R482, R483) and Dynamic Capacity (R470-R474). -/

namespace Sys2Proof.Machine

/-! ### A mailbox command that arrives (R480, R490) -/

section
variable {s : State} {a : Nat} (hm : mainRuns s.env = true) (hld : ldExists s.w a = true) (hio : headIo s.w a = true)
include hm hld hio

theorem mboxCmd_open (hopen : recovering s.env = true ∨ ldOpen s.w a = true) {f : Env → Work → Work} {w : Work} (hf : f s.env s.w = w) :
    mboxCmd a s f = .next { s with w := w } := by
  have hin : (recovering s.env || ldOpen s.w a) = true := by simpa using hopen
  exact serve_of hm (by simp [mboxIn, hld, hio, hin, hf])

theorem mboxCmd_disabled (hrec : recovering s.env = false) (hoff : (s.w.ld a).enabled = false) (f : Env → Work → Work) :
    mboxCmd a s f = .next { s with w := (portRecord s.env s.w a 0x7006).emit (.hostUr a 0) } :=
  serve_of hm (by simp [mboxIn, hld, hio, hrec, ldOpen, hoff, barRefuse])

end

/-! ### Bound contexts (R483) -/

theorem getCtx_of_bound {w : Work} {a c : Nat} (h : boundCtx w a c = true) : ∃ x, getCtx w c = some x := by
  cases hc : getCtx w c with
  | some x => exact ⟨x, rfl⟩
  | none => simp [boundCtx, ctxHost, hc] at h

section
variable {s : State} {a c : Nat} (hm : mainRuns s.env = true) (hld : ldExists s.w a = true) (hio : headIo s.w a = true)
  (hopen : recovering s.env = true ∨ ldOpen s.w a = true)
include hm hld hio hopen

theorem execContextSet_bound {x : Ctx} (entry : BitVec 512) (hc : getCtx s.w c = some x) (hb : boundCtx s.w a c = true) :
    execContextSet a c entry s = .next { s with
      w :=
        let u := loadEntry s.env s.w c (setEf (setEf x.entry 127 42 (ef entry 127 42)) 40 36 (ef entry 40 36))
        mboxDone u a cmdContextSet mbOk [ctxReason u] } :=
  mboxCmd_open hm hld hio hopen (by simp only [hc, hb, if_true])

theorem execContextSet_foreign (entry : BitVec 512) (hb : boundCtx s.w a c = false) :
    execContextSet a c entry s = .next { s with w := mboxDone s.w a cmdContextSet mbInvalid [] } := by
  refine mboxCmd_open hm hld hio hopen ?_
  dsimp only
  split
  · rw [hb]; rfl
  · rfl

theorem execContextPut_foreign (hb : boundCtx s.w a c = false) :
    execContextPut a c s = .next { s with w := mboxDone s.w a cmdContextPut mbInvalid [] } :=
  mboxCmd_open hm hld hio hopen (by rw [hb]; rfl)

theorem syncMbox_foreign (op cmd : Nat) (hb : boundCtx s.w a c = false) :
    syncMbox a c op cmd s = .next { s with w := mboxDone s.w a cmd mbInvalid [] } :=
  mboxCmd_open hm hld hio hopen (by rw [hb]; rfl)

/-- A CONTEXT_PUT that is accepted waits for its boundary; another one is answered with its reason. -/
theorem execContextPut_bound (hb : boundCtx s.w a c = true) :
    execContextPut a c s =
      (let u := ctxCmdWrite s.env s.w (2 ^ 31 + 2 ^ 27 + c)
       if ctxReason u = 0 then .next { s with w := waitReply u a cmdContextPut c }
       else .next { s with w := mboxDone u a cmdContextPut mbOk [ctxReason u] }) := by
  refine (mboxCmd_open hm hld hio hopen (if_pos hb)).trans ?_
  dsimp only
  split <;> rfl

theorem syncMbox_bound (op cmd : Nat) (hb : boundCtx s.w a c = true) :
    syncMbox a c op cmd s =
      (let u := syncCmdWrite s.env s.w (2 ^ 31 + 2 ^ 26 * op + c)
       if syncReason u = 0 then .next { s with w := waitReply u a cmd c }
       else .next { s with w := mboxDone u a cmd mbOk [syncReason u] }) := by
  refine (mboxCmd_open hm hld hio hopen (if_pos hb)).trans ?_
  dsimp only
  split <;> rfl

theorem execRingPut_open (r : Nat) :
    execRingPut a r s =
      if s.w.fld (aRingCtl r) 31 31 = 1 ∧ ringOwner s.w r = a then
        .next { s with w := mboxDone (ringCtlWrite s.env s.w r (s.w.reg (aRingCtl r) % 2 ^ 31)) a cmdRingPut mbOk [0] }
      else .next { s with w := mboxDone s.w a cmdRingPut mbInvalid [] } := by
  refine (mboxCmd_open hm hld hio hopen rfl).trans ?_
  split <;> rfl

/-! ### Poison lists (R477) -/

theorem poisonWrite_outside {lda : Nat} (cmd : Nat) (d : Payload) (hx : extentOf (s.w.ld a) lda = none) :
    poisonWrite a lda cmd d s = .next { s with w := mboxDone s.w a cmd mbInvalid [] } :=
  mboxCmd_open hm hld hio hopen (by rw [hx])

theorem poisonWrite_served {lda : Nat} (cmd : Nat) (d : Payload) {x : Extent} {l : Loc} (hx : extentOf (s.w.ld a) lda = some x)
    (hl : accessCheck s.env s.w (.host a x.gen) x.parcel (lda - x.lda) true = .served l) :
    poisonWrite a lda cmd d s = .next { s with
      w := mboxDone (checked s.env s.w
        { op := .wr .i d (BitVec.allOnes 64) true, dev := s.env.board, agent := a, tag := lda / 64 % 2 ^ 16, frame := s.env.clk.frame
          parcel := x.parcel, gen := x.gen, off := (lda - x.lda) / 64 * 64, line := 0, acct := a, ans := .down, born := s.env.clk.now }
        (.served l)) a cmd mbOk [] } :=
  mboxCmd_open hm hld hio hopen (by simp only [hx, hl])

end

/-! ### Dynamic Capacity (R474, 03 R91) -/

section
variable {s : State} (hm : mainRuns s.env = true)
include hm

theorem execAddCapacityTimeout_offer {a lda f : Nat} (ho : (s.w.ld a).offers.find? (fun x => x.1 == lda) = some (lda, f)) :
    execAddCapacityTimeout a lda s = .next { s with
      w := if (late200 s.env f || !headUp s.w a || !(s.w.ld a).enabled) = true then
          releaseExtent s.env (s.w.setLd a { s.w.ld a with offers := (s.w.ld a).offers.filter (fun x => x.1 != lda) }) a lda
        else s.w } :=
  serve_of hm (by simp only [ho])

theorem execForcedRevoke_late {p a f : Nat} {x : Extent} (hx : (s.w.ld a).extents.find? (fun x => x.parcel == p) = some x)
    (hf : (x.lda, f) ∈ (s.w.ld a).releases) (hlate : late200 s.env f = true) :
    execForcedRevoke p a s = .next { s with
      w :=
        let r := releaseHolder s.env s.w p a [(p, a)]
        let u := r.2.setLd a { r.2.ld a with releases := (r.2.ld a).releases.filter (fun y => y.1 != x.lda) }
        if r.1 = 0 then raise s.env u { ty := 0x3004, sev := 1, parcel := p, dev := s.env.board, agent := a, host := some a }
        else r.2 } := by
  have hany : ((s.w.ld a).releases.any (fun r => r.1 == x.lda && late200 s.env r.2)) = true :=
    List.any_eq_true.mpr ⟨(x.lda, f), hf, by simp [hlate]⟩
  exact serve_of hm (by simp only [hx, hany, if_true, ne_eq, ite_not])

end

end Sys2Proof.Machine

open Sys2Proof Sys2Proof.Machine

/-- Settles O56: each mailbox command of a device that lets it in, then the refusals, then what nobody answers. -/
theorem mailboxCommandsAnswer : Obligations.MailboxCommandsAnswer := by
  refine ⟨?_, ?_, ?_, ?_⟩
  · intro a s hm hld hio hopen
    refine ⟨?_, ?_, ?_, ?_, ?_, ?_, ?_, ?_, ?_, ?_, ?_⟩
    · intro entry c hc
      exact show execContextGet a entry s = _ from mboxCmd_open hm hld hio hopen (by simp only [hc]; rfl)
    · intro entry hc
      exact show execContextGet a entry s = _ from mboxCmd_open hm hld hio hopen (by rw [hc]; rfl)
    · intro entry c x hc hb
      exact execContextSet_bound hm hld hio hopen entry hc hb
    · intro entry c hb
      exact ⟨execContextSet_foreign hm hld hio hopen entry hb, execContextPut_foreign hm hld hio hopen hb,
        syncMbox_foreign hm hld hio hopen 1 cmdSyncSave hb, syncMbox_foreign hm hld hio hopen 2 cmdSyncRestore hb⟩
    · intro c hb
      exact ⟨execContextPut_bound hm hld hio hopen hb, syncMbox_bound hm hld hio hopen 1 cmdSyncSave hb,
        syncMbox_bound hm hld hio hopen 2 cmdSyncRestore hb⟩
    · intro ctl dp dof cp cof r hr
      exact show execRingSet a ctl dp dof cp cof s = _ from mboxCmd_open hm hld hio hopen (by simp only [hr]; rfl)
    · exact execRingPut_open hm hld hio hopen
    · intro start count
      exact ⟨min_le_right .., show execGetPoisonList a start count s = _ from mboxCmd_open hm hld hio hopen rfl⟩
    · intro lda d hx
      exact ⟨poisonWrite_outside hm hld hio hopen cmdInject _ hx, poisonWrite_outside hm hld hio hopen cmdClear _ hx⟩
    · intro lda d x l hx hl
      exact ⟨poisonWrite_served hm hld hio hopen cmdInject _ hx hl, poisonWrite_served hm hld hio hopen cmdClear _ hx hl⟩
    · intro lda acc
      exact ⟨show execAddDcResponse a lda acc s = _ from mboxCmd_open hm hld hio hopen rfl,
        show execReleaseDcResponse a lda s = _ from mboxCmd_open hm hld hio hopen rfl⟩
  · intro a c r s hm hld hio hrec hoff
    exact ⟨show execContextPut a c s = _ from mboxCmd_disabled hm hld hio hrec hoff _,
      show syncMbox a c 1 cmdSyncSave s = _ from mboxCmd_disabled hm hld hio hrec hoff _,
      show execRingPut a r s = _ from mboxCmd_disabled hm hld hio hrec hoff _⟩
  · intro a lda f s hm ho
    exact execAddCapacityTimeout_offer hm ho
  · intro p a f x s hm hx hf hlate
    exact execForcedRevoke_late hm hx hf hlate

end

section
/-! PROOFS. The FM API (12 R484) and initiated Dynamic Capacity (R471, R473). -/

namespace Sys2Proof.Machine

section
variable {s : State} {m : Mgr} (hm : mainRuns s.env = true) (hr : reaches s.w m = true)
include hm hr

theorem fmCmd_open (hfm : isBmc m = true ∨ isFm m = true) {f : Env → Work → Work} {w : Work} (hf : f s.env s.w = w) :
    fmCmd m s f = .next { s with w := w } := by
  have hmay : (isBmc m || isFm m) = true := by simpa using hfm
  exact serve_of hm (by simp only [hr, hmay, Bool.not_true, Bool.false_eq_true, if_false, if_true, hf])

/-- A requester that is no manager is refused (R484). -/
theorem fmCmd_refused (hno : isBmc m = false) (hno' : isFm m = false) (f : Env → Work → Work) :
    fmCmd m s f = .next { s with w := reply s.w m rcRefused [] } :=
  serve_of hm (by simp [hr, hno, hno'])

section
variable (hfm : isBmc m = true ∨ isFm m = true)
include hfm

theorem execGetHeadInfo_open (p h : Nat) :
    execGetHeadInfo m p h s =
      if p < 32 ∧ h ∈ headsOfMode (portMode s.w p) then
        .next { s with w := reply s.w m rcOk [headState s.w p h, s.w.fld (aPortStatus p) (26 + h) (26 + h),
          s.w.fld (aPortStatus p) (23 + 2 * h) (22 + 2 * h)] }
      else .next { s with w := reply s.w m rcRefused [] } := by
  refine (fmCmd_open hm hr hfm rfl).trans ?_
  simp only [List.contains_iff_mem]
  split <;> rfl

theorem execSetDcRegionConfig_open {a : Nat} (region block : Nat) (ha : ldExists s.w a = true) :
    execSetDcRegionConfig m a region block s =
      .next { s with w := reply s.w m (if region < 8 ∧ block = dcBlock then rcOk else rcRefused) [] } :=
  fmCmd_open hm hr hfm (by simp only [ha, true_and])

/-- Initiate Add in recovery mode, or to a place that does not fit, is refused (R470, R471). -/
theorem execInitiateDcAdd_refused {d : DcReq}
    (h : recovering s.env = true ∨ dcPlaceOk s.w d (2 ^ 21 * eSize (cadNow s.w d.parcel)) = false) :
    execInitiateDcAdd m d s = .next { s with w := reply s.w m rcRefused [] } :=
  fmCmd_open hm hr hfm (if_pos (h.elim .inl (.inr ∘ .inl)))

/-- Initiate Add of a parcel that is FREE makes it ASSIGNED to the host and stages holder and extent together (03 R87). -/
theorem execInitiateDcAdd_free {d : DcReq} (hrec : recovering s.env = false)
    (hplace : dcPlaceOk s.w d (2 ^ 21 * eSize (cadNow s.w d.parcel)) = true) (hp : d.parcel < 2 ^ 16)
    (hfree : eState (cadNow s.w d.parcel) = stFree) :
    execInitiateDcAdd m d s = .next { s with
      w :=
        let x := cadNow s.w d.parcel
        let y := setEf (setEf (setEf x 33 32 stAssigned) 191 128 (setBitAt 0 d.agent true)) 255 192 (setBitAt 0 d.agent d.writer)
        let r := stageEntry s.env s.w d.parcel y [(d.agent, ⟨d.lda, 2 ^ 21 * eSize x, d.parcel, eGen x⟩)] []
        reply r.2 m (if r.1 = 0 then rcOk else rcRefused) [r.1] } := by
  have hstate : ¬ eState (cadNow s.w d.parcel) = stAssigned := by rw [hfree]; decide
  have hok : ¬(recovering s.env = true ∨ dcPlaceOk s.w d (2 ^ 21 * eSize (cadNow s.w d.parcel)) = false ∨ d.parcel ≥ 2 ^ 16 ∨
      (d.region < 4 ∧ eState (cadNow s.w d.parcel) = stAssigned ∧ eHolders (cadNow s.w d.parcel) ≠ 0) ∨
      (eState (cadNow s.w d.parcel) = stAssigned ∧ bitAt (eHolders (cadNow s.w d.parcel)) d.agent = true)) := by
    simp only [hrec, hplace, hstate, Nat.not_le.mpr hp, Bool.false_eq_true, reduceCtorEq, false_and, and_false, or_false,
      not_false_eq_true]
  exact fmCmd_open hm hr hfm ((if_neg hok).trans (by simp only [if_pos hfree]))

end

end

end Sys2Proof.Machine

open Sys2Proof Sys2Proof.Machine

/-- Settles O57: each command on an open path of a manager, then a host's logical device. -/
theorem fabricManagerCommandsAnswer : Obligations.FabricManagerCommandsAnswer := by
  refine ⟨?_, ?_⟩
  · intro m s hm hr hfm
    refine ⟨?_, ?_, ?_, ?_, ?_, ?_, ?_, ?_, ?_, ?_⟩
    · exact show execGetLdInfo m s = _ from fmCmd_open hm hr hfm rfl
    · exact show execGetMultiHeadedInfo m s = _ from fmCmd_open hm hr hfm rfl
    · exact show execGetDcdInfo m s = _ from fmCmd_open hm hr hfm rfl
    · intro p n hp
      refine ⟨?_, ?_⟩
      · exact show execGetLdAllocations m p s = _ from
          fmCmd_open hm hr hfm ((if_pos hp).trans (by rw [List.map_const']; rfl))
      · exact show execSetLdAllocations m p n s = _ from fmCmd_open hm hr hfm (by simp only [hp, true_and]; rfl)
    · intro p n hp
      have hout : ¬ p < 32 := by omega
      refine ⟨?_, ?_⟩
      · exact show execGetLdAllocations m p s = _ from fmCmd_open hm hr hfm (if_neg hout)
      · exact show execSetLdAllocations m p n s = _ from fmCmd_open hm hr hfm (by simp only [hout, false_and, if_false]; rfl)
    · exact execGetHeadInfo_open hm hr hfm
    · intro a region block ha
      refine ⟨?_, ?_, execSetDcRegionConfig_open hm hr hfm region block ha⟩
      · exact show execGetHostDcRegionConfig m a s = _ from
          fmCmd_open hm hr hfm ((if_pos ha).trans (by simp only [dcRegion, Nat.mul_comm]; rfl))
      · exact show execGetDcRegionExtentLists m a s = _ from fmCmd_open hm hr hfm (if_pos ha)
    · intro d h
      exact execInitiateDcAdd_refused hm hr hfm h
    · intro d hrec hplace hp hfree
      exact execInitiateDcAdd_free hm hr hfm hrec hplace hp hfree
    · intro d x hx
      exact show execInitiateDcRelease m d s = _ from fmCmd_open hm hr hfm (by simp only [hx]; rfl)
  · intro a s hm hr
    have hno (f : Env → Work → Work) := fmCmd_refused (m := .host a) hm hr rfl rfl f
    exact ⟨show execGetLdInfo _ s = _ from hno _, show execGetDcdInfo _ s = _ from hno _,
      fun d => ⟨show execInitiateDcAdd _ d s = _ from hno _, show execInitiateDcRelease _ d s = _ from hno _⟩⟩

end

section
/-! PROOFS. The root of trust (17): who may ask, what is answered, and what changes. -/

namespace Sys2Proof.Machine

/-! ### Requesters (R624, Table 17-1) -/

/-- A refused request: the answer alone. -/
def refused (s : State) (m : Mgr) : Host.Outcome State Fault Refusal := .next { s with w := reply s.w m rcRefused [] }

theorem manage_open {e : Env} {w : Work} {m : Mgr} (hm : mainRuns e = true) (hr : reaches w m = true) (may : Bool) (f : Env × Work) :
    manage e w m may f = if may = true then f else (e, reply w m rcRefused []) := by
  simp only [manage, hm, hr, Bool.not_true, Bool.or_self, Bool.false_eq_true, if_false]

theorem whole_pair {s : State} {f : Env → Work → Env × Work} {e : Env} {w : Work} (hf : f s.env s.w = (e, w)) :
    whole s f = .next { s with env := e, w := w } := by rw [whole_run, hf]

section
variable {s : State} {m : Mgr} (hm : mainRuns s.env = true) (hr : reaches s.w m = true)
include hm hr

theorem bmcOrHost_run (hmay : isBmc m = true ∨ isHostLd m = true) (f : Env → Work → Env × Work) :
    bmcOrHost m s f = .next { s with env := (f s.env s.w).1, w := (f s.env s.w).2 } := by
  have hok : (isBmc m || isHostLd m) = true := by simpa using hmay
  rw [bmcOrHost, whole_run, manage_open hm hr, if_pos hok]

theorem bmcOrHost_of (hmay : isBmc m = true ∨ isHostLd m = true) {f : Env → Work → Env × Work} {e : Env} {w : Work}
    (hf : f s.env s.w = (e, w)) : bmcOrHost m s f = .next { s with env := e, w := w } := by
  rw [bmcOrHost_run hm hr hmay, hf]

theorem bmcOnly_run (hb : isBmc m = true) (f : Env → Work → Env × Work) :
    bmcOnly m s f = .next { s with env := (f s.env s.w).1, w := (f s.env s.w).2 } := by
  rw [bmcOnly, whole_run, manage_open hm hr, if_pos hb]

theorem bmcOnly_refused (hb : isBmc m = false) (f : Env → Work → Env × Work) : bmcOnly m s f = refused s m := by
  have hno : ¬ isBmc m = true := by simp [hb]
  rw [bmcOnly, whole_run, manage_open hm hr, if_neg hno, refused]

/-- A command of the BMC that changes the security state where `P` holds, and is refused otherwise. -/
theorem bmcOnly_answer (hb : isBmc m = true) {P : Prop} [Decidable P] {f : Env → Work → Env × Work} {ok : Bool} {sec : Sec}
    {data : List Nat} (hf : f s.env s.w = answer s.env s.w m ok sec data) (hok : ok = true ↔ P) :
    bmcOnly m s f =
      if P then .next { s with env := { s.env with sec := sec }, w := reply s.w m rcOk data } else refused s m := by
  rw [bmcOnly_run hm hr hb, hf]
  by_cases h : P
  · rw [if_pos h, answer, if_pos (hok.mpr h)]
  · rw [if_neg h, answer, if_neg (hok.not.mpr h)]; rfl

end

/-! ### Measurements, sessions and tokens (R634-R636, R657) -/

theorem measurement_isSome_iff (e : Env) (w : Work) (k : Nat) : (measurement e w k).isSome = true ↔ 1 ≤ k ∧ k ≤ 7 := by
  unfold measurement
  dsimp only
  split_ifs
  rotate_left 8
  · exact ⟨fun h => by simp at h, fun _ => by omega⟩
  all_goals exact ⟨fun _ => by omega, fun _ => rfl⟩

theorem tokenOk_parts {e : Env} {m : Mgr} {t : DebugToken} (h : tokenOk e m t = true) :
    debugAuthorityKey e ≠ none ∧ t.sigOk = true ∧ t.board = e.board ∧ t.scopes < 32 ∧
    (e.sec.debugs.filter (fun y => decide (e.clk.now < y.2.expires))).length < 4 ∧
    1 ≤ t.seconds ∧ t.seconds ≤ 86400 ∧ ∃ y ∈ e.sec.nonces, y.1 = m ∧ y.2.1 = t.nonce := by
  simp only [tokenOk, Bool.and_eq_true, beq_iff_eq, decide_eq_true_eq, List.any_eq_true] at h
  obtain ⟨⟨⟨⟨⟨⟨⟨⟨⟨⟨hkey, hsig⟩, -⟩, -⟩, -⟩, hboard⟩, hmin⟩, hmax⟩, hscopes⟩, hfew⟩, y, hy, ⟨hwho, hnonce⟩, -⟩ := h
  exact ⟨Option.isSome_iff_ne_none.mp hkey, hsig, hboard, hscopes, hfew, hmin, hmax, y, hy, hwho, hnonce⟩

section
variable {s : State} {m : Mgr} (hm : mainRuns s.env = true) (hr : reaches s.w m = true)
include hm hr

section
variable (hmay : isBmc m = true ∨ isHostLd m = true)
include hmay

theorem execKeyExchange_open (mutualAuth : Bool) (anchor : Nat) :
    execKeyExchange m mutualAuth anchor s =
      if s.env.sec.sessions.length < 80 then
        .next { s with
          env := { s.env with sec := { s.env.sec with
            sessions := mset s.env.sec.sessions s.env.sec.nextSession { who := m, mutualAuth := mutualAuth, anchor := anchor }
            nextSession := s.env.sec.nextSession + 1 } }
          w := reply s.w m rcOk [s.env.sec.nextSession] }
      else .next { s with w := reply s.w m rcLimit [] } := by
  refine (bmcOrHost_run hm hr hmay _).trans ?_
  by_cases h : s.env.sec.sessions.length < 80
  · rw [if_neg (Nat.not_le.mpr h), if_pos h]; rfl
  · rw [if_pos (Nat.not_lt.mp h), if_neg h]

theorem execGetCertificate_open (n : Nat) :
    execGetCertificate m n s =
      if n = 0 then .next { s with w := reply s.w m rcOk [Config.digest [8]] } else refused s m := by
  refine (bmcOrHost_run hm hr hmay _).trans ?_
  dsimp only
  split <;> rfl

theorem execDebugOpen_open (t : DebugToken) :
    execDebugOpen m t s =
      if tokenOk s.env m t = true then
        .next { s with
          env := { s.env with sec := { s.env.sec with
            nonces := s.env.sec.nonces.filter (fun x => x.1 != m)
            debugs := mset s.env.sec.debugs s.env.sec.opened
              { who := m, scopes := t.scopes, expires := s.env.clk.now + 10 ^ 12 * t.seconds }
            opened := s.env.sec.opened + 1 } }
          w := reply (debugRecord s.env s.w m t.scopes) m rcOk [s.env.sec.opened] }
      else refused s m := by
  have hsec : msPs (1000 * t.seconds) = 10 ^ 12 * t.seconds := by rw [msPs]; omega
  refine (bmcOrHost_run hm hr hmay _).trans ?_
  dsimp only
  rw [hsec]
  split <;> rfl

theorem execDebugClose_open (n : Nat) :
    execDebugClose m n s =
      (let r := endDebug s.env s.w (fun y => y.1 == n)
       if ∃ y ∈ s.env.sec.debugs, y.1 = n ∧ y.2.who = m then .next { s with env := r.1, w := reply r.2 m rcOk [] } else refused s m) := by
  have hany : (s.env.sec.debugs.any (fun x => x.1 == n && x.2.who == m)) = true ↔ ∃ y ∈ s.env.sec.debugs, y.1 = n ∧ y.2.who = m := by
    simp only [List.any_eq_true, Bool.and_eq_true, beq_iff_eq]
  refine (bmcOrHost_run hm hr hmay _).trans ?_
  dsimp only
  simp only [hany]
  split <;> rfl

end

theorem execBackupWrite_open (hb : isBmc m = true) (n : Nat) (v : Word) :
    execBackupWrite m n v s =
      if recovering s.env = true ∧ n < 16 then .next { s with env := s.env.setBackup n v.toNat, w := reply s.w m rcOk [] }
      else refused s m := by
  refine (bmcOnly_run hm hr hb _).trans ?_
  split <;> rfl

theorem execActivateFw_open (hb : isBmc m = true) (h : Nat) :
    execActivateFw m h s =
      if (bankOf s.env.sec (1 - s.env.sec.running)).st = bkStaged ∧ bankPasses s.env (1 - s.env.sec.running) = true ∧
          trialOpen s.env.sec = false ∧ s.env.clk.frame + 2 ≤ h ∧ s.env.sec.handover = none then
        .next { s with env := { s.env with sec := { s.env.sec with handover := some h } }, w := reply s.w m rcOk [] }
      else refused s m :=
  bmcOnly_answer hm hr hb rfl (by simp [and_assoc])

end

/-! ### The handover (R654) -/

theorem execFwHandover_due {s : State} {h : Nat} (hh : s.env.sec.handover = some h) (hdue : h ≤ s.env.clk.frame) :
    execFwHandover s = (
      let x := { s.env.sec with handover := none }
      let b := 1 - x.running
      .next { s with
        env := if (bankOf x b).st = bkStaged ∧ bankPasses s.env b = true then
            { s.env with sec := { setBank x b { bankOf x b with st := bkTrial } with running := b, switching := true }
                         rst := { s.env.rst with record := true } }
          else { s.env with sec := x } }) := by
  have hlate : ¬ s.env.clk.frame < h := by omega
  refine (whole_run s _).trans ?_
  simp only [hh, if_neg hlate]
  split <;> rfl

/-! ### The JTAG port (R660) -/

theorem jtagInstr_decoded {s : State} (op : Nat) {always : Bool} (h : always = true ∨ extestAllowed s.env = true) :
    jtagInstr s op always = .next { s with env := { s.env with jtag := op }, w := s.w.emit (.jtag op true) } := by
  have hok : (always || extestAllowed s.env) = true := by simpa using h
  exact whole_pair (by simp only [hok, if_true])

theorem jtagInstr_bypass {s : State} (op : Nat) (h : extestAllowed s.env = false) :
    jtagInstr s op false = .next { s with env := { s.env with jtag := jtagBypass }, w := s.w.emit (.jtag op false) } :=
  whole_pair (by simp only [h, Bool.or_self, Bool.false_eq_true, if_false])

end Sys2Proof.Machine

open Sys2Proof Sys2Proof.Machine

/-- Settles O58: what every requester may ask, what the BMC alone may ask, then handover, expiry and JTAG. -/
theorem rootOfTrustAnswers : Obligations.RootOfTrustAnswers := by
  refine ⟨?_, ?_, ?_, ?_, ?_, ?_⟩
  · intro m s hm hr
    refine ⟨fun hmay => ?_, fun hb => ?_, fun hb => ?_⟩
    · refine ⟨?_, ?_, ?_, ?_, ?_, ?_, ?_, ?_, ?_, ?_, ?_, ?_, ?_, ?_, ?_⟩
      · intro k l hl
        exact show execGetMeasurements m k s = _ from bmcOrHost_of hm hr hmay (by simp only [hl]; rfl)
      · intro k hk
        have hnone : measurement s.env s.w k = none := by
          by_contra hsome
          have := (measurement_isSome_iff s.env s.w k).mp (Option.isSome_iff_ne_none.mpr hsome)
          omega
        exact show execGetMeasurements m k s = _ from bmcOrHost_of hm hr hmay (by simp only [hnone]; rfl)
      · exact measurement_isSome_iff s.env s.w
      · exact execGetCertificate_open hm hr hmay
      · intro n
        exact show execChallenge m n s = _ from bmcOrHost_of hm hr hmay rfl
      · exact show execSetCertificate m s = _ from bmcOrHost_of hm hr hmay rfl
      · exact show execGetCsr m s = _ from bmcOrHost_of hm hr hmay rfl
      · exact show execGetFwInfo m s = _ from bmcOrHost_of hm hr hmay rfl
      · exact execKeyExchange_open hm hr hmay
      · intro n y hy
        exact ⟨show execHeartbeat m n s = _ from bmcOrHost_of hm hr hmay (by simp only [hy]; rfl),
          show execKeyUpdate m n s = _ from bmcOrHost_of hm hr hmay (by simp only [hy]; rfl)⟩
      · intro n hy
        exact ⟨show execHeartbeat m n s = _ from bmcOrHost_of hm hr hmay (by simp only [hy]; rfl),
          show execKeyUpdate m n s = _ from bmcOrHost_of hm hr hmay (by simp only [hy]; rfl)⟩
      · exact show execDebugChallenge m s = _ from bmcOrHost_of hm hr hmay rfl
      · exact execDebugOpen_open hm hr hmay
      · exact fun t => tokenOk_parts
      · exact execDebugClose_open hm hr hmay
    · refine ⟨?_, ?_, ?_, ?_, ?_, ?_, ?_, ?_⟩
      · intro img
        exact show execTransferFw m img s = _ from bmcOnly_run hm hr hb _
      · exact execActivateFw_open hm hr hb
      · exact show execFwCommit m s = _ from bmcOnly_answer hm hr hb rfl beq_iff_eq
      · exact show execSvnAdvance m s = _ from bmcOnly_answer hm hr hb rfl beq_iff_eq
      · intro item slot
        exact show execSlotRetire m item slot s = _ from bmcOnly_answer hm hr hb rfl (by simp [and_assoc])
      · intro pos hash
        exact ⟨show execEnrolArm m true pos hash s = _ from bmcOnly_answer hm hr hb rfl decide_eq_true_iff,
          show execEnrolArm m false pos hash s = _ from bmcOnly_answer hm hr hb rfl decide_eq_true_iff⟩
      · intro key
        exact show execDebugAuthority m key s = _ from bmcOnly_answer hm hr hb rfl (by simp)
      · exact execBackupWrite_open hm hr hb
    · have hno (f : Env → Work → Env × Work) := bmcOnly_refused hm hr hb f
      exact ⟨show execFwCommit m s = _ from hno _, show execSvnAdvance m s = _ from hno _, fun img h item slot key =>
        ⟨show execTransferFw m img s = _ from hno _, show execActivateFw m h s = _ from hno _,
          show execSlotRetire m item slot s = _ from hno _, show execDebugAuthority m key s = _ from hno _⟩⟩
  · intro h s hh hdue
    exact execFwHandover_due hh hdue
  · intro s hsw
    exact show execFwBankSwitch s = _ from whole_pair (if_pos hsw)
  · intro n s
    exact show execDebugSessionExpiry n s = _ from whole_pair rfl
  · intro n s
    exact ⟨show execIdcode s = _ from jtagInstr_decoded jtagIdcode (.inl rfl),
      show execBypass n s = _ from jtagInstr_decoded jtagBypass (.inl rfl),
      show execSamplePreload s = _ from jtagInstr_decoded jtagSample (.inl rfl), fun hok =>
      ⟨show execExtest s = _ from jtagInstr_decoded jtagExtest (.inr hok),
        show execClamp s = _ from jtagInstr_decoded jtagClamp (.inr hok),
        show execHighz s = _ from jtagInstr_decoded jtagHighz (.inr hok),
        show execExtestPulse s = _ from jtagInstr_decoded jtagPulse (.inr hok),
        show execExtestTrain s = _ from jtagInstr_decoded jtagTrain (.inr hok)⟩⟩
  · intro s hprov hrec
    have hno : extestAllowed s.env = false := by simp [extestAllowed, hprov, hrec]
    exact ⟨show execExtest s = _ from jtagInstr_bypass jtagExtest hno, show execClamp s = _ from jtagInstr_bypass jtagClamp hno,
      show execHighz s = _ from jtagInstr_bypass jtagHighz hno, show execExtestPulse s = _ from jtagInstr_bypass jtagPulse hno,
      show execExtestTrain s = _ from jtagInstr_bypass jtagTrain hno⟩

end

section
/-! PROOFS. Resets, bring-up and power (18 R661-R676, 20 R706-R710). -/

namespace Sys2Proof.Machine

/-! ### Commands of the whole state that act under a condition -/

section
variable {s : State} {f : Env → Work → Env × Work} {P : Prop} [Decidable P] {e : Env} {w : Work}

theorem whole_ite (hf : f s.env s.w = if P then (e, w) else (s.env, s.w)) :
    whole s f = if P then .next { s with env := e, w := w } else .next s := by
  rw [whole_run, hf]
  split <;> rfl

theorem whole_next_ite (hf : f s.env s.w = if P then (e, w) else (s.env, s.w)) :
    whole s f = .next (if P then { s with env := e, w := w } else s) :=
  (whole_ite hf).trans (apply_ite ..).symm

end

/-! ### Reset sources (R661-R664) -/

theorem startEntry_running {e : Env} (cause t : Nat) (h : e.rst.phase = .service ∨ e.rst.phase = .recovery ∨ e.rst.phase = .bringup) :
    startEntry e cause t = { e.setBackup 5 cause with
      rst := { e.rst with phase := .entry, t0 := t, step := 0, bound := e.clk.frame + 2, ready := false, stopped := false } } := by
  obtain h | h | h := h <;> simp only [startEntry, h] <;> rfl

theorem startEntry_entered {e : Env} (cause t : Nat) (h : e.rst.phase = .entry ∨ e.rst.phase = .held) : startEntry e cause t = e := by
  obtain h | h := h <;> simp only [startEntry, h]

/-- A condition on which Klohal drives RST_N low (20 R708). -/
theorem driveLow_up {s : State} (hup : standbyUp s.env = true) (k : Nat) {ok : Bool} {P : Prop} [Decidable P] (hok : ok = true ↔ P) :
    driveLow k ok s =
      if P then
        .next { s with env := { startEntry s.env 2 s.env.clk.now with
          rst := { (startEntry s.env 2 s.env.clk.now).rst with drives := sadd (startEntry s.env 2 s.env.clk.now).rst.drives k } } }
      else .next s := by
  refine whole_ite ?_
  simp only [hup, Bool.not_true, Bool.false_or, Bool.not_eq_true', ← hok]
  cases ok <;> rfl

theorem holdMain_held (e : Env) (w : Work) (self : Bool) :
    (holdMain e w self).1.rst.phase = .held ∧ (holdMain e w self).1.rst.ready = false := ⟨rfl, rfl⟩

/-! ### Bring-up (R669, R674) -/

/-- Without a ROM image the bring-up ends in recovery mode. -/
theorem bringup_recovers (e : Env) (w : Work) (t : Nat) : (bringup e w t false).1.rst.phase = .recovery := rfl

theorem leaveRefresh_left (e : Env) (w : Work) (bad : List Nat) (drifts : List (Nat × Nat × Drift)) :
    (leaveRefresh e w bad drifts).1.rst.selfRefresh = false := rfl

/-! ### Entry, step by step (Table 18-3) -/

section
variable {s : State} (hentry : s.env.rst.phase = .entry)
include hentry

theorem execWarmResetEntry_first (hstep : s.env.rst.step = 0) :
    execWarmResetEntry s = .next { s with env := (enterReset s.env s.w).1, w := (enterReset s.env s.w).2 } :=
  whole_pair (if_pos ⟨hentry, hstep⟩)

theorem execWarmResetDrainEnd_due (hstep : s.env.rst.step = 1) (hbound : s.env.rst.bound ≤ s.env.clk.frame) :
    execWarmResetDrainEnd s = .next { s with
      env := { s.env with rst := { s.env.rst with step := 2 } }, w := (wrapperAnswer s.env s.w (fun _ => true)).2 } :=
  whole_pair (if_pos ⟨hentry, hstep, hbound⟩)

theorem execFlushTimeout_stops (hstep : s.env.rst.step = 2) :
    execFlushTimeout s = .next { s with
      env :=
        let ls := dirtyLines s.env s.w (fun _ => true)
        { s.env with rst := { s.env.rst with step := 3, unflushed := ls.length, dirty := (ls.take 128).map (64 * ·) } } } :=
  whole_pair (if_pos ⟨hentry, hstep⟩)

/-- After a finished flush the main domain is held, with one more entry counted in word 4. -/
theorem execNearCacheFlushDone_flushed (hstep : s.env.rst.step = 2) (t : Nat) :
    execNearCacheFlushDone t s = (
      let u := { s.env.at t with rst := { s.env.rst with unflushed := 0, dirty := [] } }
      let w := departLinks u (flushAll (s.env.at t) s.w)
      let k := u.setBackup 4 ((s.env.backupWord 4 + 1) % 2 ^ 32)
      let h := holdMain k w (refreshed k w)
      .next { s with env := h.1, w := h.2 }) := by
  have hgo : ¬(s.env.rst.phase ≠ .entry ∨ s.env.rst.step < 2) := by simp [hentry, hstep]
  have hat : (s.env.at t).rst.step = 2 := hstep
  refine whole_pair ?_
  simp only [if_neg hgo, if_pos hat]
  rfl

end

/-! ### Power (20 R706, R707) -/

theorem execPowerOn_off {s : State} (t board : Nat) (hoff : s.env.rst.phase = .off) :
    execPowerOn t board s = .next { s with
      env := { clk := { start := max s.env.clk.now t, next := 8000000 + max s.env.clk.now t, now := max s.env.clk.now t, returned := true }
               board := board % 4, sec := s.env.sec, keysel := triOf (keySelWord s.env.sec), jtag := s.env.jtag } } := by
  have hdown : ¬ standbyUp s.env = true := by simp [standbyUp, hoff]
  exact whole_pair (if_neg hdown)

/-! ### Commands of a powered main domain (R663, R675, R676) -/

section
variable {s : State} (hm : mainRuns s.env = true)
include hm

theorem execVinCollapse_powered (mv : Nat) :
    execVinCollapse mv s = (
      let c := startEntry s.env 2 s.env.clk.now
      let c := { c with rst := { c.rst with drives := sadd c.rst.drives 1, unflushed := 0, dirty := [] } }
      let h := holdMain c (dropRecords c s.w) c.rst.selfRefresh
      .next (if mv < 34000 then { s with env := h.1, w := h.2 } else s)) :=
  whole_next_ite (by simp only [hm, true_and])

theorem warmReset_powered (v : Word) :
    execResetWarm v s = .next { s with env := if bitAt v.toNat 0 = true then startEntry s.env 8 s.env.clk.now else s.env } :=
  whole_pair (if_pos hm)

theorem execDatumSwreset_powered (v : Word) :
    execDatumSwreset v s = .next (
      if bitAt v.toNat 0 = true then { s with env := (resetDatum s.env s.w).1, w := (resetDatum s.env s.w).2 } else s) :=
  whole_next_ite (if_pos hm)

theorem execWdtKick_powered (v : Word) :
    execWdtKick v s = .next { s with
      env := if bitAt v.toNat 31 = true then { s.env with rst := { s.env.rst with kick := s.env.clk.now } } else s.env
      w := s.w.setFld aDatumWdt 15 0 (bitsOf v.toNat 15 0) } :=
  whole_pair (if_pos hm)

theorem execDatumWatchdog_powered (t : Nat) :
    execDatumWatchdog t s = .next (
      if s.env.rst.kick + watchdogPs s.w ≤ t then
        { s with env := (resetDatum (s.env.at t) s.w).1, w := (resetDatum (s.env.at t) s.w).2 }
      else s) :=
  whole_next_ite (by simp only [hm, true_and])

theorem execRecoveryExit_bmc :
    execRecoveryExit .bmc s = .next { s with
      env := if recovering s.env = true then startEntry ((s.env.setBackup 3 0).setBackup 5 0) 7 s.env.clk.now else s.env
      w := reply s.w .bmc (if recovering s.env = true then rcOk else rcRefused) [] } := by
  refine (bmcOnly_run hm rfl rfl _).trans ?_
  split <;> rfl

end

end Sys2Proof.Machine

open Sys2Proof Sys2Proof.Machine

/-- Settles O59: sources and pins, power, commands of the powered domain, entry, bring-up, service. -/
theorem resetsRunTheirSteps : Obligations.ResetsRunTheirSteps := by
  refine ⟨?_, ?_, ?_, ?_, ?_, ?_, ?_, ?_⟩
  · exact fun cause t e => ⟨startEntry_running cause t, startEntry_entered cause t⟩
  · intro t mv ns lowNs sensor reading s hup
    refine ⟨?_, ?_, ?_, ?_, ?_, ?_, ?_⟩
    · have hdown : ¬(!standbyUp s.env) = true := by simp [hup]
      exact show execRstNReset t s = _ from whole_pair (if_neg hdown)
    · exact show execRstNRelease t s = _ from whole_pair (if_pos hup)
    · exact show execRstNGlitch lowNs s = _ from whole_pair (by simp only [hup, true_and]; split <;> rfl)
    · exact driveLow_up hup 1 (by simp)
    · exact driveLow_up hup 2 (by simp)
    · exact driveLow_up hup 3 decide_eq_true_iff
    · exact show execStandbyLost lowNs s = _ from whole_next_ite (by simp only [hup, true_and])
  · intro t board s hoff
    exact execPowerOn_off t board hoff
  · intro mv v s hm
    exact ⟨execVinCollapse_powered hm mv, warmReset_powered hm v, execDatumSwreset_powered hm v, execWdtKick_powered hm v,
      execDatumWatchdog_powered hm, execRecoveryExit_bmc hm⟩
  · intro t s hentry
    exact ⟨execWarmResetEntry_first hentry, execWarmResetDrainEnd_due hentry, fun hstep =>
      ⟨execFlushTimeout_stops hentry hstep, execNearCacheFlushDone_flushed hentry hstep t, holdMain_held ..⟩⟩
  · intro t romOk s hbegin
    refine ⟨show execBringupStart t romOk s = _ from whole_pair (if_pos hbegin), ?_⟩
    rintro rfl
    exact bringup_recovers ..
  · intro t bad drifts s hup
    refine ⟨fun hcold hself hgo => ⟨?_, leaveRefresh_left ..⟩, fun hon hgo hmem => ?_, fun hon hlate => ?_⟩
    · exact show execSelfRefreshExit ⟨bad, drifts⟩ s = _ from whole_of (if_pos ⟨hup, hcold, hself, hgo⟩)
    · exact show execResetDone t s = _ from whole_pair (if_pos ⟨hup, hon, hgo, hmem⟩)
    · exact show execStartTimeout t s = _ from whole_pair (if_pos ⟨hup, hon, hlate⟩)
  · intro plots s hp hcold hon
    have hpass : (s.env.rst.cold && !s.env.rst.powerOn) = true := by simp [hcold, hon]
    exact show execInitPass plots s = _ from traffic_of hp (if_pos hpass)

end

section
/-! PROOFS. Fault rings (15 R589-R600, R734), the sweep of a near-cache set (R579) and block resets (18 R677-R680). -/

namespace Sys2Proof.Machine

/-! ### Words with an enable bit -/

theorem bitAt_putBits_enable (v : Nat) : bitAt (putBits v 31 31 1) 31 = true := bitAt_setBitAt_enable v true

theorem bitAt_putBits_disable (v : Nat) : bitAt (putBits v 31 31 0) 31 = false := bitAt_setBitAt_enable v false

/-- The low fields of a word are below its enable bit. -/
theorem bitsOf_putBits_enable (v x : Nat) : bitsOf (putBits v 31 31 x) 4 0 = bitsOf v 4 0 := by
  simp only [bitsOf, putBits]
  omega

/-! ### The firmware ring (R592-R600) -/

theorem fwRingOn_iff (w : Work) : fwRingOn w = true ↔ w.fld aFaultFwCtl 31 31 = 1 := by simp [fwRingOn]

theorem fwCheck_eq_zero_or (e : Env) (w : Work) : fwCheck e w = 0 ∨ fwCheck e w = 0x061E := by
  unfold fwCheck
  dsimp only
  split
  · exact .inr rfl
  · exact .inl rfl

theorem fwCheck_zero {e : Env} {w : Work} (h : fwCheck e w = 0) :
    w.reg2 aFaultFwBase % 4096 = 0 ∧ 8 ≤ w.fld aFaultFwCtl 4 0 ∧ w.fld aFaultFwCtl 4 0 ≤ 20 := by
  unfold fwCheck at h
  dsimp only at h
  split at h
  · cases h
  · next hok => omega

section
variable {e : Env} {w : Work} (v : Nat)

theorem fwCtlWrite_enable (hoff : w.fld aFaultFwCtl 31 31 = 0) :
    fwCtlWrite e w (putBits v 31 31 1) =
      (let w := w.setReg aFaultFwCtl (bitsOf v 4 0)
       let u := w.setFld aFaultStatus 15 0 (fwCheck e w)
       if fwCheck e w = 0 then fwStart e u else u) := by
  have hring : ¬ fwRingOn w = true := by rw [fwRingOn_iff]; omega
  simp only [fwCtlWrite, if_neg hring, bitAt_putBits_enable, bitsOf_putBits_enable, Bool.not_true, Bool.false_eq_true, if_false]

theorem fwCtlWrite_disable_off (hoff : w.fld aFaultFwCtl 31 31 = 0) :
    fwCtlWrite e w (putBits v 31 31 0) = w.setReg aFaultFwCtl (bitsOf v 4 0) := by
  have hring : ¬ fwRingOn w = true := by rw [fwRingOn_iff]; omega
  simp only [fwCtlWrite, if_neg hring, bitAt_putBits_disable, bitsOf_putBits_enable, Bool.not_false, if_true]

theorem fwCtlWrite_enable_on (hon : w.fld aFaultFwCtl 31 31 = 1) : fwCtlWrite e w (putBits v 31 31 1) = w := by
  simp only [fwCtlWrite, if_pos ((fwRingOn_iff w).mpr hon), bitAt_putBits_enable, if_true]

theorem fwCtlWrite_disable_on (hon : w.fld aFaultFwCtl 31 31 = 1) :
    fwCtlWrite e w (putBits v 31 31 0) = w.setFld aFaultFwCtl 31 31 0 := by
  simp only [fwCtlWrite, if_pos ((fwRingOn_iff w).mpr hon), bitAt_putBits_disable, Bool.false_eq_true, if_false]

end

/-- A record raised with room in the FIFO is its last, with the current frame (R591). -/
theorem raise_placed {e : Env} {w : Work} {r : FaultRec} (hmerge : mergeRec w.flt.fifo { r with frame := e.clk.frame } = none)
    (hroom : w.flt.fifo.length < 256) :
    raise e w r = { w with flt := { w.flt with fifo := w.flt.fifo ++ [{ r with frame := e.clk.frame }] } } := by
  simp only [raise, hmerge, if_pos hroom]

/-! ### A host's ring (R599, R600) -/

theorem hostRingCheck_eq_zero_or (w : Work) (a : Nat) : hostRingCheck w a = 0 ∨ hostRingCheck w a = 0x061F := by
  unfold hostRingCheck
  dsimp only
  split
  · exact .inr rfl
  · exact .inl rfl

section
variable {w : Work} {a : Nat} (v : Nat)

theorem hostCtlWrite_enable (hoff : w.hfld a hFaultHostCtl 31 31 = 0) :
    hostCtlWrite w a (putBits v 31 31 1) =
      (let w := w.setHfld a hFaultHostCtl 4 0 (bitsOf v 4 0)
       let u := w.setHreg a hFaultHostStatus (hostRingCheck w a)
       let y := ((u.setHreg a hFaultHostHead 0).setHreg a hFaultHostTail 0).setHreg a hFaultHostCtl (2 ^ 31 + u.hfld a hFaultHostCtl 4 0)
       if hostRingCheck w a = 0 then
         { y with flt := { y.flt with
             hostGen := mset y.flt.hostGen a (eGen (cadEntry y (y.hfld a hFaultHostParcel 15 0)))
             hostDrops := mdel y.flt.hostDrops a
             hostFirst := mdel y.flt.hostFirst a } }
       else u) := by
  have hon : ¬ w.hfld a hFaultHostCtl 31 31 = 1 := by omega
  simp only [hostCtlWrite, if_neg hon, bitAt_putBits_enable, bitsOf_putBits_enable, Bool.not_true, Bool.false_eq_true, if_false,
    ne_eq, ite_not]

theorem hostCtlWrite_disable_off (hoff : w.hfld a hFaultHostCtl 31 31 = 0) :
    hostCtlWrite w a (putBits v 31 31 0) = w.setHfld a hFaultHostCtl 4 0 (bitsOf v 4 0) := by
  have hon : ¬ w.hfld a hFaultHostCtl 31 31 = 1 := by omega
  simp only [hostCtlWrite, if_neg hon, bitAt_putBits_disable, bitsOf_putBits_enable, Bool.not_false, if_true]

theorem hostCtlWrite_enable_on (hon : w.hfld a hFaultHostCtl 31 31 = 1) : hostCtlWrite w a (putBits v 31 31 1) = w := by
  simp only [hostCtlWrite, if_pos hon, bitAt_putBits_enable, if_true]

theorem hostCtlWrite_disable_on (hon : w.hfld a hFaultHostCtl 31 31 = 1) :
    hostCtlWrite w a (putBits v 31 31 0) = w.setHfld a hFaultHostCtl 31 31 0 := by
  simp only [hostCtlWrite, if_pos hon, bitAt_putBits_disable, Bool.false_eq_true, if_false]

end

/-- An access to a logical device whose BAR is not open (R480, R490). -/
theorem barIn_closed {e : Env} {w : Work} {a : Nat} (hr : ldReachable w a = true) (ho : ldOpen w a = false) (f : Work → Work) :
    barIn e w a f = (portRecord e w a (if (w.ld a).enabled = true then 0x7005 else 0x7006)).emit (.hostUr a 0) := by
  simp only [barIn, hr, ho, Bool.not_true, Bool.false_eq_true, if_false, barRefuse]
  split <;> rfl

/-! ### The word of a block reset (Table 18-7) -/

theorem and_two_pow_mul_add {k a b c d : Nat} (hb : b < 2 ^ k) (hd : d < 2 ^ k) :
    (2 ^ k * a + b) &&& (2 ^ k * c + d) = 2 ^ k * (a &&& c) + (b &&& d) := by
  refine Nat.eq_of_testBit_eq fun j => ?_
  rw [Nat.testBit_and, Nat.testBit_two_pow_mul_add a hb, Nat.testBit_two_pow_mul_add c hd,
    Nat.testBit_two_pow_mul_add (a &&& c) (lt_of_le_of_lt Nat.and_le_left hb)]
  split <;> rw [Nat.testBit_and]

section
variable {kind i : Nat} (hk : kind < 8) (hi : i < 128) (hold : Bool)
include hk hi

/-- The register keeps all of the word but go. -/
theorem blockWord_kept : blockWord kind i hold &&& 0x7800007F = blockWord kind i hold - 2 ^ 31 := by
  have hword (q : Nat) (hq : q < 32) : (2 ^ 27 * q + i) &&& 0x7800007F = 2 ^ 27 * (q % 16) + i := by
    have hmask : (0x7800007F : Nat) = 2 ^ 27 * (2 ^ 4 - 1) + (2 ^ 7 - 1) := by decide
    rw [hmask, and_two_pow_mul_add (by omega) (by decide), Nat.and_two_pow_sub_one_eq_mod, Nat.and_two_pow_sub_one_eq_mod,
      Nat.mod_eq_of_lt hi]
  cases hold
  · have hw : blockWord kind i false = 2 ^ 27 * (16 + kind) + i := by
      simp only [blockWord, Bool.false_eq_true, if_false, Nat.mod_eq_of_lt hi]; omega
    rw [hw, hword _ (by omega)]; omega
  · have hw : blockWord kind i true = 2 ^ 27 * (24 + kind) + i := by
      simp only [blockWord, if_true, Nat.mod_eq_of_lt hi]; omega
    rw [hw, hword _ (by omega)]; omega

/-- The fields of the word: go, kind, number and hold. -/
theorem blockWord_fields :
    bitAt (blockWord kind i hold) 31 = true ∧ bitsOf (blockWord kind i hold) 29 27 = kind ∧
    bitsOf (blockWord kind i hold) 6 0 = i ∧ bitAt (blockWord kind i hold) 30 = hold := by
  simp only [blockWord, Nat.mod_eq_of_lt hi, bitAt, bitsOf]
  cases hold
  · simp only [Bool.false_eq_true, if_false, beq_iff_eq, beq_eq_false_iff_ne]; omega
  · simp only [if_true, beq_iff_eq]; omega

/-- A block reset is checked; a check that passes makes it due. -/
theorem blockCtlWrite_go (e : Env) (w : Work) :
    blockCtlWrite e w (blockWord kind i hold) =
      (let u := (w.setReg aResetBlockCtl (blockWord kind i hold - 2 ^ 31)).setFld aResetStatus 15 0 (blockCheck e kind i)
       if blockCheck e kind i = 0 then blockGo e u kind i hold else u) := by
  obtain ⟨hgo, hkind, hinst, hhold⟩ := blockWord_fields hk hi hold
  simp only [blockCtlWrite, blockWord_kept hk hi, hgo, hkind, hinst, hhold, Bool.not_true, Bool.false_eq_true, if_false]

theorem blockReset_go {s : State} (hm : mainRuns s.env = true) :
    serve s (fun e w => blockCtlWrite e w (blockWord kind i hold)) = .next { s with
      w :=
        let v := 2 ^ 31 + (if hold = true then 2 ^ 30 else 0) + 2 ^ 27 * kind + i
        let u := (s.w.setReg aResetBlockCtl (v - 2 ^ 31)).setFld aResetStatus 15 0 (blockCheck s.env kind i)
        if blockCheck s.env kind i = 0 then blockGo s.env u kind i hold else u } := by
  have hw : 2 ^ 31 + (if hold = true then 2 ^ 30 else 0) + 2 ^ 27 * kind + i = blockWord kind i hold := by
    rw [blockWord, Nat.mod_eq_of_lt hi]
  rw [hw]
  exact serve_of hm (blockCtlWrite_go hk hi hold ..)

end

theorem blockCheck_eq_zero_iff (e : Env) (kind i : Nat) :
    blockCheck e kind i = 0 ↔ (kind = 1 ∧ i < 32) ∨ (kind = 2 ∧ i < 32 ∧ (recovering e = true → i ≠ recoveryPort e)) ∨
      (kind = 3 ∧ i < 8) ∨ (kind = 4 ∧ i < 80) ∨ (kind = 5 ∧ i < 8 ∧ i % 4 ≠ 3) := by
  unfold blockCheck
  by_cases hrec : recovering e = true
  · simp only [hrec, true_and, true_implies]
    split_ifs <;> simp only [false_iff, true_iff] <;> omega
  · simp only [hrec, false_and, or_false, false_implies, and_true, Bool.false_eq_true]
    split_ifs <;> simp only [false_iff, true_iff] <;> omega

/-! ### The wrapper of a held block (R679) -/

section
variable {e : Env} {w : Work} {kind i f : Nat} {b : BlockRst} (hb : getBlock w kind i = some b) (hf : b.since = some f)
include hb hf

theorem blockAnswer_early (h : e.clk.frame < f + 2) : blockAnswer e w kind i = w := by
  simp only [blockAnswer, hb, hf, if_pos h]

theorem blockAnswer_due (h : f + 2 ≤ e.clk.frame) :
    blockAnswer e w kind i = (
      let rs := blockReqs e w kind i
      let x := wrapperAnswer e { w with home := { w.home with cancelled := w.home.cancelled ++ rs.filterMap (·.tile) } } rs.contains
      putBlock x.2 { b with answered := b.answered + x.1 }) := by
  have hlate : ¬ e.clk.frame < f + 2 := by omega
  simp only [blockAnswer, hb, hf, if_neg hlate]

theorem blockGo_release (hfree : b.free = none) :
    blockGo e w kind i false = putBlock w { b with hold := false, free := some (e.clk.frame + 1) } := by
  have hheld : b.since.isSome = true ∧ b.free = none := ⟨by rw [hf]; rfl, hfree⟩
  simp only [blockGo, hb, Bool.false_eq_true, if_false, if_pos hheld]

end

theorem execBlockRelease_held {s : State} {kind i f : Nat} {b : BlockRst} (hm : mainRuns s.env = true)
    (hb : getBlock s.w kind i = some b) (hf : b.since = some f) :
    execBlockRelease kind i s = .next { s with w := blockCtlWrite s.env s.w (blockWord kind i false) } := by
  have hheld : b.since.isSome = true := by rw [hf]; rfl
  exact serve_of hm (by simp only [hb, if_pos hheld])

end Sys2Proof.Machine

open Sys2Proof Sys2Proof.Machine

/-- Settles O60: the firmware ring, a host's ring, the sweep of a set, and the block resets with their wrapper. -/
theorem faultRingsAndBlockResets : Obligations.FaultRingsAndBlockResets := by
  refine ⟨?_, ?_, ?_, ?_, ?_, ?_, ?_, ?_⟩
  · intro v s hp
    refine ⟨fun hoff => ⟨?_, fwCheck_eq_zero_or .., fwCheck_zero, ?_⟩, fun hon => ⟨?_, ?_, ?_⟩, ?_⟩
    · exact show execFaultFwEnable v s = _ from traffic_of hp (fwCtlWrite_enable v.toNat hoff)
    · exact show execFaultFwDisable v s = _ from traffic_of hp (fwCtlWrite_disable_off v.toNat hoff)
    · exact show execFaultFwEnable v s = _ from traffic_of hp (fwCtlWrite_enable_on v.toNat hon)
    · exact show execFaultFwDisable v s = _ from traffic_of hp (fwCtlWrite_disable_on v.toNat hon)
    · exact show execFaultRecordWrite s = _ from traffic_of hp (if_pos ((fwRingOn_iff s.w).mpr hon))
    · exact show execFaultFwHead v s = _ from traffic_of hp (by simp [fwHeadWrite])
  · exact fun e w r => raise_placed
  · intro a v s hp hr ho
    refine ⟨fun hoff => ⟨?_, hostRingCheck_eq_zero_or .., ?_⟩, fun hon => ⟨?_, ?_⟩, ?_⟩
    · exact show execFaultHostEnable a v s = _ from traffic_of hp ((barIn_open hr ho _).trans (hostCtlWrite_enable v.toNat hoff))
    · exact show execFaultHostDisable a v s = _ from traffic_of hp ((barIn_open hr ho _).trans (hostCtlWrite_disable_off v.toNat hoff))
    · exact show execFaultHostEnable a v s = _ from traffic_of hp ((barIn_open hr ho _).trans (hostCtlWrite_enable_on v.toNat hon))
    · exact show execFaultHostDisable a v s = _ from traffic_of hp ((barIn_open hr ho _).trans (hostCtlWrite_disable_on v.toNat hon))
    · exact show execFaultHostHead a v s = _ from traffic_of hp (barIn_open hr ho _)
  · intro a v s hp hr ho
    exact ⟨show execFaultHostEnable a v s = _ from traffic_of hp (barIn_closed hr ho _),
      show execFaultHostDisable a v s = _ from traffic_of hp (barIn_closed hr ho _),
      show execFaultHostHead a v s = _ from traffic_of hp (barIn_closed hr ho _)⟩
  · intro t k s hp
    exact ⟨show execNearCacheSetSweep t k false s = _ from traffic_of hp rfl,
      show execNearCacheSetSweep t k true s = _ from traffic_of hp rfl⟩
  · intro i hold s hm hi
    exact ⟨show execBlockResetTun i hold s = _ from blockReset_go (by decide) hi hold hm,
      show execBlockResetPort i hold s = _ from blockReset_go (by decide) hi hold hm,
      show execBlockResetTract i hold s = _ from blockReset_go (by decide) hi hold hm,
      show execBlockResetChannel i hold s = _ from blockReset_go (by decide) hi hold hm,
      show execBlockResetDaoth i hold s = _ from blockReset_go (by decide) hi hold hm⟩
  · intro e w kind i hold hnone
    exact ⟨blockCheck_eq_zero_iff e kind i, by simp only [blockGo, hnone]⟩
  · intro kind i f b s hm hb hf
    exact ⟨execBlockRelease_held hm hb hf, blockGo_release hb hf,
      fun h => show execIsolationWrapperAnswer kind i s = _ from serve_of hm (blockAnswer_early hb hf h),
      fun h => show execIsolationWrapperAnswer kind i s = _ from serve_of hm (blockAnswer_due hb hf h)⟩

end

section
/-! PROOFS. The follower (02 R53-R56), the plan latch, Kiln samples and drains that end (02 R39, 16 R603, 03 R89, R92). -/

namespace Sys2Proof.Machine

/-! ### The source and its followers -/

/-- A flit whose boundary is within P/8 moves the next boundary onto it (R53); frame and period are taken there (R54). -/
theorem timingFlit_near {e : Env} {w : Work} {frame code src boundary : Nat} (hfol : isSource e w = false)
    (hret : e.clk.returned = false) (hsrc : src = meridianSource e w) (hcode : periodLegal code) (hslew : e.clk.slewing = false)
    (hnear : (offSource e.clk.next boundary (500000 * code)).1.natAbs ≤ e.period / 8) :
    timingFlit e w frame code src boundary =
      (let d := offSource e.clk.next boundary (500000 * code)
       ({ e with clk := { e.clk with
          noFlit := 0, slewing := true, follow := some (frame + d.2, code, src), aligned := true
          next := if 0 < d.1 then e.clk.next - d.1.natAbs else e.clk.next + d.1.natAbs } }, w)) := by
  obtain ⟨hmin, hmax⟩ := hcode
  have htake : ¬(isSource e w || (src != meridianSource e w && !e.clk.returned) || decide (code < 0x04) || decide (0x80 < code)) = true := by
    simp only [hfol, hsrc, bne_self_eq_false, Bool.false_and, Bool.or_false, Bool.false_or, Bool.or_eq_true, decide_eq_true_eq]
    omega
  have hstay : ¬ e.clk.returned = true := by simp [hret]
  have hfirst : ¬ e.clk.slewing = true := by simp [hslew]
  simp only [timingFlit, if_neg htake, if_neg hstay, if_neg hfirst, Nat.min_eq_left hnear, Nat.sub_self, Nat.zero_le, decide_true]

theorem execTimingFlitReceive_run {s : State} {frame code src boundary : Nat} {e : Env} (hm : mainRuns s.env = true)
    (h : timingFlit s.env s.w frame code src boundary = (e, s.w)) :
    execTimingFlitReceive frame code src boundary s = .next { s with env := e } :=
  whole_pair ((if_pos hm).trans h)

theorem execMeridianSourceLost_silent {s : State} (hm : mainRuns s.env = true) (hfol : isSource s.env s.w = false)
    (hlate : 4 ≤ s.env.clk.noFlit) :
    execMeridianSourceLost s = .next { s with
      env := { s.env with clk := { s.env.clk with
        srcNext := some (((presentDevs s.env s.w).filter
          (fun d => d != meridianSource s.env s.w && !isLost s.w d)).headD s.env.board) } } } := by
  have hlost : (mainRuns s.env && !isSource s.env s.w && decide (4 ≤ s.env.clk.noFlit)) = true := by simp [hm, hfol, hlate]
  exact whole_pair (if_pos hlost)

/-! ### Plan latch and samples -/

theorem planLatch_stands (e : Env) (w : Work) (r : Sensors) : (planLatch e w r).kiln.next.isSome = true := rfl

theorem execPlanLatch_latches {s : State} (hp : poolRuns s.env = true) (hw : s.env.mer.writing = none) (r : Sensors) :
    execPlanLatch r s = .next { s with w := planLatch s.env s.w r } :=
  whole_pair (by simp only [if_pos hp, completeSnap, hw])

theorem foldl_products (l : List (Nat × Nat)) (n : Nat) :
    l.foldl (fun n x => n + x.1 * x.2) n = n + (l.map (fun x => x.1 * x.2)).sum := by
  induction l generalizing n with
  | nil => rfl
  | cons x t ih => rw [List.foldl_cons, ih, List.map_cons, List.sum_cons, Nat.add_assoc]

theorem execKilnSample_run {s : State} (hp : poolRuns s.env = true) (stages : List (Nat × Nat)) :
    execKilnSample stages s = .next { s with
      w :=
        let pj := (stages.map (fun x => x.1 * x.2)).sum
        { s.w with kiln := { s.w.kiln with input := s.w.kiln.input + pj, measured := s.w.kiln.measured + pj } }.setReg2
          aKilnInputEnergy ((s.w.kiln.input + pj) / 1000000 % 2 ^ 64) } :=
  traffic_of hp (by simp only [foldl_products, Nat.zero_add])

/-! ### Drains (03 R89, R92; 17 R650) -/

/-- A field below bit `n` does not see what lies above. -/
theorem bitsOf_mod_two_pow {n hi lo : Nat} (h : hi < n) (m : Nat) : bitsOf (m % 2 ^ n) hi lo = bitsOf m hi lo := by
  refine Nat.eq_of_testBit_eq fun j => ?_
  simp only [bitsOf, Nat.testBit_mod_two_pow, Nat.testBit_div_two_pow]
  by_cases hj : j < hi + 1 - lo
  · have hlow : j + lo < n := by omega
    simp only [hj, hlow, decide_true, Bool.true_and]
  · simp only [hj, decide_false, Bool.false_and]

theorem eState_setEf (x : BitVec 512) {st : Nat} (h : st < 4) : eState (setEf x 33 32 st) = st := by
  rw [eState, ef, setEf, BitVec.toNat_ofNat, bitsOf_mod_two_pow (show 33 < 512 by decide)]
  generalize x.toNat = m
  simp only [putBits, bitsOf]
  omega

theorem cadEntry_setCad_same (e : Env) (w : Work) (p : Nat) (x : BitVec 512) : cadEntry (setCad e w p x) p = x := by
  change (mget (mset w.pool.cad p x) p).getD 0 = x
  rw [mget_mset_same]
  rfl

theorem toScrubbing_scrubs (e : Env) (w : Work) (p : Nat) :
    eState (cadEntry (toScrubbing e w p) p) = stScrubbing ∧ (toScrubbing e w p).pool.zeroed.contains p = false := by
  refine ⟨?_, ?_⟩
  · change eState (cadEntry (setCad e w p (setEf (cadEntry w p) 33 32 stScrubbing)) p) = stScrubbing
    rw [cadEntry_setCad_same, eState_setEf _ (by decide)]
  · simp [toScrubbing]

/-- At its fourth boundary a REVOKING parcel enters SCRUBBING, with or without a forced drain (R92). -/
theorem revokeStep_due {e : Env} {w : Work} {p : Nat} (hst : eState (cadEntry w p) = stRevoking)
    (hdue : eRevoke (cadEntry w p) + 4 ≤ e.clk.frame) :
    revokeStep e w p = if (allReqs w).any (countsFor e p none) = true then toScrubbing e (forceDrain e w p none none) p
      else toScrubbing e w p := by
  have hnot : ¬ eState (cadEntry w p) ≠ stRevoking := fun h => h hst
  rw [revokeStep, if_neg hnot, if_pos hdue]
  cases (allReqs w).any (countsFor e p none)
  · rw [if_pos (by decide), if_neg Bool.false_ne_true]
  · rw [if_neg (by decide), if_pos rfl]

theorem execRevokeDrainForced_due {s : State} {p : Nat} (hp : poolRuns s.env = true) (hst : eState (cadEntry s.w p) = stRevoking)
    (hdue : eRevoke (cadEntry s.w p) + 4 ≤ s.env.clk.frame) :
    execRevokeDrainForced p s = .next { s with w := revokeStep s.env s.w p } :=
  traffic_of hp (if_pos ⟨hst, hdue⟩)

/-- A removed holder without outstanding requests goes with its extent (R89). -/
theorem execHolderRemovalDrainForced_idle {s : State} {p a f : Nat} (hp : poolRuns s.env = true)
    (hf : s.w.pool.removals.find? (fun x => x.1 == p && x.2.1 == a) = some (p, a, f)) (hdue : f + 4 ≤ s.env.clk.frame)
    (hidle : (allReqs s.w).any (countsFor s.env p (some a)) = false) :
    execHolderRemovalDrainForced p a s = .next { s with
      w := { s.w with pool := { s.w.pool with removals := s.w.pool.removals.filter (· != (p, a, f)) } }.setLd a
        { s.w.ld a with extents := (s.w.ld a).extents.filter (fun y => y.parcel != p) } } := by
  have hlate : ¬ s.env.clk.frame < f + 4 := by omega
  exact traffic_of hp (by simp only [hf, removalStep, if_neg hlate, hidle, Bool.false_eq_true, if_false]; rfl)

end Sys2Proof.Machine

open Sys2Proof Sys2Proof.Machine

/-- Settles O11. -/
theorem followerAlignsToTheSource : Obligations.FollowerAlignsToTheSource := by
  refine ⟨?_, ?_⟩
  · intro frame code src boundary s hm hfol hret hsrc hcode hslew hnear
    exact execTimingFlitReceive_run hm (timingFlit_near hfol hret hsrc hcode hslew hnear)
  · intro s hm hfol hlate
    exact execMeridianSourceLost_silent hm hfol hlate

/-- Settles O13: latch, sample, and the two drains. -/
theorem latchSamplesAndDrains : Obligations.LatchSamplesAndDrains := by
  refine ⟨?_, ?_, ?_, ?_⟩
  · intro r s hp hw
    exact ⟨_, execPlanLatch_latches hp hw r, rfl, rfl, planLatch_stands ..⟩
  · intro stages s hp
    exact execKilnSample_run hp stages
  · intro p s hp hst hdue
    have hend : eState (cadEntry (revokeStep s.env s.w p) p) = stScrubbing ∧
        (revokeStep s.env s.w p).pool.zeroed.contains p = false := by
      rw [revokeStep_due hst hdue]
      split <;> exact toScrubbing_scrubs ..
    exact ⟨_, execRevokeDrainForced_due hp hst hdue, rfl, rfl, hend⟩
  · intro p a f s hp hf hdue hidle
    exact execHolderRemovalDrainForced_idle hp hf hdue hidle

end

section
/-! PROOFS. Requests of hosts and peers on their way to a home (03 Table 3-5, 05, 06, 12). -/

namespace Sys2Proof.Machine

/-! ### Raising a record; carrying a message -/

/-- Raising a record changes the fault state and the drop counters alone. -/
theorem raise_eq (e : Env) (w : Work) (r : FaultRec) : ∃ g h f, raise e w r = { w with regs := g, hregs := h, flt := f } := by
  have hcopy (fr : Nat) (w : Work) (r : FaultRec) : ∃ h f, dropHostCopy fr w r = { w with hregs := h, flt := f } := by
    unfold dropHostCopy
    split
    · exact ⟨w.hregs, w.flt, rfl⟩
    · exact ⟨_, _, rfl⟩
  unfold raise
  dsimp only
  split
  · exact ⟨w.regs, w.hregs, _, rfl⟩
  · split
    · exact ⟨w.regs, w.hregs, _, rfl⟩
    · unfold holdRec
      split
      · exact ⟨w.regs, w.hregs, _, rfl⟩
      · obtain ⟨h, f, hc⟩ := hcopy e.clk.frame (dropRec e.clk.frame w { r with frame := e.clk.frame }) { r with frame := e.clk.frame }
        exact ⟨_, h, f, hc⟩

/-- `x` is `w` but for what carrying messages changes: the fabric and the charge. -/
def Carried (w x : Work) : Prop := ∃ v k, x = { w with vorir := v, kiln := k }

theorem Carried.refl (w : Work) : Carried w w := ⟨_, _, rfl⟩

theorem Carried.trans {a b c : Work} (h : Carried a b) (g : Carried b c) : Carried a c := by
  obtain ⟨_, _, rfl⟩ := h
  obtain ⟨_, _, rfl⟩ := g
  exact ⟨_, _, rfl⟩

theorem carried_carry (w : Work) (acct : Nat) (k : VKind) (src dst line : Nat) (data : Bool) (a b : Die) :
    Carried w (carry w acct k src dst line data a b) := carryOn_eq ..

theorem carried_charge (w : Work) (acct ev n : Nat) : Carried w (charge w acct ev n) := by
  obtain ⟨k, h⟩ := charge_eq w acct ev n
  exact ⟨w.vorir, k, h⟩

theorem Carried.quiet {w x : Work} (h : Carried w x) : Quiet w x := by
  obtain ⟨v, k, rfl⟩ := h
  exact ⟨v, k, w.chans.asked, w.pool.sheets, w.pool.sheetStamp, rfl⟩

theorem carried_carryReq (e : Env) (w : Work) (r : Req) (data : Bool) : Carried w (carryReq e w r data) := carried_carry ..

/-! ### The access check (Table 3-5) -/

section
variable {e : Env} {w : Work} {parcel off : Nat}

theorem accessCheck_host {a gen : Nat} {write : Bool} (hread : (p0Read e w (cadAddr e parcel) 64).isSome = true)
    (hloc : locOk e w (locate e w (cadEntry w parcel) off) = true) (hst : eState (cadEntry w parcel) = stAssigned)
    (hgen : eGen (cadEntry w parcel) = gen) (hhold : bitAt (eHolders (cadEntry w parcel)) a = true)
    (hwrite : write = true → bitAt (eWriters (cadEntry w parcel)) a = true) :
    accessCheck e w (.host a gen) parcel off write = .served (locate e w (cadEntry w parcel) off) := by
  have hmay : ¬(eState (cadEntry w parcel) ≠ stAssigned ∨ eGen (cadEntry w parcel) ≠ gen) := by simp [hst, hgen]
  have hwr : (write && !bitAt (eWriters (cadEntry w parcel)) a) = false := by
    cases write
    · rfl
    · rw [hwrite rfl]; rfl
  simp only [accessCheck, if_neg hmay, hhold, hwr, hread, hloc, Bool.not_true, Bool.false_eq_true, if_false, Bool.and_self, if_true]

/-- A host's extent that does not name its ASSIGNED parcel is refused before any place is looked up. -/
theorem accessCheck_host_refused {a gen : Nat} (write : Bool)
    (h : eState (cadEntry w parcel) ≠ stAssigned ∨ eGen (cadEntry w parcel) ≠ gen ∨ bitAt (eHolders (cadEntry w parcel)) a = false) :
    accessCheck e w (.host a gen) parcel off write = .revoked ∨ accessCheck e w (.host a gen) parcel off write = .permission := by
  by_cases hrev : eState (cadEntry w parcel) ≠ stAssigned ∨ eGen (cadEntry w parcel) ≠ gen
  · exact .inl (if_pos hrev)
  · have hno : (!bitAt (eHolders (cadEntry w parcel)) a) = true := by
      obtain h | h | h := h
      · exact absurd (.inl h) hrev
      · exact absurd (.inr h) hrev
      · rw [h]; rfl
    exact .inr ((if_neg hrev).trans (if_pos hno))

theorem accessCheck_own (write : Bool) (hread : (p0Read e w (cadAddr e parcel) 64).isSome = true)
    (hloc : locOk e w (locate e w (cadEntry w parcel) off) = true) :
    accessCheck e w .own parcel off write = .served (locate e w (cadEntry w parcel) off) := by
  simp only [accessCheck, hread, hloc, Bool.and_self, if_true]

theorem accessCheck_fwd {d gen frame : Nat} (write : Bool) (hread : (p0Read e w (cadAddr e parcel) 64).isSome = true)
    (hloc : locOk e w (locate e w (cadEntry w parcel) off) = true)
    (hst : eState (cadEntry w parcel) = stAssigned ∨
      (eState (cadEntry w parcel) = stRevoking ∨ eState (cadEntry w parcel) = stScrubbing) ∧ frame < eRevoke (cadEntry w parcel))
    (hgen : eGen (cadEntry w parcel) = gen) (hdev : bitAt (eDevSet (cadEntry w parcel)) d = true) :
    accessCheck e w (.fwd d gen frame) parcel off write = .served (locate e w (cadEntry w parcel) off) := by
  have hmay : ¬((eState (cadEntry w parcel) ≠ stAssigned ∧
      ¬((eState (cadEntry w parcel) = stRevoking ∨ eState (cadEntry w parcel) = stScrubbing) ∧ frame < eRevoke (cadEntry w parcel))) ∨
      eGen (cadEntry w parcel) ≠ gen) := by tauto
  simp only [accessCheck, if_neg hmay, hdev, hread, hloc, Bool.not_true, Bool.false_eq_true, if_false, Bool.and_self, if_true]

end

/-! ### From the resolution to the home (01 R16, 18 R679, 06 R251) -/

/-- The request that leaves for the home of place `p`, and the state in which it gets there. -/
def sentHome (e : Env) (w : Work) (r : Req) (p : Place) : Work :=
  carryReq e (looked e w r) { r with line := p.dpa / 64 } r.op.hasData

theorem quiet_sentHome (e : Env) (w : Work) (r : Req) (p : Place) : Quiet w (sentHome e w r p) :=
  (quiet_looked e w r).trans (carried_carryReq ..).quiet

section
variable {e : Env} {w : Work} {r : Req} {p : Place} {k : Nat} (h : resolvesAs k e w r p)
include h

/-- With nothing in front of its home a request is served there, by the kind of its parcel. -/
theorem checked_resolvesAs :
    checked e w r (.served (locate e w (cadEntry w r.parcel) r.off)) =
      (let q := { r with line := p.dpa / 64 }
       let u := sentHome e w r p
       if k = 1 then winHome e (dropWaiting u q) q else if k = 2 then syncHome e u q else homeReq e u q) := by
  obtain ⟨hread, hloc, hprim, hdev, hmove, hblock, hres, hcut, hkind⟩ := h
  have hq := quiet_looked e w r
  have hu := quiet_sentHome e w r p
  have hmove' : ¬ moveHolds e (looked e w r) r = true := by rw [hq.moveHolds, hmove]; exact Bool.false_ne_true
  have hblock' : ¬ blockHeld (sentHome e w r p) 3 (tractOf (sentHome e w r p) (64 * (p.dpa / 64))) = true := by
    rw [hu.blockHeld, hu.tractOf, hblock]; exact Bool.false_ne_true
  have hres' : ¬(unresolved e (sentHome e w r p) { r with line := p.dpa / 64 } && decide (r.agent < 0x7E) &&
      !takenIn (sentHome e w r p) { r with line := p.dpa / 64 }) = true := by
    have hsame : unresolved e (sentHome e w r p) { r with line := p.dpa / 64 } = unresolved e w r := hu.unresolved e _
    rw [hsame]
    obtain hres | hres := hres
    · rw [hres]; exact Bool.false_ne_true
    · rw [decide_eq_false (Nat.not_lt.mpr hres), Bool.and_false]; exact Bool.false_ne_true
  have hcut' : ¬(cutOff e (sentHome e w r p) { r with line := p.dpa / 64 } && readsLine { r with line := p.dpa / 64 }) = true := by
    have hsame : cutOff e (sentHome e w r p) { r with line := p.dpa / 64 } = cutOff e w r := hu.cutOff e _
    have hreads : readsLine { r with line := p.dpa / 64 } = readsLine r := rfl
    rw [hsame, hreads]
    obtain hcut | hcut := hcut
    · rw [hcut]; exact Bool.false_ne_true
    · rw [hcut, Bool.and_false]; exact Bool.false_ne_true
  have hstep : checked e w r (.served (locate e w (cadEntry w r.parcel) r.off)) =
      atHome e (sentHome e w r p) { r with line := p.dpa / 64 } := by
    have hp : (locate e w (cadEntry w r.parcel) r.off).primary (looked e w r) = some p := by rw [hq.primary, hprim]
    change (match (locate e w (cadEntry w r.parcel) r.off).primary (looked e w r) with
      | some p => resolved e (looked e w r) r p
      | none => refuseReq e (looked e w r) r) = _
    rw [hp]
    change resolved e (looked e w r) r p = _
    rw [resolved, if_neg hmove', if_pos hdev, toHome]
    rfl
  have hk : eKind (cadEntry (sentHome e w r p) r.parcel) = k := by rw [hu.cadEntry, hkind]
  rw [hstep, atHome, if_neg hblock', if_neg hres', if_neg hcut', hk]

end

theorem checked_resolvesHere {e : Env} {w : Work} {r : Req} {p : Place} (h : resolvesHere e w r p) :
    checked e w r (.served (locate e w (cadEntry w r.parcel) r.off)) = homed e w r p := by
  rw [checked_resolvesAs h]
  rfl

end Sys2Proof.Machine

end

section
/-! PROOFS. A host's requests at its port, and a peer's that arrive (05, 06, 12; 03 Table 3-5). -/

namespace Sys2Proof.Machine

/-! ### The port (12, 11 R450, 05 R214) -/

/-- Counting a line and processing it by IDE change the counts and the charge alone. -/
theorem taken_eq (s : State) (q : HostReq) (op : HomeOp) : ∃ c k, taken s q op = { s.w with qos := c, kiln := k } := by
  have hcount (w : Work) : ∃ c k, countLine w q.agent op = { w with qos := c, kiln := k } := by
    unfold countLine
    split
    · obtain ⟨k, h⟩ := charge_eq w q.agent 8 2
      exact ⟨w.qos, k, h⟩
    · obtain ⟨k, h⟩ := charge_eq { w with qos := { w.qos with counted := mmod w.qos.counted q.agent 0 (· + 1) } } q.agent 8 2
      exact ⟨_, k, h⟩
  obtain ⟨c, k, h⟩ := hcount s.w
  unfold taken ideLine
  rw [h]
  split
  · obtain ⟨k', h'⟩ := charge_eq { s.w with qos := c, kiln := k } q.agent 9 1
    exact ⟨c, k', h'⟩
  · exact ⟨c, k, rfl⟩

section
variable {s : State} {q : HostReq} {op : HomeOp}

/-- A request that the port takes is looked up in the extents. -/
theorem hostIn_taken (h : portTakes s (taken s q op) q) : hostIn s.env s.w q op = portServe s.env (taken s q op) q op := by
  obtain ⟨-, hreach, hroom, hplan, hon, hsec, hcoh⟩ := h
  have hfull : ¬(hostReqs s.env s.w q.agent).length ≥ max 1 (s.w.livF (aQosHostQueue q.agent) 9 0) := Nat.not_le.mpr hroom
  have hsec' : ¬((taken s q op).fld (aPortCtl (portOf q.agent)) 21 21 = 1 ∧ q.secure = false) :=
    fun ⟨h21, hno⟩ => by rw [hsec h21] at hno; cases hno
  have hreach' : ¬(!ldReachable s.w q.agent) = true := by rw [hreach]; exact Bool.false_ne_true
  have hon' : ¬(!((taken s q op).ld q.agent).enabled) = true := by rw [hon]; exact Bool.false_ne_true
  rw [hostIn, if_neg hreach', if_neg hfull]
  change (if (taken s q op).livF (aQosHostCtl q.agent) 30 30 = 0 then _ else _) = _
  rw [if_neg hplan]
  change (if (!((taken s q op).ld q.agent).enabled) = true then _ else _) = _
  rw [if_neg hon']
  change (if (taken s q op).fld (aPortCtl (portOf q.agent)) 21 21 = 1 ∧ q.secure = false then _ else _) = _
  rw [if_neg hsec']
  change (if ((taken s q op).host s.env.board q.agent).coh = .lost then _ else _) = _
  rw [if_neg hcoh]
  rfl

/-- An AtomicOp that the aperture takes is looked up in the extents (05 R195, R196). -/
theorem atomicIn_taken {o : Rmw} (h : apertureTakes s (countLine s.w q.agent (.rmw o)) q o) :
    atomicIn s.env s.w q o = portServe s.env (countLine s.w q.agent (.rmw o)) q (.rmw o) := by
  obtain ⟨-, hreach, hon, hsec, hok⟩ := h
  have hsec' : ¬((countLine s.w q.agent (.rmw o)).fld (aPortCtl (portOf q.agent)) 21 21 = 1 ∧ q.secure = false) :=
    fun ⟨h21, hno⟩ => by rw [hsec h21] at hno; cases hno
  simp only [atomicIn, hreach, hon, if_neg hsec', hok, Bool.not_true, Bool.false_eq_true, if_false]

/-- A host that may access the line has its request served at the line's home. -/
theorem portServe_home {e : Env} {w : Work} {x : Extent} {p : Place} (hx : extentOf (w.ld q.agent) q.lda = some x)
    (hmay : hostMay w q.agent x (hostWrites op)) (hres : resolvesHere e w (portReq e w q x op) p) :
    portServe e w q op = homed e w (portReq e w q x op) p := by
  obtain ⟨hst, hgen, hhold, hwrite⟩ := hmay
  have hread := hres.1
  have hloc := hres.2.1
  have hserved : accessCheck e w (.host q.agent x.gen) x.parcel (q.lda - x.lda) (hostWrites op) =
      .served (locate e w (cadEntry w x.parcel) (q.lda - x.lda)) :=
    accessCheck_host hread hloc hst hgen hhold hwrite
  rw [← checked_resolvesHere hres]
  simp only [portServe, hx, hserved]
  rfl

theorem hostIn_home {x : Extent} {p : Place} (htake : portTakes s (taken s q op) q)
    (hx : extentOf ((taken s q op).ld q.agent) q.lda = some x) (hmay : hostMay (taken s q op) q.agent x (hostWrites op))
    (hres : resolvesHere s.env (taken s q op) (portReq s.env (taken s q op) q x op) p) :
    traffic s (fun e w => hostIn e w q op) =
      .next { s with w := homed s.env (taken s q op) (portReq s.env (taken s q op) q x op) p } :=
  traffic_of htake.1 ((hostIn_taken htake).trans (portServe_home hx hmay hres))

theorem atomicIn_home {o : Rmw} {x : Extent} {p : Place} (htake : apertureTakes s (countLine s.w q.agent (.rmw o)) q o)
    (hx : extentOf ((countLine s.w q.agent (.rmw o)).ld q.agent) q.lda = some x)
    (hmay : hostMay (countLine s.w q.agent (.rmw o)) q.agent x true)
    (hres : resolvesHere s.env (countLine s.w q.agent (.rmw o))
      (portReq s.env (countLine s.w q.agent (.rmw o)) q x (.rmw o)) p) :
    traffic s (fun e w => atomicIn e w q o) =
      .next { s with
        w :=
          let w := countLine s.w q.agent (.rmw o)
          homed s.env w (portReq s.env w q x (.rmw o)) p } :=
  traffic_of htake.1 ((atomicIn_taken htake).trans (portServe_home hx hmay hres))

end

/-! ### What a host is told when it may not access a line (Table 3-5, R86) -/

/-- The host gets `o`, and pool, directory and home agents are as they were. -/
def ToldOnly (w x : Work) (o : Out) : Prop := x.pool = w.pool ∧ x.dir = w.dir ∧ x.home = w.home ∧ x.out = o :: w.out

/-- The refusal that a host of this device gets under its tag: poisoned data, or an error completion. -/
def refusal (q : HostReq) (op : HomeOp) (load : Nat) : Out :=
  if isRead op then .hostData q.agent q.tag .cmp ⟨0, true⟩ load else .hostCmp q.agent q.tag true load

/-- The home-side refusal of a host's read or write. -/
theorem refuseReq_told {e : Env} {w : Work} {q : HostReq} {x : Extent} {op : HomeOp} {u : Work} (ha : q.agent < 0x40)
    (hop : (∃ m, op = .rd m) ∨ ∃ m d k f, op = .wr m d k f) :
    ∃ load, ToldOnly w (refuseReq e w (portReq e u q x op)) (refusal q op load) := by
  obtain ⟨m, rfl⟩ | ⟨m, d, k, f, rfl⟩ := hop
  · refine ⟨devLoad e w q.agent, ?_⟩
    have hstep : refuseReq e w (portReq e u q x (.rd m)) =
        noteLatency e (emitData e w q.agent q.tag .cmp ⟨0, true⟩) q.agent (portReq e u q x (.rd m)).lat e.clk.now := by
      change (if e.board = e.board then (if q.agent < 0x40 then _ else _) else _) = _
      rw [if_pos rfl, if_pos ha]
      rfl
    rw [hstep]
    exact ⟨rfl, rfl, rfl, rfl⟩
  · refine ⟨devLoad e w q.agent, ?_⟩
    have hstep : refuseReq e w (portReq e u q x (.wr m d k f)) = emitCmp e w q.agent q.tag true := by
      change (if e.board = e.board then (if q.agent < 0x40 then _ else _) else _) = _
      rw [if_pos rfl, if_pos ha]
      rfl
    rw [hstep]
    exact ⟨rfl, rfl, rfl, rfl⟩

theorem ToldOnly.of_raise {e : Env} {w x : Work} {r : FaultRec} {o : Out} (h : ToldOnly (raise e w r) x o) : ToldOnly w x o := by
  obtain ⟨g, hr, f, hraise⟩ := raise_eq e w r
  rw [hraise] at h
  exact h

/-- The record of an address in no extent (R86). -/
def noExtentRec (e : Env) (q : HostReq) : FaultRec :=
  { ty := 0x3002, dev := e.board, agent := q.agent, coal := true, req := true, host := some q.agent }

/-- Without an extent, or with one that the host may not use, the port refuses. -/
theorem portServe_told {e : Env} {w : Work} {q : HostReq} {op : HomeOp} (ha : q.agent < 0x40)
    (hop : (∃ m, op = .rd m) ∨ ∃ m d k f, op = .wr m d k f)
    (h : extentOf (w.ld q.agent) q.lda = none ∨ ∃ x, extentOf (w.ld q.agent) q.lda = some x ∧
      (eState (cadEntry w x.parcel) ≠ stAssigned ∨ eGen (cadEntry w x.parcel) ≠ x.gen ∨
        bitAt (eHolders (cadEntry w x.parcel)) q.agent = false)) :
    ∃ load, ToldOnly w (portServe e w q op) (refusal q op load) := by
  obtain hnone | ⟨x, hx, hno⟩ := h
  · have hserve : portServe e w q op = noExtent e w q op := by simp only [portServe, hnone]
    obtain ⟨load, htold⟩ : ∃ load, ToldOnly (raise e w (noExtentRec e q)) (noExtent e w q op) (refusal q op load) := by
      refine ⟨devLoad e (raise e w (noExtentRec e q)) q.agent, ?_⟩
      obtain ⟨m, rfl⟩ | ⟨m, d, k, f, rfl⟩ := hop
      · exact ⟨rfl, rfl, rfl, rfl⟩
      · exact ⟨rfl, rfl, rfl, rfl⟩
    rw [hserve]
    exact ⟨load, htold.of_raise⟩
  · have hserve : portServe e w q op = checked e w (portReq e w q x op)
        (accessCheck e w (.host q.agent x.gen) x.parcel (q.lda - x.lda) (hostWrites op)) := by
      simp only [portServe, hx]
      rfl
    rw [hserve]
    obtain hc | hc := accessCheck_host_refused (off := q.lda - x.lda) (hostWrites op) hno
    · rw [hc]
      obtain ⟨load, htold⟩ := refuseReq_told (e := e) (u := w) (x := x)
        (w := raiseRefusal e w .revoked x.parcel (q.lda - x.lda) e.board q.agent ((portReq e w q x op).hostOf e)) ha hop
      exact ⟨load, htold.of_raise⟩
    · rw [hc]
      obtain ⟨load, htold⟩ := refuseReq_told (e := e) (u := w) (x := x)
        (w := raiseRefusal e w .permission x.parcel (q.lda - x.lda) e.board q.agent ((portReq e w q x op).hostOf e)) ha hop
      exact ⟨load, htold.of_raise⟩

theorem agent_of_reachable {w : Work} {a : Nat} (h : ldReachable w a = true) : a < 0x40 := by
  simp only [ldReachable, ldExists, Bool.and_eq_true, decide_eq_true_eq] at h
  exact h.1.1

/-- A request of a host that may not access its line changes nothing but what the host is told. -/
theorem hostIn_refused {s : State} {q : HostReq} {op : HomeOp} (htake : portTakes s (taken s q op) q)
    (hop : (∃ m, op = .rd m) ∨ ∃ m d k f, op = .wr m d k f)
    (h : extentOf ((taken s q op).ld q.agent) q.lda = none ∨ ∃ x, extentOf ((taken s q op).ld q.agent) q.lda = some x ∧
      (eState (cadEntry (taken s q op) x.parcel) ≠ stAssigned ∨ eGen (cadEntry (taken s q op) x.parcel) ≠ x.gen ∨
        bitAt (eHolders (cadEntry (taken s q op) x.parcel)) q.agent = false)) :
    ∃ w load, traffic s (fun e w => hostIn e w q op) = .next { s with w := w } ∧ ToldOnly s.w w (refusal q op load) := by
  obtain ⟨load, htold⟩ := portServe_told (e := s.env) (agent_of_reachable htake.2.1) hop h
  obtain ⟨c, k, hw⟩ := taken_eq s q op
  refine ⟨_, load, traffic_of htake.1 (hostIn_taken htake), ?_⟩
  rw [hw] at htold ⊢
  exact htold

/-! ### A peer's request that arrives (R82, R83, R233) -/

theorem arrive_home {e : Env} {w : Work} {r : Req} {p : Place} (hdev : r.dev ≠ e.board) (hmay : 0x7E ≤ r.agent ∨ peerMay w r.dev r)
    (hres : resolvesHere e w r p) : arrive e w r = homed e w r p := by
  have hserved : accessCheck e w (if 0x7E ≤ r.agent then .own else .fwd r.dev r.gen r.frame) r.parcel r.off (opWrites r.op) =
      .served (locate e w (cadEntry w r.parcel) r.off) := by
    by_cases hown : 0x7E ≤ r.agent
    · rw [if_pos hown]
      exact accessCheck_own _ hres.1 hres.2.1
    · obtain hagent | ⟨hst, hgen, hin⟩ := hmay
      · exact absurd hagent hown
      · rw [if_neg hown]
        exact accessCheck_fwd _ hres.1 hres.2.1 hst hgen hin
  rw [← checked_resolvesHere hres, ← hserved]
  simp only [arrive, if_neg hdev]

section
variable {h : Hdr} {x : Ext} {p : Place} {s : State} {op : HomeOp}

theorem fwdIn_home (hfrom : fromPeer s h [x.agent]) (hdev : x.dev ≠ s.env.board)
    (hmay : 0x7E ≤ x.agent ∨ peerMay (reported s.env s.w x.dev x.agent) x.dev (msgReq h x op 0))
    (hres : resolvesHere s.env (reported s.env s.w x.dev x.agent) (msgReq h x op 0) p) :
    fwdIn h x op s = .next { s with w := homed s.env (reported s.env s.w x.dev x.agent) (msgReq h x op 0) p } := by
  have harrive := arrive_home (r := msgReq h x op 0) hdev hmay hres
  rw [← harrive]
  exact peerTraffic_run hfrom

theorem proxyIn_home {line : Nat} (hfrom : fromPeer s h [x.agent]) (hdev : x.dev ≠ s.env.board)
    (hmay : 0x7E ≤ x.agent ∨ peerMay s.w x.dev (msgReq h x op line)) (hres : resolvesHere s.env s.w (msgReq h x op line) p) :
    proxyIn h x op line s = .next { s with w := homed s.env s.w (msgReq h x op line) p } := by
  have harrive := arrive_home (r := msgReq h x op line) hdev hmay hres
  rw [← harrive]
  exact peerTraffic_run hfrom

theorem execPrdcur_home {line : Nat} (hfrom : fromPeer s h [x.agent]) (hdev : x.dev ≠ s.env.board)
    (hmay : 0x7E ≤ x.agent ∨ peerMay s.w x.dev (msgReq h x .pRdCur line))
    (hres : resolvesHere s.env s.w (msgReq h x .pRdCur line) p) (hsec : secondaryHere s.env s.w h.dev x line = false) :
    execPrdcur h x line s = .next { s with w := homed s.env s.w (msgReq h x .pRdCur line) p } := by
  have harrive := arrive_home (r := msgReq h x .pRdCur line) hdev hmay hres
  have hno : ¬ secondaryHere s.env s.w h.dev x line = true := by rw [hsec]; exact Bool.false_ne_true
  rw [← harrive]
  exact (peerTraffic_run hfrom).trans (by rw [if_neg hno])

theorem execPrdcur_secondary {line : Nat} (hfrom : fromPeer s h [x.agent]) (hsec : secondaryHere s.env s.w h.dev x line = true) :
    execPrdcur h x line s = .next { s with
      w :=
        let a := readSecondary s.env s.w h.dev x.parcel line
        a.2.emit (.peer { op := 0x20, dev := h.dev, dst := h.src, tag := h.tag, line := line, args := [0], data := some a.1 }) } :=
  (peerTraffic_run hfrom).trans (by rw [if_pos hsec])

end

/-- A secondary copy whose channel serves is read as it stands (04 R115). -/
theorem readSecondary_data {e : Env} {w : Work} {dev parcel line : Nat} {d : Payload} (hserve : serving w line = true)
    (hread : rawRead w (keyOf e w parcel) line = some d) : (readSecondary e w dev parcel line).1 = d := by
  have hcame : Quiet w (carryFromPeer e w acctDev .request dev line false) := (carried_carry ..).quiet
  have hmem := hcame.trans (quiet_memRead _ acctDev line 1)
  have hserve' : ¬(!serving (carryFromPeer e w acctDev .request dev line false) line) = true := by
    rw [hcame.serving, hserve]; exact Bool.false_ne_true
  simp only [readSecondary, if_neg hserve', hmem.rawRead, hread]

end Sys2Proof.Machine

open Sys2Proof Sys2Proof.Machine

/-- Settles O14. -/
theorem hostRequestsReachTheirHome : Obligations.HostRequestsReachTheirHome := by
  refine ⟨?_, ?_⟩
  · intro q x p s op w r htake hx hmay hres t
    have hrun : traffic s (fun e w => hostIn e w q op) = .next t := hostIn_home htake hx hmay hres
    refine ⟨?_, ?_, ?_, ?_, ?_, ?_⟩
    · rintro rfl
      exact ⟨hrun, hrun⟩
    · rintro rfl
      exact hrun
    · rintro rfl
      exact hrun
    · rintro mv d rfl
      exact hrun
    · rintro mv d mask rfl
      exact hrun
    · rintro rfl
      exact hrun
  · intro q x p s o w r htake hx hmay hres t
    have hrun : traffic s (fun e w => atomicIn e w q o) = .next t := atomicIn_home htake hx hmay hres
    refine ⟨?_, ?_, ?_⟩
    · rintro n v rfl
      exact hrun
    · rintro n v rfl
      exact hrun
    · rintro n c v rfl
      exact hrun

/-- Settles O15. -/
theorem refusedHostRequestsTouchNothing : Obligations.RefusedHostRequestsTouchNothing := by
  intro q s op w htake hno
  refine ⟨?_, ?_⟩
  · intro c hc
    have hop : ∃ m, op = .rd m := by
      obtain ⟨h, -⟩ | ⟨h, -⟩ | ⟨h, -⟩ | ⟨h, -⟩ := hc <;> exact ⟨_, h⟩
    obtain ⟨w', load, hrun, hpool, hdir, hhome, hout⟩ := hostIn_refused htake (.inl hop) hno
    have hexec : exec c s = .next { s with w := w' } := by
      obtain ⟨rfl, rfl⟩ | ⟨rfl, rfl⟩ | ⟨rfl, rfl⟩ | ⟨rfl, rfl⟩ := hc <;> exact hrun
    obtain ⟨m, rfl⟩ := hop
    exact ⟨_, .cmp, load, hexec, rfl, hpool, hdir, hhome, hout⟩
  · intro mv d mask c hc
    have hop : ∃ m d k f, op = .wr m d k f := by
      obtain ⟨h, -⟩ | ⟨h, -⟩ := hc <;> exact ⟨_, _, _, _, h⟩
    obtain ⟨w', load, hrun, hpool, hdir, hhome, hout⟩ := hostIn_refused htake (.inr hop) hno
    have hexec : exec c s = .next { s with w := w' } := by
      obtain ⟨rfl, rfl⟩ | ⟨rfl, rfl⟩ := hc <;> exact hrun
    obtain ⟨m, d, k, f, rfl⟩ := hop
    exact ⟨_, load, hexec, rfl, hpool, hdir, hhome, hout⟩

/-- Settles O16: forwarded requests, a proxy's requests, and the read of a secondary copy. -/
theorem peerRequestsReachTheirHome : Obligations.PeerRequestsReachTheirHome := by
  refine ⟨?_, ?_, ?_⟩
  · intro h x p s op w r hfrom hdev hmay hres t
    have hrun : fwdIn h x op s = .next t := fwdIn_home hfrom hdev hmay hres
    refine ⟨?_, ?_, ?_, ?_, ?_, ?_, ?_, ?_, ?_, ?_⟩
    · rintro rfl; exact hrun
    · rintro rfl; exact hrun
    · rintro rfl; exact hrun
    · rintro mv d rfl; exact hrun
    · rintro mv d mask rfl; exact hrun
    · rintro rfl; exact hrun
    · rintro o rfl; exact hrun
    · rintro rfl; exact hrun
    · rintro d mask rfl; exact hrun
    · rintro o rfl; exact hrun
  · intro h x line p s op r hfrom hdev hmay hres t
    have hrun : proxyIn h x op line s = .next t := proxyIn_home hfrom hdev hmay hres
    refine ⟨?_, ?_, ?_, ?_, ?_, ?_, ?_⟩
    · rintro rfl hsec; exact execPrdcur_home hfrom hdev hmay hres hsec
    · rintro rfl; exact hrun
    · rintro rfl; exact hrun
    · rintro rfl; exact hrun
    · rintro d mask rfl; exact hrun
    · rintro d rfl; exact hrun
    · rintro rfl; exact hrun
  · intro h x line s hfrom hsec
    exact ⟨execPrdcur_secondary hfrom hsec, fun hserve d hread => readSecondary_data hserve hread⟩

end

section
/-! PROOFS. Lines of hosts at their home (05 R190-R192, 04 R107), suspect and lost hosts (R203-R211), and the proxy's answers (06 Table 6-3). -/

namespace Sys2Proof.Machine

/-! ### Retries and conflicts (05 R190, R192) -/

theorem carried_carryOut (e : Env) (w : Work) (r : Req) (dev : Nat) (data : Bool) : Carried w (carryOut e w r dev data) :=
  (carried_charge ..).trans (carried_carry ..)

theorem carried_carryBack (e : Env) (w : Work) (r : Req) (dev : Nat) (data : Bool) : Carried w (carryBack e w r dev data) :=
  carried_carry ..

theorem carried_carryDatum (e : Env) (w : Work) (k : VKind) (dev agent : Nat) : Carried w (carryDatum e w k dev agent) :=
  carryOn_eq ..

theorem home_setConflicts {w : Work} {l : List (Nat × Nat)} (h : w.home.conflicts = l) :
    ({ w with home := { w.home with conflicts := l } } : Work) = w := by rw [← h]

theorem dueConflicts_none {w : Work} (e : Env) (h : w.home.conflicts = []) : dueConflicts e w = w := by
  simp only [dueConflicts, h, List.filter_nil, List.foldl_nil]
  exact home_setConflicts h

section
variable {e : Env} {w : Work} {line dev agent tag d : Nat} {r : Req}

/-- A request retried here before its home goes to it again in RTY. -/
theorem reissue_waiting (h : w.home.waiting.find? (fun r => r.line == line && r.dev == dev && r.agent == agent && r.tag == tag) = some r) :
    reissue e w line dev agent tag = toHome e w { r with rty := true } := by
  simp only [reissue, h]

/-- A request that a peer's home retried is sent to that home again in RTY; nothing but the fabric and the charge changes besides. -/
theorem reissue_forwarded
    (hwait : w.home.waiting.find? (fun r => r.line == line && r.dev == dev && r.agent == agent && r.tag == tag) = none)
    (hfwd : w.home.forwarded = [(d, r)]) (hdev : r.dev = dev) (hagent : r.agent = agent) (htag : r.tag = tag)
    (hconf : w.home.conflicts = []) :
    ∃ v k, reissue e w line dev agent tag = { w with
      vorir := v, kiln := k, home := { w.home with forwarded := [(d, { r with lat := 3, rty := true })] }
      out := .peer (fwdMsg { r with lat := 3, rty := true } d) :: w.out } := by
  have hfind : w.home.forwarded.find? (fun x => x.2.dev == dev && x.2.agent == agent && x.2.tag == tag) = some (d, r) := by
    simp [hfwd, hdev, hagent, htag]
  have hmap : w.home.forwarded.map (fun x => if x = (d, r) then (d, { r with lat := 3, rty := true }) else x) =
      [(d, { r with lat := 3, rty := true })] := by simp [hfwd]
  obtain ⟨v, k, hback⟩ := carried_carryBack e w r d false
  simp only [reissue, hwait, hfind, hmap, hback]
  obtain ⟨v', k', hout⟩ := carried_carryOut e
    { w with vorir := v, kiln := k, home := { w.home with forwarded := [(d, { r with lat := 3, rty := true })] } }
    { r with lat := 3, rty := true } d r.op.hasData
  rw [hout, dueConflicts_none]
  · exact ⟨v', k', rfl⟩
  · exact hconf

end

/-- A conflict whose host has nothing on its way is acknowledged at once; another one waits (R192). -/
theorem dueConflicts_one {w : Work} (e : Env) (agent line : Nat) (h : w.home.conflicts = []) :
    dueConflicts e { w with home := { w.home with conflicts := [(agent, line)] } } =
      if w.home.forwarded.any (fun y => y.2.dev == e.board && y.2.agent == agent && y.2.line == line && !y.2.rty) = true then
        { w with home := { w.home with conflicts := [(agent, line)] } }
      else w.emit (.biConflictAck agent line) := by
  cases hahead : w.home.forwarded.any (fun y => y.2.dev == e.board && y.2.agent == agent && y.2.line == line && !y.2.rty)
  · simp only [dueConflicts, List.filter_cons, hahead, Bool.not_false, if_true, List.filter_nil, List.foldl_cons, List.foldl_nil,
      Bool.false_eq_true, if_false]
    rw [home_setConflicts h]
  · simp only [dueConflicts, List.filter_cons, hahead, Bool.not_true, Bool.false_eq_true, if_false, List.filter_nil, List.foldl_nil,
      if_true]

theorem execBiconflict_up {s : State} {agent line : Nat} (hp : poolRuns s.env = true) (hup : headUp s.w agent = true)
    (h : s.w.home.conflicts = []) :
    execBiconflict agent line s = .next { s with
      w := if s.w.home.forwarded.any (fun y => y.2.dev == s.env.board && y.2.agent == agent && y.2.line == line && !y.2.rty) = true then
          { s.w with home := { s.w.home with conflicts := [(agent, line)] } }
        else s.w.emit (.biConflictAck agent line) } := by
  refine traffic_of hp ((if_pos hup).trans ?_)
  rw [← dueConflicts_one s.env agent line h, h]
  rfl

/-! ### Answers to snoops (05 R191, 06 R223) -/

section
variable {s : State} {agent line : Nat} {resp : SnpResp} (hp : poolRuns s.env = true) (hup : headUp s.w agent = true)
include hp hup

theorem execBirsp_own {x : Txn} (h : s.w.home.txns.find? (fun t => t.req.line == line && t.waits.any (isHost s.env.board agent)) = some x) :
    execBirsp agent line resp s = .next { s with w := pagesDone s.env (hostAnswer s.env s.w x s.env.board agent resp) } :=
  traffic_of hp (by simp only [birsp, hup, h, Bool.not_true, Bool.false_eq_true, if_false])

theorem execBirsp_relayed {y : Relay} (htxn : s.w.home.txns = []) (hrel : s.w.home.relays = [y]) (hlo : y.line ≤ line)
    (hhi : line < y.line + max 1 y.lines) (hin : y.agents.contains (relayIx y line agent) = true) :
    execBirsp agent line resp s = .next { s with w := relayAnswer s.env s.w y agent line resp } := by
  have hfind : [y].find? (fun y => decide (y.line ≤ line) && decide (line < y.line + max 1 y.lines) &&
      y.agents.contains (relayIx y line agent)) = some y := by
    have hy : (decide (y.line ≤ line) && decide (line < y.line + max 1 y.lines) && y.agents.contains (relayIx y line agent)) = true := by
      rw [hin, decide_eq_true hlo, decide_eq_true hhi]; rfl
    simp only [List.find?_cons, hy]
  exact traffic_of hp (by simp only [birsp, hup, htxn, hrel, hfind, List.find?_nil, Bool.not_true, Bool.false_eq_true, if_false])

end

/-! ### Near-cache lines (04 R107, R108) -/

theorem ncGet_ncDrop_same (w : Work) (dev line : Nat) : ncGet (ncDrop w dev line) dev line = none := mget_mdel_same ..

theorem writeBackLine_clean {e : Env} {w : Work} {line : Nat} {n : NcLine} (hn : ncGet w e.board line = some n) (hc : n.dirty = false) :
    writeBackLine e w line = w := by
  simp only [writeBackLine, hn, hc, Bool.not_false, if_true]

section
variable {s : State} {line : Nat} {n : NcLine} (hp : poolRuns s.env = true) (hn : ncGet s.w s.env.board line = some n)
include hp hn

theorem execNearCacheEvict_held :
    execNearCacheEvict line s = .next { s with w := ncDrop (writeBackLine s.env s.w line) s.env.board line } := by
  have hsome : (ncGet s.w s.env.board line).isSome = true := by rw [hn]; rfl
  exact traffic_of hp ((if_pos hsome).trans (if_pos rfl))

theorem execStripeWriteBack_dirty (hcls : eClass (cadEntry s.w n.parcel) = 1) (hd : n.dirty = true) :
    execStripeWriteBack line s = .next { s with
      w :=
        let d := dirtyOf s.env s.w (stripeAt s.w line).1
        let a := writeStripe s.env s.w (accOwn n.parcel s.env) (keyOf s.env s.w n.parcel) (stripeAt s.w line).1 d
        if a.1 then d.foldl (fun w x => ncClean w s.env.board (stripeLine w (stripeAt s.w line).1 x.1)) a.2 else a.2 } :=
  traffic_of hp (by simp only [hn, if_pos hcls, writeBackLine, hd, Bool.not_true, Bool.false_eq_true, if_false])

end

/-! ### Suspect and lost hosts (05 R203-R211, 06 R247) -/

theorem host_setHost_same (w : Work) (dev agent : Nat) (h : HostSt) : (w.setHost dev agent h).host dev agent = h := by
  simp only [Work.setHost, Work.host, mgetD, mget_mset_same]
  rfl

theorem becomeSuspect_active {e : Env} {w : Work} {a : Nat} (h : (w.host e.board a).coh = .active) :
    becomeSuspect e w a =
      w.setHost e.board a { coh := .suspect, since := e.clk.start, deadline := some (e.clk.start + gracePs w) } := if_pos h

theorem queueSuspect_active {e : Env} {w : Work} {a : Nat} (h : (w.host e.board a).coh = .active)
    (hdue : w.due.contains (.suspect a) = false) : queueSuspect e w a = w.queue (.suspect a) := if_pos ⟨h, hdue⟩

theorem graceEnd_due {e : Env} {w : Work} {a d : Nat} (hc : (w.host e.board a).coh = .suspect)
    (hd : (w.host e.board a).deadline = some d) (h : d ≤ e.clk.start) :
    graceEnd e w a = if mayReturn e w a = true then becomeActive e w e.board a else becomeLost e w a := by
  simp only [graceEnd, hc, hd, if_pos h]

/-- The state in which a sweep for a host that is named nowhere any more has ended. -/
def sweptHost (e : Env) (w : Work) (dev agent : Nat) : Work :=
  let w := { w with dir := { w.dir with sweeps := w.dir.sweeps.filter (fun x => !(x.dev == dev && x.agent == some agent)) } }
  if dev = e.board then
    w.setHost dev agent { w.host dev agent with sweepsOpen := (w.host dev agent).sweepsOpen.filter (· != e.board) }
  else (carryDatum e w .answer dev 0x7F).emit (.peer { op := 0x51, dev := dev, args := [agent] })

theorem execHostLostSweep_over {s : State} {dev agent : Nat} (count : Nat) (hp : poolRuns s.env = true)
    (hopen : s.w.dir.sweeps.any (fun x => x.dev == dev && x.agent == some agent) = true)
    (hnone : sweepLines s.w (fun d => !d.coarse && d.names (holderOf dev agent)) = []) :
    execHostLostSweep dev agent count s = .next { s with w := sweptHost s.env s.w dev agent } :=
  traffic_of hp (by
    simp only [hopen, sweepStep, hnone, List.take_nil, List.foldl_nil, List.isEmpty_nil, Bool.not_true, Bool.false_eq_true, if_false]
    rfl)

theorem sweptHost_sweeps (e : Env) (w : Work) (dev agent : Nat) :
    (sweptHost e w dev agent).dir.sweeps = w.dir.sweeps.filter (fun x => !(x.dev == dev && x.agent == some agent)) := by
  unfold sweptHost
  dsimp only
  split
  · rfl
  · obtain ⟨v, k, h⟩ := carried_carryDatum e
      { w with dir := { w.dir with sweeps := w.dir.sweeps.filter (fun x => !(x.dev == dev && x.agent == some agent)) } } .answer dev 0x7F
    rw [h]
    rfl

theorem sweptHost_own {e : Env} (w : Work) {dev : Nat} (agent : Nat) (h : dev = e.board) :
    ((sweptHost e w dev agent).host dev agent).sweepsOpen = (w.host dev agent).sweepsOpen.filter (· != e.board) := by
  simp only [sweptHost, if_pos h, host_setHost_same]
  rfl

theorem sweptHost_peer {e : Env} (w : Work) {dev : Nat} (agent : Nat) (h : dev ≠ e.board) :
    (sweptHost e w dev agent).out = .peer { op := 0x51, dev := dev, args := [agent] } :: w.out := by
  obtain ⟨v, k, hc⟩ := carried_carryDatum e
    { w with dir := { w.dir with sweeps := w.dir.sweeps.filter (fun x => !(x.dev == dev && x.agent == some agent)) } } .answer dev 0x7F
  simp only [sweptHost, if_neg h, hc]
  rfl

/-! ### The proxy's answers (06 Table 6-3, R227) -/

/-- The snoop message of a header. -/
def snoopMsg (op : Nat) (h : Hdr) (line : Nat) : PeerMsg :=
  { op := op, dev := h.dev, src := h.src, dst := h.dst, tag := h.tag, line := line }

theorem ncGet_carried {w x : Work} (h : Carried w x) (dev line : Nat) : ncGet x dev line = ncGet w dev line := by
  obtain ⟨v, k, rfl⟩ := h
  rfl

theorem ownPending_carried {w x : Work} (h : Carried w x) (dev line : Nat) : ownPending x dev line = ownPending w dev line := by
  obtain ⟨v, k, rfl⟩ := h
  rfl

section
variable {h : Hdr} {line : Nat} {s : State} (hfrom : fromPeer s h [])
include hfrom

/-- While a write of this proxy to the line is outstanding the snoop waits for it (R227). -/
theorem snoopIn_waits (op : Nat) (hpend : ownPending s.w h.dev line = true) :
    snoopIn op h line s = .next { s with
      w :=
        let came := carryRelay s.env s.w h.dev 0x7F line
        { came with home := { came.home with snoops := came.home.snoops ++ [snoopMsg op h line] } } } := by
  have hp : ownPending (carryRelay s.env s.w h.dev 0x7F line) h.dev line = true :=
    (ownPending_carried (carried_carry ..) ..).trans hpend
  exact (peerTraffic_run hfrom).trans (by simp only [hp, if_true]; rfl)

theorem snoopIn_answers (op : Nat) (hpend : ownPending s.w h.dev line = false) :
    snoopIn op h line s = .next { s with
      w := answerSnoop s.env (carryRelay s.env s.w h.dev 0x7F line) (snoopMsg op h line) } := by
  have hp : ownPending (carryRelay s.env s.w h.dev 0x7F line) h.dev line = false :=
    (ownPending_carried (carried_carry ..) ..).trans hpend
  exact (peerTraffic_run hfrom).trans (by simp only [hp, Bool.false_eq_true, if_false]; rfl)

end

/-- The answer's way back across the fabric. -/
def snoopBack (e : Env) (w : Work) (h : Hdr) (line : Nat) : Work :=
  carryRelayed e (carryRelay e w h.dev 0x7F line) h.dev 0x7F line (ncGet w h.dev line).isSome

section
variable {e : Env} {w : Work} {h : Hdr} {line : Nat}

theorem answerSnoop_none (op : Nat) (hn : ncGet w h.dev line = none) :
    answerSnoop e (carryRelay e w h.dev 0x7F line) (snoopMsg op h line) =
      (snoopBack e w h line).emit (prspMsg (snoopMsg op h line) .i false none) := by
  have hcame : ncGet (carryRelay e w h.dev 0x7F line) h.dev line = ncGet w h.dev line := ncGet_carried (carried_carry ..) ..
  have hback : ncGet (snoopBack e w h line) h.dev line = none := by
    rw [snoopBack, carryRelayed, ncGet_carried (carried_carry ..), hcame, hn]
  simp only [answerSnoop, snoopMsg, hcame]
  change (match ncGet (snoopBack e w h line) h.dev line with | none => _ | some n => _) = _
  rw [hback]
  rfl

theorem answerSnoop_held (op : Nat) {n : NcLine} (hn : ncGet w h.dev line = some n) :
    answerSnoop e (carryRelay e w h.dev 0x7F line) (snoopMsg op h line) =
      (let b := snoopBack e w h line
       let m := snoopMsg op h line
       let d : Payload := ⟨n.data, n.poison⟩
       let dirty := n.st == some .m || n.st == some .o
       if op = 0x18 then (ncDrop b h.dev line).emit (prspMsg m .i dirty (if dirty || n.st == some .e then some d else none))
       else if op = 0x19 then
         let st : PeerSt := if dirty then .o else .s
         (ncPut b h.dev line { n with st := some st }).emit (prspMsg m st dirty (some d))
       else if op = 0x1A then b.emit (prspMsg m (n.st.getD .i) dirty (some d))
       else (ncPut b h.dev line { n with st := some .o, dirty := true }).emit (prspMsg m .o true (some d))) := by
  have hcame : ncGet (carryRelay e w h.dev 0x7F line) h.dev line = ncGet w h.dev line := ncGet_carried (carried_carry ..) ..
  have hback : ncGet (snoopBack e w h line) h.dev line = some n := by
    rw [snoopBack, carryRelayed, ncGet_carried (carried_carry ..), hcame, hn]
  simp only [answerSnoop, snoopMsg, hcame]
  change (match ncGet (snoopBack e w h line) h.dev line with | none => _ | some n => _) = _
  rw [hback]
  rfl

end

end Sys2Proof.Machine

open Sys2Proof Sys2Proof.Machine

/-- Settles O17. -/
theorem hostLinesAtTheirHome : Obligations.HostLinesAtTheirHome := by
  refine ⟨?_, ?_, ?_, ?_, ?_, ?_, ?_, ?_⟩
  · intro q s
    change traffic s (fun _ w => w) = .next s
    simp only [traffic, ite_self]
  · intro line dev agent tag r s hp h
    exact show execRetry line dev agent tag s = _ from traffic_of hp (reissue_waiting h)
  · intro line dev agent tag d r s hp hwait hfwd hdev hagent htag hconf
    obtain ⟨v, k, h⟩ := reissue_forwarded (e := s.env) hwait hfwd hdev hagent htag hconf
    exact ⟨_, show execRetry line dev agent tag s = _ from traffic_of hp h, rfl, rfl, rfl, rfl, rfl⟩
  · intro agent line resp x s hp hup h
    exact execBirsp_own hp hup h
  · intro agent line resp y s hp hup htxn hrel hlo hhi hin
    exact execBirsp_relayed hp hup htxn hrel hlo hhi hin
  · intro agent line s hp hup h
    have hrun := execBiconflict_up (line := line) hp hup h
    refine ⟨fun hahead => hrun.trans ?_, fun hahead => hrun.trans ?_⟩
    · rw [hahead, if_neg Bool.false_ne_true]
    · rw [hahead, if_pos rfl]
  · intro line n s hp hn
    exact ⟨execNearCacheEvict_held hp hn, ncGet_ncDrop_same .., fun hc => congrArg (ncDrop · s.env.board line) (writeBackLine_clean hn hc)⟩
  · intro line n s hp hn hcls hd
    exact execStripeWriteBack_dirty hp hn hcls hd

/-- Settles O18. -/
theorem suspectAndLostHosts : Obligations.SuspectAndLostHosts := by
  refine ⟨?_, ?_, ?_, ?_, ?_, ?_, ?_⟩
  · intro agent line s hp hopen hact hdue
    exact show execSnoopTimeout agent line s = _ from traffic_of hp ((if_pos hopen).trans (queueSuspect_active hact hdue))
  · intro agent e w hact
    change (becomeSuspect e w agent).host e.board agent = _
    rw [becomeSuspect_active hact, host_setHost_same]
  · intro agent d s hp hc hd h
    exact show execGraceDeadline agent s = _ from traffic_of hp (graceEnd_due hc hd h)
  · intro h agent s hfrom
    exact show execHostLostMsg h agent s = _ from peerTraffic_run hfrom
  · intro dev agent count s hp hopen hnone
    exact ⟨_, execHostLostSweep_over count hp hopen hnone, rfl, rfl, sweptHost_sweeps .., sweptHost_own s.w agent, sweptHost_peer s.w agent⟩
  · intro h agent s hfrom hlost
    exact show execSweepDone h agent s = _ from (peerTraffic_run hfrom).trans (by rw [if_pos hlost])
  · intro dev s hp hdev
    exact show execHostHoldDeadline dev s = _ from traffic_of hp (if_neg hdev)

/-- Settles O19: by whether the snoop waits, whether the proxy holds the line, and the kind of snoop. -/
theorem proxyAnswersSnoops : Obligations.ProxyAnswersSnoops := by
  intro h line s hfrom
  refine ⟨fun hpend => ?_, fun hpend => ?_⟩
  · exact ⟨snoopIn_waits hfrom 0x18 hpend, snoopIn_waits hfrom 0x19 hpend, snoopIn_waits hfrom 0x1A hpend,
      snoopIn_waits hfrom 0x1B hpend⟩
  · have hrun (op : Nat) := snoopIn_answers hfrom op hpend
    split
    · next hn =>
      exact ⟨(hrun 0x18).trans (by rw [answerSnoop_none 0x18 hn]; rfl), (hrun 0x19).trans (by rw [answerSnoop_none 0x19 hn]; rfl),
        (hrun 0x1A).trans (by rw [answerSnoop_none 0x1A hn]; rfl), (hrun 0x1B).trans (by rw [answerSnoop_none 0x1B hn]; rfl)⟩
    · next n hn =>
      exact ⟨(hrun 0x18).trans (by rw [answerSnoop_held 0x18 hn]; rfl), (hrun 0x19).trans (by rw [answerSnoop_held 0x19 hn]; rfl),
        (hrun 0x1A).trans (by rw [answerSnoop_held 0x1A hn]; rfl), (hrun 0x1B).trans (by rw [answerSnoop_held 0x1B hn]; rfl)⟩

end

section
/-! PROOFS. Answers of peers, snoops that a peer's home relays, the mirror of a TWIN line, and sync operations of peers (04, 06, 10). -/

namespace Sys2Proof.Machine

/-! ### Answers to requests of this device (06 R215, R219; 04 R115, R140) -/

section
variable {s : State} {h : Hdr} {x : Nat × Req}

/-- A message of a peer that arrives, once what it does is known. -/
theorem peer_of {ids : List Nat} {f : Env → Work → Work} {u : Work} (hfrom : fromPeer s h ids) (hf : f s.env s.w = u) :
    peerTraffic h ids s f = .next { s with w := u } := by
  rw [peerTraffic_run hfrom, hf]

/-- A grant for the request that stands under its tag. -/
theorem execPgnt_run {line : Nat} {st : PeerSt} {d : Option Payload} (hfrom : fromPeer s h [])
    (hsent : sentReq s.w h.dev h.dst h.tag = some x) (hline : x.2.line = line) :
    execPgnt h line st d s = .next { s with
      w := dueProxy s.env (dueSnoops s.env (grantIn s.env (carryBack s.env s.w x.2 x.1 d.isSome) x line st d)) } :=
  (peerTraffic_run hfrom).trans (by simp only [hsent, hline, if_true])

/-- The granted line, with the data that came. -/
def granted (r : Req) (st : PeerSt) (d : Payload) : NcLine :=
  { data := d.data, poison := d.poison, dirty := false, parcel := r.parcel, st := some st, gen := r.gen, off := r.off }

theorem grantIn_read {e : Env} {w : Work} {line : Nat} {st : PeerSt} {d : Payload} (hafter : x.2.after = some .mashRd) :
    grantIn e w x line st (some d) =
      replyData e (ncFill e (dropSent w x) x.1 line (granted x.2 st d)) x.2 .cmp d := by
  simp only [grantIn, hafter]
  rfl

theorem grantIn_write {e : Env} {w : Work} {line : Nat} {st : PeerSt} {d v : Payload} {m : BitVec 64} {full : Bool}
    (hafter : x.2.after = some (.mashWr v m full)) :
    grantIn e w x line st (some d) =
      (let q := mergedWrite d v m full
       replyCmp e (ncFill e (dropSent w x) x.1 line
        { granted x.2 st d with data := q.data, poison := q.poison, dirty := true, st := some .m }) x.2 true) := by
  simp only [grantIn, hafter]
  rfl

/-- Data of a peer's home complete the read that was sent under their tag. -/
theorem dataIn_read {e : Env} {w : Work} {d : Payload} {m : Meta} (hcopy : copyTxn w h.dev h.tag = none)
    (hsent : sentReq w h.dev h.dst h.tag = some x) (hop : x.2.op = .rd m) :
    dataIn e w h d =
      (let w := dropSent (carryBack e w x.2 x.1 true) x
       replyData e w x.2 (grantOf w x.2) d) := by
  simp only [dataIn, hcopy, hsent, hop]

theorem refusedAway_of_ne_rmw {e : Env} {w : Work} {r : Req} (hop : ∀ o, r.op ≠ .rmw o) : refusedAway e w r = refuseReq e w r := by
  unfold refusedAway
  split
  · next o ho => exact absurd ho (hop o)
  · rfl

theorem claimAnswered_found {w : Work} {dev k : Nat} {o : OpSlot} {ok : Bool}
    (hfind : w.ops.find? (fun x => !x.2.claimed && x.2.peer == dev) = some (k, o)) :
    claimAnswered w dev ok =
      if ok then setSlot w k { o with claimed := true } else (clearSlot w k).setReg aProtectStatus 0x010D := by
  simp only [claimAnswered, hfind]

end

/-! ### Snoops that a peer's home relays (06 R223, R730) -/

/-- One line of one ACTIVE host whose head is up: the snoop leaves, and its relay waits. -/
theorem relaySnoops_one {e : Env} {w : Work} (h : Hdr) {parcel line agent : Nat} (ha : agent < 64)
    (hcoh : (w.host e.board agent).coh = .active) (hup : headUp w agent = true) :
    relaySnoops e w h parcel line 1 2 0 [agent] =
      (let u := carryRelay e w h.dev agent line
       { u with
        out := .hostSnp agent line .inv :: u.out
        home := { u.home with relays := u.home.relays ++ [
          { dev := h.dev, tag := h.tag, line := line, lines := 1, kind := .inv, agents := [agent], held := [], whole := false,
            since := e.clk.now }] } }) := by
  have hmod : agent % 64 = agent := Nat.mod_eq_of_lt ha
  have hdiv : agent / 64 = 0 := Nat.div_eq_of_lt ha
  have hne : ((HostCoh.active != HostCoh.lost) : Bool) = true := rfl
  have heq : ((HostCoh.active == HostCoh.active) : Bool) = true := rfl
  simp only [relaySnoops, relayHosts, List.isEmpty_cons, List.filter_cons, List.filter_nil, ha, hcoh, hup, hne, heq, decide_true,
    Bool.and_self, Bool.false_eq_true, if_false, if_true, Nat.max_self, List.range_one, List.map_cons, List.map_nil, List.flatten_cons,
    List.flatten_nil, List.append_nil, Nat.mul_zero, Nat.zero_add, hmod, hdiv, Nat.add_zero, Bool.not_true, List.foldl_cons,
    List.foldl_nil, List.reverse_cons, List.reverse_nil, List.nil_append, List.cons_append]
  rfl

end Sys2Proof.Machine

open Sys2Proof Sys2Proof.Machine

/-- Settles O21: with the message on its way in (`peerTraffic_run`) each answer is the branch that its request selects. -/
theorem peerAnswersAreTaken : Obligations.PeerAnswersAreTaken := by
  unfold Obligations.PeerAnswersAreTaken
  refine ⟨?_, ?_, ?_, ?_, ?_, ?_, ?_, ?_, ?_⟩
  · intro h line st d x s hfrom hsent hline
    refine ⟨fun hafter => ?_, fun v m full hafter => ?_⟩
    · exact (execPgnt_run hfrom hsent hline).trans (by rw [grantIn_read hafter]; rfl)
    · exact (execPgnt_run hfrom hsent hline).trans (by rw [grantIn_write hafter]; rfl)
  · intro h d x s hfrom hcopy hsent ⟨m, hop⟩
    exact show execData h d s = _ from peer_of hfrom (by rw [dataIn_read hcopy hsent hop])
  · intro h d x s hfrom hcopy
    exact show execData h d s = _ from peer_of hfrom (by simp only [dataIn, hcopy])
  · intro h x s hfrom hsent
    exact show execCmp h s = _ from peer_of hfrom (by simp only [hsent])
  · intro h x s hfrom hcopy hsent hop
    exact show execErr h s = _ from peer_of hfrom (by simp only [hcopy, hsent, refusedAway_of_ne_rmw hop])
  · intro h k o s hfrom hsent hfind
    refine ⟨?_, fun hcopy hmirror => ?_⟩
    · exact show execCmp h s = _ from peer_of hfrom (by simp only [hsent, claimAnswered_found hfind, if_true])
    · exact show execErr h s = _ from peer_of hfrom (by
        simp only [hcopy, hsent, hmirror, claimAnswered_found hfind, Bool.false_eq_true, if_false])
  · intro h line st dirty d x s hfrom hfind
    exact show execPrsp h line st dirty d s = _ from peer_of hfrom (by simp only [hfind])
  · intro h agent line resp x s hfrom hfind
    exact show execHostSnpRsp h agent line resp s = _ from peer_of hfrom (by simp only [hfind])
  · intro h parcel line agent s hfrom ha hcoh hup
    exact show execPsnphost h parcel line 1 2 0 [agent] s = _ from peer_of hfrom (by rw [relaySnoops_one h ha hcoh hup])

end

section
/-! PROOFS. The mirror's side of a TWIN line (04 R114, R133, R134, R140-R142). -/

namespace Sys2Proof.Machine

/-! ### A line written to DRAM reads back -/

theorem contains_sadd_same (l : List Nat) (k : Nat) : (sadd l k).contains k = true := by
  induction l with
  | nil => simp [sadd]
  | cons i r ih =>
    unfold sadd
    split
    · rw [List.contains_cons, ih, Bool.or_true]
    · split
      · next h => simp [h]
      · simp

theorem contains_sdel_same (l : List Nat) (k : Nat) : (sdel l k).contains k = false := by simp [sdel]

/-- What is written under a key reads back under that key; the poison pattern reads back poisoned (15 R574). -/
theorem rawRead_rawWrite (w : Work) (key : Option KeyId) (line : Nat) (d : Payload) :
    rawRead (rawWrite w key line d) key line = some (if d.poison then ⟨0, true⟩ else d) := by
  have hbad : (rawWrite w key line d).pool.bad.contains line = false := contains_sdel_same ..
  rw [rawRead, hbad, if_neg Bool.false_ne_true]
  obtain ⟨data, poison⟩ := d
  cases poison
  case true =>
    have hpoison : (rawWrite w key line ⟨data, true⟩).pool.poison.contains line = true := contains_sadd_same ..
    rw [hpoison, if_pos rfl]
    rfl
  case false =>
    have hpoison : (rawWrite w key line ⟨data, false⟩).pool.poison.contains line = false := contains_sdel_same ..
    have hkey : mget (rawWrite w key line ⟨data, false⟩).pool.keyed line = key := by
      cases key with
      | none => exact mget_mdel_same ..
      | some k => exact mget_mset_same ..
    have hmem : memLine (rawWrite w key line ⟨data, false⟩).pool.mem line = data := memLine_memPutLine ..
    rw [hpoison, if_neg Bool.false_ne_true, decrypt, decryptAs, hkey, if_pos rfl, hmem]
    rfl

theorem quiet_memWrite (w : Work) (acct line n : Nat) : Quiet w (memWrite w acct line n) := by
  have h : Quiet w (askFor w acct line) := ⟨w.vorir, w.kiln, _, w.pool.sheets, w.pool.sheetStamp, rfl⟩
  exact (h.trans (quiet_charge ..)).trans (quiet_fold _ (fun w => (quiet_carry ..).trans (quiet_carry ..)) _ _)

theorem quiet_aesLine (w : Work) (a : Acc) (key : Option KeyId) (n : Nat) : Quiet w (aesLine w a key n) := by
  unfold aesLine
  split
  · exact quiet_charge ..
  · exact Quiet.refl w

theorem carried_carryFromPeer (e : Env) (w : Work) (acct : Nat) (k : VKind) (dev line : Nat) (data : Bool) :
    Carried w (carryFromPeer e w acct k dev line data) := carried_carry ..

theorem Quiet.keyOf {w x : Work} (h : Quiet w x) (e : Env) (p : Nat) : keyOf e x p = keyOf e w p := by
  unfold Machine.keyOf
  rw [h.cadEntry]

theorem writeCopy_serving {w : Work} {line : Nat} (a : Acc) (key : Option KeyId) (d : Payload) (h : serving w line = true) :
    writeCopy w a key line d = (true, rawWrite (memWrite (aesLine w a key 1) a.acct line 1) key line d) := if_pos h

/-! ### Mirror writes -/

/-- The recent writes once a write of `home` to an offset is noted (R134). -/
def recentWith (e : Env) (w : Work) (home parcel off : Nat) : List (Nat × Nat × Nat × Nat) :=
  let i := (sheetIndex (cadEntry w parcel) off).2
  w.pool.recent.filter (fun x => !(x.1 == parcel && x.2.1 == i && x.2.2.1 == home) && !recentFree e w x) ++
    [(parcel, i, home, e.clk.frame)]

theorem noteRecent_room {e : Env} {w : Work} (home parcel off : Nat) (h : w.pool.recent.length < 4096) :
    noteRecent e w home parcel off = { w with pool := { w.pool with recent := recentWith e w home parcel off } } :=
  if_pos (Nat.lt_of_le_of_lt (List.length_filter_le ..) h)

/-- A mirror write to a line that is served, with room among the recent writes and no transaction on the line. -/
theorem mirrorIn_serving {e : Env} {w : Work} {line : Nat} (h : Hdr) (parcel off : Nat) (d : Payload) (hserve : serving w line = true)
    (hfree : findTxn w line = none) (hroom : w.pool.recent.length < 4096) :
    mirrorIn e w h parcel off line d true =
      (let u := { w with pool := { w.pool with recent := recentWith e w h.dev parcel off } }
       (true, rawWrite (memWrite (aesLine u (accOwn parcel e) (keyOf e w parcel) 1) acctDev line 1) (keyOf e w parcel) line d)) := by
  unfold mirrorIn
  rw [noteRecent_room h.dev parcel off hroom]
  have hfree' : findTxn { w with pool := { w.pool with recent := recentWith e w h.dev parcel off } } line = none := hfree
  have hserve' : serving { w with pool := { w.pool with recent := recentWith e w h.dev parcel off } } line = true := hserve
  simp only [if_true, hfree', writeCopy_serving _ _ _ hserve']
  rfl

/-- The mirror's acknowledgement of a transaction whose write was not superseded: the home writes its own copy and the write ends. -/
theorem mirrorAcked_plain {e : Env} {w : Work} {t : Txn} {dev : Nat} {d : Payload} (ok : Bool) (hmirror : t.mirror = some (dev, d))
    (hrewrite : t.rewrite = none) :
    mirrorAcked e w t dev (!ok) =
      (let a := storeLine e (if ok then w else setDirtyPlot e w t.req.parcel t.req.off) t.req d ok
       settle e (closeTxn e a.2 { t with mirror := none } a.1 (t.taken.getD d)) 16) := by
  cases ok <;> simp only [mirrorAcked, hmirror, hrewrite, ne_eq, not_true_eq_false, if_false, Bool.not_true, Bool.not_false,
    Bool.false_eq_true, if_true]

end Sys2Proof.Machine

open Sys2Proof Sys2Proof.Machine

/-- Settles O22: each message is the branch that the mirror's state selects, and a line that is written reads back. -/
theorem twinMirrorSide : Obligations.TwinMirrorSide := by
  unfold Obligations.TwinMirrorSide
  refine ⟨?_, ?_, ?_, ?_, ?_, ?_⟩
  · intro h parcel gen off d up l p m s hfrom hacc hplace
    exact show execMirrorWr h parcel gen off ⟨d, up⟩ s = _ from peer_of hfrom (by simp only [hacc, hplace])
  · intro h parcel off line d e w hserve hfree hroom
    rw [mirrorIn_serving h parcel off d hserve hfree hroom]
    refine ⟨rfl, rawRead_rawWrite .., ?_⟩
    obtain ⟨v, k, c, l, n, hq⟩ := (quiet_aesLine { w with pool := { w.pool with recent := recentWith e w h.dev parcel off } }
      (accOwn parcel e) (keyOf e w parcel) 1).trans (quiet_memWrite _ acctDev line 1)
    simp only [hq]
    exact List.getLast?_concat ..
  · intro h line ok x d s hfrom hfind hmirror hrewrite
    exact show execMirrorAck h ⟨line, ok⟩ s = _ from peer_of hfrom (by simp only [hfind, mirrorAcked_plain ok hmirror hrewrite])
  · intro h parcel k plots s hfrom hslot hfree
    exact show execSlotClaim h ⟨parcel, plots⟩ s = _ from peer_of hfrom (by simp only [hslot, hfree] <;> rfl)
  · intro h parcel value k o s hfrom hslot hpeer hst
    exact show execMark h parcel value s = _ from peer_of hfrom (by simp only [hslot, hpeer, hst, ne_eq, not_false_eq_true, and_self, if_true])
  · intro h line k d o s hfrom hmove hslot hserve
    have hq := (carried_carryFromPeer s.env s.w acctBg .request h.dev line true).quiet
    have hserve' : serving (carryFromPeer s.env s.w acctBg .request h.dev line true) line = true := by rw [hq.serving, hserve]
    exact show execCopyWr h line d s = _ from peer_of hfrom (by
      simp only [hmove, Option.filter_none, hslot, writeCopy_serving _ _ _ hserve', hq.keyOf]
      rfl)

end

section
/-! PROOFS. Sync operations of peers, releases, window reports, sweeps and resolutions (06 R241, R251; 08 R352; 10 R405). -/

namespace Sys2Proof.Machine

section
variable {s : State} {h : Hdr}

/-- A sync operation whose object this device homes reaches its engine (10 R405). -/
theorem execSyncOp_here {x : Ext} {line ctx ring dtag : Nat} {k : SyncKind} {l : Loc} {p : Place} (hfrom : fromPeer s h [])
    (hacc : accessCheck s.env s.w (.fwd h.dev x.gen x.frame) x.parcel x.off true = .served l) (hprim : l.primary s.w = some p)
    (hdev : p.dev = s.env.board) (hkind : eKind (cadEntry s.w x.parcel) = 2) :
    execSyncOp h x line ctx ring dtag k s = .next { s with
      w := syncOpAt s.env (carryFromPeer s.env s.w acctDev .request h.dev line false) h ⟨x.parcel, x.off / 64 * 64, p.dpa / 64⟩
        ctx ring dtag k } := by
  have hq := (carried_carryFromPeer s.env s.w acctDev .request h.dev line false).quiet
  refine peer_of hfrom ?_
  simp only [hq.accessCheck, hacc, hq.primary, hprim, hdev, hq.cadEntry, hkind, and_self, if_true]

end

/-- A SIGNAL to a line with neither a transaction nor a reservation is performed (R405, R421). -/
theorem syncOpAt_signal {e : Env} {w : Work} {o : Obj} (h : Hdr) (ctx : Nat) {ring : Nat} (dtag n : Nat) (hring : ring ≠ noRing)
    (hfree : findTxn w o.line = none) (hres : reservation w o.line = none) :
    syncOpAt e w h o ctx ring dtag (.signal n) =
      (let a := syncSignal e w o ⟨h.dev, h.src, some ctx, ring, dtag, h.tag⟩ n
       syncReply e a.2 h o.line ring dtag a.1) := by
  simp only [syncOpAt, hfree, hres, Option.isSome_none, Bool.or_self, Bool.false_eq_true, if_false, if_neg hring]

/-- A die's report crosses to the die that homes the window's control page. -/
def reportCarried (e : Env) (w : Work) (win parcel die : Nat) : Work :=
  let line := match winLine e w parcel (winCtlOff w win) with | some (l, _) => l | none => 0
  carry w acctDev .request 0x7F 0x7F line false (.tun die) (winDie e w win parcel)

/-- A die's report of an open bank whose lines there have all reached N (08 R352). -/
theorem winReport_reached {e : Env} {w : Work} {win bank die : Nat} {x : Win} (hwin : mget w.mash.wins win = some x)
    (hopen : (winBank x bank).st = 0) (hdie : die < 2) (hsome : 0 < linesOnDie e w win x.parcel bank die)
    (hall : linesOnDie e w win x.parcel bank die ≤ (if die = 0 then (winBank x bank).atN0 else (winBank x bank).atN1)) :
    ∃ u, winReport e w win bank die =
        putWin u win (winSetBank x bank { winBank x bank with
          reports := sadd (winBank x bank).reports die
          st := if linesOnDie e w win x.parcel bank (1 - die) = 0 ∨ (sadd (winBank x bank).reports die).length = 2 then 1 else 0 }) ∧
      u = { w with vorir := u.vorir } := by
  have hgo : ¬((winBank x bank).st ≠ 0 ∨ die ≥ 2 ∨ linesOnDie e w win x.parcel bank die = 0 ∨
      (if die = 0 then (winBank x bank).atN0 else (winBank x bank).atN1) < linesOnDie e w win x.parcel bank die) := by
    rintro (h | h | h | h)
    · exact h hopen
    · omega
    · omega
    · exact absurd h (Nat.not_lt.mpr hall)
  obtain ⟨v, hv⟩ : ∃ v, reportCarried e w win x.parcel die = { w with vorir := v } := carryOn_dev ..
  refine ⟨reportCarried e w win x.parcel die, ?_, by rw [hv]⟩
  simp only [winReport, hwin]
  exact if_neg hgo

/-- A sweep for a lost device that no entry names any more is over (06 R241). -/
theorem execPeerLostSweep_over {s : State} {dev : Nat} (count : Nat) (hp : poolRuns s.env = true)
    (hopen : s.w.dir.sweeps.any (fun x => x.dev == dev && x.agent == none) = true)
    (hnone : sweepLines s.w (fun d => d.peers.contains dev) = []) :
    execPeerLostSweep dev count s = .next { s with w := { s.w with dir := { s.w.dir with
      sweeps := s.w.dir.sweeps.filter (fun x => !(x.dev == dev && x.agent == none)) } } } := by
  refine traffic_of hp ?_
  simp only [hopen, Bool.not_true, Bool.false_eq_true, if_false, hnone, List.filter_nil, List.take_nil, List.foldl_nil,
    List.isEmpty_nil, if_true]

/-! ### Promoted pages (06 R251, R252) -/

section
variable {e : Env} {w : Work} {parcel page : Nat}

theorem resolvePage_recovered (h : w.pool.recovered.contains parcel = true) : resolvePage e w parcel page = w := by
  unfold resolvePage
  dsimp only
  split
  · exact if_pos (.inr (.inr (.inl h)))
  · rfl

/-- The recalls of a promoted page of this device that nothing stands in the way of are opened. -/
theorem resolvePage_open {p : Place} {a b : Option Place} {c : Nat} (hloc : locate e w (cadEntry w parcel) (4096 * page) = .copies p a b true c)
    (hdev : p.dev = e.board) (htrack : tracked w parcel = true) (hrec : w.pool.recovered.contains parcel = false)
    (hbit : p0Bit e w (recoveryBase (cadEntry w parcel)) page = false) (hres : w.home.resolving.contains (parcel, page) = false)
    (htxns : w.home.txns = []) :
    resolvePage e w parcel page = pagesDone e ((List.range 64).foldl (pageLine e parcel page (p.dpa / 64))
      { w with home := { w.home with resolving := w.home.resolving ++ [(parcel, page)] } }) := by
  simp only [resolvePage, hloc, hdev, htrack, hrec, hbit, hres, htxns, List.any_nil, ne_eq, not_true_eq_false, Bool.true_eq_false,
    Bool.false_eq_true, or_self, if_false]

end

end Sys2Proof.Machine

open Sys2Proof Sys2Proof.Machine

/-- Settles O23: what a message meets on its way (the access check, the bank's lines, the sweep's lines) selects what is done. -/
theorem peerSyncWindowsAndSweeps : Obligations.PeerSyncWindowsAndSweeps := by
  unfold Obligations.PeerSyncWindowsAndSweeps
  refine ⟨?_, ?_, ?_, ?_, ?_, ?_⟩
  · intro h x line ctx ring dtag k l p s hfrom hacc hprim hdev hkind
    refine ⟨execSyncOp_here hfrom hacc hprim hdev hkind, ?_⟩
    rintro n rfl hring hfree hres
    obtain ⟨v, c, hw⟩ := carried_carryFromPeer s.env s.w acctDev .request h.dev line false
    rw [hw]
    exact syncOpAt_signal h ctx dtag n hring hfree hres
  · intro h ring n status result d s hfrom hdesc hheld
    exact show execSyncRelease h ring n status result s = _ from peer_of hfrom (by simp only [hdesc, hheld, if_true])
  · intro win bank die x s hp hwin hopen hdie hsome hall
    obtain ⟨u, hu, hsame⟩ := winReport_reached hwin hopen hdie hsome hall
    exact ⟨u, show execWindowReport win bank die s = _ from traffic_of hp hu, hsame⟩
  · intro dev count s hp hopen hnone
    exact execPeerLostSweep_over count hp hopen hnone
  · intro parcel page s hp
    refine ⟨fun hasked => ?_, fun hasked hnext hopen => ?_⟩
    · exact show execPageResolution parcel page s = _ from traffic_of hp (if_pos hasked)
    · exact show execPageResolution parcel page s = _ from
        traffic_of hp ((if_neg (by rw [hasked]; exact Bool.false_ne_true)).trans (if_pos ⟨hnext, hopen⟩))
  · intro e w parcel page
    exact ⟨resolvePage_recovered, fun p a b c hloc hdev htrack hrec hbit hres htxns =>
      resolvePage_open hloc hdev htrack hrec hbit hres htxns⟩

end

section
/-! PROOFS. Tiles from their issue to their end: issue and dispatch (02 R40-R41, 07 R290-R291), translation and walks (09 R371-R386),
failed checks and completion (07 R276, 08 R341). -/

namespace Sys2Proof.Machine

/-! ### Issue and dispatch -/

/-- A command that changes nothing changes nothing when the main domain is held either. -/
theorem traffic_same {s : State} {f : Env → Work → Work} (h : f s.env s.w = s.w) : traffic s f = .next s := by
  unfold traffic
  rw [h, ite_self]

section
variable {e : Env} {w : Work} {ring n x dur bytes energy : Nat}

/-- The state after the issue of a descriptor's next tile. -/
def issuedTile (e : Env) (w : Work) (d : Desc) (u ring n bytes energy : Nat) : Work :=
  let a := ringOwner w ring
  let p := planOf w a
  let v := putPlan w a { p with mash := p.mash - bytes, mashE := p.mashE.map (· - energy) }
  let v := { v with qos := { v.qos with mashLines := mmod v.qos.mashLines a 0 (· + (bytes + 63) / 64) } }
  let v := addTile v { ring := ring, n := n, idx := d.issued, tun := u, epoch := tunEpoch w u, frame := e.clk.frame,
                       blocks := tileBlocks d (sizeOf w d) d.issued }
  (putDesc v { d with issued := d.issued + 1, lastIssue := some e.clk.frame, deferred := 0 }).emit (.work 0 ring n d.issued u)

theorem tileIssue_fits {d : Desc} {u : Nat} (hdesc : getDesc w ring n = some d) (htun : d.tun = some u) (hmay : mayIssue e w d u = true)
    (hfrom : e.clk.start ≤ x) (hto : x < e.clk.next) (htime : timeFits e w u x dur = true)
    (hallot : allotted w (ringOwner w ring) bytes energy = true) (hceil : underCeiling w (ringOwner w ring) bytes = true)
    (hslot : slotOwned e w (slotAt e x) (ringOwner w ring) = true) :
    tileIssue e w ring n x dur bytes energy = issuedTile e w d u ring n bytes energy := by
  simp only [tileIssue, hdesc, htun, hmay, hfrom, hto, htime, hallot, hceil, hslot, decide_true, Bool.and_self, if_true, issuedTile]
  rfl

/-- A tile that would end after the boundary is not issued (R40). -/
theorem tileIssue_late (hdur : dur < e.period) (hend : e.clk.start + e.period ≤ x + dur) :
    tileIssue e w ring n x dur bytes energy = w := by
  have htime (u : Nat) : timeFits e w u x dur = false := by
    rw [timeFits, if_pos (Nat.le_of_lt hdur), decide_eq_false (Nat.not_lt.mpr hend)]
  unfold tileIssue
  split
  · rfl
  · split
    · rfl
    · simp only [htime, Bool.and_false, Bool.false_and, Bool.false_eq_true, if_false]

end

/-- A tile that arrives takes a core, or is refused by a Tun of another epoch. -/
theorem execTileDispatch_sent {s : State} {ring n idx : Nat} {t : Tile} (hp : poolRuns s.env = true)
    (htile : getTile s.w ring n idx = some t) (hst : t.st = .sentOut) :
    execTileDispatch ring n idx t.epoch s = .next { s with
      w := if t.epoch = tunEpoch s.w t.tun then putTile s.w { t with st := .arrived, core := idleCore s.w t.tun }
        else ((putTile s.w { t with st := .stale }).inc (aTunStaleCount t.tun) 1).emit (.work 1 ring n idx t.tun) } := by
  refine traffic_of hp ?_
  simp only [htile, hst, ne_eq, not_true_eq_false, or_self, if_false]
  by_cases hepoch : t.epoch = tunEpoch s.w t.tun
  · rw [if_pos hepoch, if_neg (not_not.mpr hepoch)]
  · rw [if_neg hepoch, if_pos hepoch]
    rfl

/-! ### Translation (09 R371, R373, R380, R386) -/

section
variable {e : Env} {w : Work} {d : Desc} {t : Tile} {x : Ctx}

/-- The tile once its pages have been tried. -/
def triedTile (e : Env) (w : Work) (d : Desc) (t : Tile) : Tile :=
  { t with st := .walking, wframe := if t.st = .walking then t.wframe else e.clk.frame, pages := (pagesTried e w d t).1 }

theorem translatePhase_on (hctx : getCtx w (dCtx d.img) = some x) (hon : x.on = true) :
    translatePhase e w d t =
      (let u := putTile (pagesTried e w d t).2 (triedTile e w d t)
       if (pagesTried e w d t).1.all pageDone then concludeTile e u d (triedTile e w d t) x.entry else u) := by
  simp only [translatePhase, hctx, hon, Bool.not_true, Bool.false_eq_true, if_false]
  rfl

theorem translatePhase_off (hoff : ∀ x, getCtx w (dCtx d.img) = some x → x.on = false) :
    translatePhase e w d t = endAt e w d t.idx stPermission := by
  unfold translatePhase
  dsimp only
  split
  · rfl
  · next x hx => rw [hoff x hx, Bool.not_false, if_pos rfl]

/-- A phase whose pages have all come without a fault: its reads, and with the last phase the prefetches. -/
theorem concludeTile_clean {entry : BitVec 512} (hfault : t.pages.any (fun p => p.fault.isSome) = false)
    (hunit : t.ph = 2 → scatterUnit w d t = false) :
    concludeTile e w d t entry =
      if t.ph = 2 ∧ isSync (dOp d.img) = false then prefetch (issueReads e w d t) d t (xPrefetch entry) else issueReads e w d t := by
  have hno : ¬(t.ph = 2 ∧ scatterUnit w d t = true) := fun ⟨hph, hun⟩ => by rw [hunit hph] at hun; cases hun
  rw [concludeTile, hfault, if_neg Bool.false_ne_true, if_neg hno]

theorem concludeTile_faulted {entry : BitVec 512} (hfault : t.pages.any (fun p => p.fault.isSome) = true) :
    concludeTile e w d t entry = faultTile e w d t entry := if_pos hfault

/-- The tile as its translation begins: one that has just arrived starts with its first phase. -/
def startPhase (w : Work) (d : Desc) (idx : Nat) (t : Tile) : Tile :=
  if t.st = .arrived then
    { t with ph := if isSync (dOp d.img) ∨ phase1 d (sizeOf w d) idx = [] then 2 else 0, pages := [], lines := [] }
  else t

theorem startPhase_idx (w : Work) (d : Desc) (idx : Nat) (t : Tile) : (startPhase w d idx t).idx = t.idx := by
  unfold startPhase
  split <;> rfl

theorem startPhase_st (w : Work) (d : Desc) (idx : Nat) (t : Tile) : (startPhase w d idx t).st = t.st := by
  unfold startPhase
  split <;> rfl

theorem startPhase_wframe (w : Work) (d : Desc) (idx : Nat) (t : Tile) : (startPhase w d idx t).wframe = t.wframe := by
  unfold startPhase
  split <;> rfl

theorem tileTranslate_begins {ring n idx : Nat} (htile : getTile w ring n idx = some t) (hdesc : getDesc w ring n = some d)
    (hrun : d.phase = .running) (horder : inOrder w d idx = true) (hheld : blockHeld w 1 t.tun = false)
    (hst : t.st = .arrived ∨ t.st = .walking) :
    tileTranslate e w ring n idx = translatePhase e w d (startPhase w d idx t) := by
  have hgo : ¬(d.phase ≠ .running ∨ inOrder w d idx = false ∨ blockHeld w 1 t.tun = true) := by simp [hrun, horder, hheld]
  simp only [tileTranslate, htile, hdesc, if_neg hgo, startPhase]
  obtain hst | hst := hst
  · simp only [hst, if_true]
  · simp only [hst, reduceCtorEq, if_false, if_true]

end

/-! ### Tuns: epochs, strikes and abandoned tiles (07 R277, R288, R293, R295) -/

theorem nextEpoch_spec {x : Nat} (h : x < 2 ^ 16) : nextEpoch x ≠ 0 ∧ nextEpoch x < 2 ^ 16 ∧ (x ≠ 0xFFFF → nextEpoch x = x + 1) := by
  unfold nextEpoch
  split
  · next hmax => exact ⟨Nat.one_ne_zero, by decide, fun hne => absurd hmax hne⟩
  · next hmax => exact ⟨Nat.succ_ne_zero x, by omega, fun _ => rfl⟩

theorem tun_setFld (w : Work) (a hi lo v tun : Nat) : (w.setFld a hi lo v).tun tun = w.tun tun := by
  rw [Work.tun, Work.setFld_mash, ← Work.tun]

theorem roleCtlWrite_go (w : Work) (tun : Nat) {v : Nat} (hgo : bitAt v 31 = true) :
    roleCtlWrite w tun v =
      (let u := w.setFld (aTunRoleCtl tun) 17 16 (bitsOf v 17 16)
       let code := roleCheck u tun (bitsOf v 17 16)
       let u' := u.setFld (aTunStatus tun) 15 0 code
       if code = 0 then (u'.setTun tun { u.tun tun with pend := some (bitsOf v 17 16) }).setFld (aTunStatus tun) 21 21 1 else u') := by
  simp only [roleCtlWrite, hgo, if_true, tun_setFld]

theorem roleCtlWrite_stage (w : Work) (tun : Nat) {v : Nat} (hgo : bitAt v 31 = false) :
    roleCtlWrite w tun v = w.setFld (aTunRoleCtl tun) 17 16 (bitsOf v 17 16) := by
  simp only [roleCtlWrite, hgo, Bool.false_eq_true, if_false]

/-- The reserved role is refused first (Table 7-14). -/
theorem roleCheck_reserved (w : Work) (tun : Nat) : roleCheck w tun 3 = 0x0601 := by
  simp only [roleCheck, if_true]

/-- A strike that meets one which has not lapsed asks for the core's retirement. -/
theorem strike_struck {e : Env} {w : Work} {tun core f : Nat} (hstruck : mget (w.tun tun).strikes core = some f)
    (hlive : e.clk.frame < f + strikeFrames w) :
    strike e w tun core = (true, w.setTun tun { w.tun tun with retire := sadd (w.tun tun).retire core }) := by
  have h : struck e w tun core = true := by simp only [struck, hstruck, decide_eq_true_eq, hlive]
  rw [strike, h, if_pos rfl]

/-! ### Failed checks and completion (07 R276, 08 R341, 02 R42) -/

section
variable {e : Env} {w : Work} {ring n : Nat} {t : Tile} {d : Desc}

/-- A tile that completes within its frame, or at the boundary after it, is no overrun. -/
theorem overran_on_time {x : Nat} (h : t.frame = e.clk.frame ∨ t.frame + 1 = e.clk.frame ∧ x ≤ e.clk.start) : overran e t x = false := by
  unfold overran
  obtain hframe | ⟨hframe, hx⟩ := h
  · simp [hframe]
  · simp [hframe, Nat.not_lt.mpr hx]

/-- The one tile whose writes are still to be sent has passed: they are sent. -/
theorem sendTiles_passed (k : Nat) (hdesc : getDesc w ring n = some d)
    (hone : (tilesOf w ring n).filter (fun t => t.st != .sent) = [t]) (hst : t.st = .passed) (hno : overtaken e w t = false) :
    sendTiles e w ring n (k + 1) =
      (let j := joinTile w d t
       let t1 : Tile := { t with st := .sent, writes := j.2 }
       sendTiles e (j.2.zipIdx.foldl (fun w x =>
         tileSend e w t1 j.1 (2 ^ 20 + x.2) (64 * x.1.line + x.1.byte) x.1.op) (putTile (putDesc w j.1) t1)) ring n k) := by
  rw [sendTiles]
  simp only [hdesc, hone, List.find?_cons, List.all_cons, List.all_nil, Nat.le_refl, decide_true, Bool.and_self, hst, ne_eq,
    not_true_eq_false, if_false, hno, Bool.false_eq_true]

end

end Sys2Proof.Machine

open Sys2Proof Sys2Proof.Machine

/-- Settles O24: what fits is issued as `tileIssue_fits` says; the epochs decide what a Tun does with a tile. -/
theorem tilesAreIssuedAndDispatched : Obligations.TilesAreIssuedAndDispatched := by
  unfold Obligations.TilesAreIssuedAndDispatched
  refine ⟨?_, ?_, ?_, ?_, ?_⟩
  · intro ring n x dur bytes energy u d s hp hdesc htun hmay hfrom hto htime hallot hceil hslot
    exact show execTileIssue ring n x dur bytes energy s = _ from
      traffic_of hp (tileIssue_fits hdesc htun hmay hfrom hto htime hallot hceil hslot)
  · intro ring n x dur bytes energy s hdur hend
    exact show execTileIssue ring n x dur bytes energy s = _ from traffic_same (tileIssue_late hdur hend)
  · intro ring n idx t s hp htile hst
    exact execTileDispatch_sent hp htile hst
  · intro ring n idx tun t d s hp htile hdesc hst hdie hserve
    exact show execStaleRole ring n idx tun s = _ from traffic_of hp (by
      simp only [htile, hdesc]
      exact if_pos ⟨hst, hdie, hserve⟩)
  · intro tun epoch s hp
    exact show execStaleResponseDiscard tun epoch s = _ from traffic_of hp rfl

/-- Settles O25: the phase's pages, tried in turn, tell which of the three ends of a translation step comes. -/
theorem tilesAreTranslatedByWalks : Obligations.TilesAreTranslatedByWalks := by
  unfold Obligations.TilesAreTranslatedByWalks
  refine ⟨?_, ?_, ?_, ?_, ?_, ?_⟩
  · intro ring n idx t d x s hp htile hdesc hrun horder hheld hst hctx hon ph t1 a t2 w
    have ht2 : triedTile s.env s.w d t1 = t2 := by
      have hst1 : t1.st = t.st := startPhase_st s.w d idx t
      have hwframe1 : t1.wframe = t.wframe := startPhase_wframe s.w d idx t
      unfold triedTile
      rw [hst1, hwframe1]
    have hgo : tileTranslate s.env s.w ring n idx = if a.1.all pageDone then concludeTile s.env w d t2 x.entry else w := by
      rw [tileTranslate_begins htile hdesc hrun horder hheld hst, translatePhase_on hctx hon]
      change (if (pagesTried s.env s.w d t1).1.all pageDone = true then
        concludeTile s.env (putTile (pagesTried s.env s.w d t1).2 (triedTile s.env s.w d t1)) d (triedTile s.env s.w d t1) x.entry
        else putTile (pagesTried s.env s.w d t1).2 (triedTile s.env s.w d t1)) = _
      rw [ht2]
    refine ⟨fun hall hclean hunit => ?_, fun hall hfault => ?_, fun hall => ?_⟩
    · exact show execTileTranslate ring n idx s = _ from
        traffic_of hp (hgo.trans ((if_pos hall).trans (concludeTile_clean hclean hunit)))
    · exact show execTileTranslate ring n idx s = _ from
        traffic_of hp (hgo.trans ((if_pos hall).trans (concludeTile_faulted hfault)))
    · exact show execTileTranslate ring n idx s = _ from
        traffic_of hp (hgo.trans (if_neg (by rw [hall]; exact Bool.false_ne_true)))
  · intro ring n idx t d s hp htile hdesc hrun horder hheld hst hoff
    refine show execTileTranslate ring n idx s = _ from traffic_of hp ?_
    rw [tileTranslate_begins htile hdesc hrun horder hheld (.inl hst), translatePhase_off hoff, startPhase_idx]
  · exact fun e w d t hoff => translatePhase_off hoff
  · intro tun ctx cva write k s hp hwalk
    exact show execStage1Walk tun ctx cva write s = _ from traffic_of hp (by simp only [hwalk])
  · intro e w k hctx
    simp only [runWalk, hctx]
  · intro tun ctx cva s hp k hnone hpre
    refine show execPrefetchWalk tun ctx cva s = _ from traffic_of hp ?_
    simp only [k] at hnone
    simp only [hnone, hpre, Bool.not_true, Bool.false_eq_true, if_false]
    rfl

/-- Settles O26: the check's code selects what a role commit does; strikes and abandoned tiles go by their frames. -/
theorem tunRolesAndStrikes : Obligations.TunRolesAndStrikes := by
  unfold Obligations.TunRolesAndStrikes
  refine ⟨?_, ?_, fun x => nextEpoch_spec, ?_, fun e w tun core f => strike_struck, ?_⟩
  · intro tun v s hp hgo
    refine ⟨show execTunRoleCommit tun v s = _ from traffic_of hp (roleCtlWrite_go s.w tun hgo), fun hrole => ?_⟩
    rw [show bitsOf v.toNat 17 16 = 3 from hrole, roleCheck_reserved]
  · intro tun v s hp hgo
    exact show execTunRoleCommit tun v s = _ from traffic_of hp (roleCtlWrite_stage s.w tun hgo)
  · intro tun core f s hp hstruck
    exact show execStrikeLapse tun core s = _ from traffic_of hp (by simp only [hstruck])
  · intro ring n idx tun f t d d' s hp htile hdesc hchanged hst hlater hframe hrole hdesc' hnone htakes hdie
    refine show execRoleTileAbandon ring n idx tun s = _ from traffic_of hp ?_
    have hold : t.st ≠ .sent ∧ f + 2 ≤ s.env.clk.frame ∧ t.frame ≤ f ∧ tunRole s.w t.tun ≠ roleServe := ⟨hst, hlater, hframe, hrole⟩
    simp only [htile, hdesc, hchanged, if_pos hold, hdesc', hnone, List.isEmpty_nil, htakes, hdie, and_self, if_true]

/-- Settles O28: the runs that passed decide between strikes and ARITH; a tile that passed is sent once nothing is before it. -/
theorem tilesCompleteOrAreRetried : Obligations.TilesCompleteOrAreRetried := by
  unfold Obligations.TilesCompleteOrAreRetried
  refine ⟨?_, ?_, ?_, fun e w ring n k t d => sendTiles_passed k, ?_⟩
  · intro ring n idx third thirdOk t d s hp htile hdesc hst
    exact show execArithRetry ring n idx third true thirdOk s = _ from traffic_of hp (by
      simp only [htile, hdesc, hst, ne_eq, not_true_eq_false, Bool.true_eq_false, false_and, or_self, if_false, if_true])
  · intro ring n idx third t d s hp htile hdesc hst hthird w
    refine ⟨?_, fun hroom => ?_⟩
    · exact show execArithRetry ring n idx third false true s = _ from traffic_of hp (by
        simp only [htile, hdesc, hst, hthird, ne_eq, not_true_eq_false, Bool.true_eq_false, and_false, or_self, if_false, if_true,
          Bool.false_eq_true]
        rfl)
    · refine show execArithRetry ring n idx third false false s = _ from traffic_of hp ?_
      have hroom' : noRoom (chargeCycles (chargeCycles s.w d t) d t)
          (arithRec s.env (chargeCycles (chargeCycles s.w d t) d t) d t 0x4002 1) = false := hroom
      simp only [htile, hdesc, hst, hthird, ne_eq, not_true_eq_false, Bool.true_eq_false, and_false, or_self, if_false, hroom',
        Bool.false_eq_true]
      rfl
  · intro ring n idx x t s hp htile hst htime
    exact show execTileComplete ring n idx x s = _ from traffic_of hp (by
      simp only [htile, hst, ne_eq, not_true_eq_false, if_false, overran_on_time htime, Bool.false_eq_true])
  · intro w t d hlate hdesc
    simp only [countOverrun, hlate, Bool.false_eq_true, if_false, hdesc]
    rfl

end

section
/-! PROOFS. The rules of a channel and of its ranks (14), and its queues, controller cycles and slots (14 R539-R552, R572). -/

namespace Sys2Proof.Machine

/-! ### Channels and ranks -/

@[simp] theorem mgetD_mset_same {α : Type} (m : AMap α) (k : Nat) (v d : α) : mgetD (mset m k v) k d = v := by
  rw [mgetD, mget_mset_same, Option.getD_some]

@[simp] theorem chan_setChan_same (w : Work) (c : Nat) (x : Chan) : (w.setChan c x).chan c = x := mgetD_mset_same ..

@[simp] theorem rank_setRank_same (x : Chan) (sub rank : Nat) (r : RankSt) : (x.setRank sub rank r).rank sub rank = r :=
  mgetD_mset_same ..

/-! ### Queues (R539, R541-R543) -/

section
variable {w : Work} {x : Chan} {line : Nat}

theorem queueWrite_replaces (t : Nat) (d : Line) (acct : Nat) (h : x.writes.any (fun q => q.line == line) = true) :
    queueWrite x line t d acct = { x with writes := x.writes.map (fun q => if q.line = line then { q with data := d } else q) } :=
  if_pos h

theorem queueWrite_appends (t : Nat) (d : Line) (acct : Nat) (h : x.writes.any (fun q => q.line == line) = false) :
    queueWrite x line t d acct = { x with writes := x.writes ++ [{ line := line, t := t, data := d, acct := acct }] } :=
  if_neg (by rw [h]; exact Bool.false_ne_true)

end

/-! ### Choosing and issuing an access (R540-R542, R547) -/

section
variable {w : Work} {c x : Nat} {rd wr : List QEntry} {q : QEntry}

theorem chosen_aged_read (h : rd.find? (aged w c x) = some q) : chosen w c x false rd wr = some (false, q) := by
  simp [chosen, h]

theorem chosen_aged_write (hrd : rd.find? (aged w c x) = none) (hwr : wr.find? (aged w c x) = some q) :
    chosen w c x false rd wr = some (true, q) := by
  simp [chosen, hrd, hwr]

/-- Outside drain mode a write within the age cap waits for every read. -/
theorem chosen_read (hrd : rd ≠ []) (hwr : wr.find? (aged w c x) = none) : ∃ q, q ∈ rd ∧ chosen w c x false rd wr = some (false, q) := by
  cases hold : rd.find? (aged w c x) with
  | some q => exact ⟨q, List.mem_of_find?_eq_some hold, chosen_aged_read hold⟩
  | none =>
    cases hhit : rd.find? (fun q => rowOpen w c q.line) with
    | some q => exact ⟨q, List.mem_of_find?_eq_some hhit, by simp [chosen, hold, hwr, hhit]⟩
    | none =>
      cases rd with
      | nil => exact absurd rfl hrd
      | cons q l => exact ⟨q, List.mem_cons_self, by simp [chosen, hold, hwr, hhit]⟩

/-- No refresh is forced on a rank that owes fewer than 16. -/
theorem forced_none {sub rank : Nat} (t : Nat) (h : ((w.chan c).rank sub rank).owed < 4096) : forced w c sub rank t = w := by
  rw [forced, forceRefs, if_neg (Nat.not_le.mpr h)]

theorem forcedSub_none {sub : Nat} (t : Nat) (h : ∀ r, r < 4 → ((w.chan c).rank sub r).owed < 4096) : forcedSub w c sub t = w := by
  rw [forcedSub, forced_none t (h 0 (by decide)), forced_none t (h 1 (by decide)), forced_none t (h 2 (by decide)),
    forced_none t (h 3 (by decide))]

/-- The burst of a read whose row is open. -/
theorem issueAccess_open_read (sub t : Nat) (h : rowOpen w c q.line = true) :
    issueAccess w c sub t false q =
      (w.setChan c ({ w.chan c with reads := (w.chan c).reads.erase q }.note
        { kind := 0, t := t, sub := sub, rank := lineRank w q.line, bank := lineBank w q.line, line := q.line,
          again := q.again, acct := q.acct })).emit (.dram c sub busRd (lineRank w q.line) (lineBank w q.line)) := by
  have hact : activate w c q.line t q.acct = w := by rw [activate, if_pos h]
  rw [issueAccess, hact]
  rfl

end

/-! ### Slots (R546-R550) -/

section
variable {w : Work} {c sub rank t : Nat}

/-- A REFsb moves the rank to its next bank address and changes nothing else of the rank. -/
theorem issueRef_rank (w : Work) (c sub rank t : Nat) :
    ((issueRef w c sub rank t).chan c).rank sub rank =
      { (w.chan c).rank sub rank with bank := (((w.chan c).rank sub rank).bank + 1) % 4 } := by
  unfold issueRef
  change (((w.setChan c _).chan c).rank sub rank) = _
  rw [chan_setChan_same]
  exact rank_setRank_same ..

theorem issueRef_out (w : Work) (c sub rank t : Nat) :
    (issueRef w c sub rank t).out = .dram c sub busRef rank ((w.chan c).rank sub rank).bank :: w.out := rfl

theorem displaceRef_none {kind : Nat} (h : ((w.chan c).rank sub rank).slots = 0) : displaceRef w c sub rank kind = w := if_pos h

theorem displaceRef_slot {kind : Nat} (h : ((w.chan c).rank sub rank).slots ≠ 0) :
    displaceRef w c sub rank kind =
      (w.setChan c ((w.chan c).setRank sub rank { (w.chan c).rank sub rank with
        slots := ((w.chan c).rank sub rank).slots - 1, owed := ((w.chan c).rank sub rank).owed + 256 })).emit
        (.dram c sub kind rank 0) := if_neg h

/-- A refresh slot that is not there, or whose time has not come, with no refresh forced: nothing is sent. -/
theorem execRefreshSlot_waits {s : State} {chan : Nat} (howed : ((s.w.chan chan).rank sub rank).owed < 4096)
    (h : ((s.w.chan chan).rank sub rank).slots = 0 ∨
      s.env.clk.now < slotTime s.env (s.w.chan chan) rank ((s.w.chan chan).rank sub rank)) :
    execRefreshSlot chan sub rank s = .next s := by
  refine traffic_same ?_
  dsimp only
  rw [if_pos h, forced_none _ howed]

/-- A refresh slot whose time has come sends REFsb, and no further one is forced. -/
theorem execRefreshSlot_sends {s : State} {chan : Nat} (hp : poolRuns s.env = true)
    (howed : ((s.w.chan chan).rank sub rank).owed < 4096) (hslot : ((s.w.chan chan).rank sub rank).slots ≠ 0)
    (htime : slotTime s.env (s.w.chan chan) rank ((s.w.chan chan).rank sub rank) ≤ s.env.clk.now) :
    execRefreshSlot chan sub rank s = .next { s with
      w := issueRef (s.w.setChan chan ((s.w.chan chan).setRank sub rank { (s.w.chan chan).rank sub rank with
        slots := ((s.w.chan chan).rank sub rank).slots - 1 })) chan sub rank s.env.clk.now } := by
  have hgo : ¬(((s.w.chan chan).rank sub rank).slots = 0 ∨
      s.env.clk.now < slotTime s.env (s.w.chan chan) rank ((s.w.chan chan).rank sub rank)) := by
    rintro (h | h)
    · exact hslot h
    · exact absurd h (Nat.not_lt.mpr htime)
  refine traffic_of hp ?_
  dsimp only
  rw [if_neg hgo, forced_none]
  rw [issueRef_rank, chan_setChan_same, rank_setRank_same]
  exact howed

end

end Sys2Proof.Machine

open Sys2Proof Sys2Proof.Machine

/-- Settles O29: what is queued, what is chosen among the queued (`chosen_read`), and what a decoded line does. -/
theorem channelQueuesAndReads : Obligations.ChannelQueuesAndReads := by
  unfold Obligations.ChannelQueuesAndReads
  refine ⟨?_, ?_, ?_, ?_⟩
  · intro chan line x d s hp hline htakes c
    have hgo : ¬(channelOf s.w line ≠ chan ∨ takesAccess s.w chan = false) := by simp [hline, htakes]
    refine ⟨?_, fun hany => ?_, fun hany => ?_⟩
    · exact show execDramAccessArrive chan false line x d s = _ from traffic_of hp ((if_neg hgo).trans rfl)
    · refine show execDramAccessArrive chan true line x d s = _ from traffic_of hp ((if_neg hgo).trans ?_)
      rw [if_pos rfl, if_pos (.inr hany), queueWrite_replaces _ _ _ hany]
    · refine show execDramAccessArrive chan true line x d s = _ from traffic_of hp ((if_neg hgo).trans ?_)
      have hroom : ((s.w.chan chan).writes.length < 64 ∨ (s.w.chan chan).writes.any (fun q => q.line == line) = true) ↔
          (s.w.chan chan).writes.length < 64 := or_iff_left (by rw [show _ = false from hany]; exact Bool.false_ne_true)
      rw [if_pos rfl, if_congr hroom rfl rfl, queueWrite_appends _ _ _ hany]
  · intro chan sub x ready s hp w
    refine ⟨fun hstop => ?_, fun halert hrecentre => ?_⟩
    · exact show execDramCommandIssue chan sub x ready s = _ from traffic_same (if_pos ((Bool.or_eq_true ..).mpr hstop))
    · have hgo : ¬(mhas (s.w.chan chan).alert sub || inRecentre s.env s.w chan x) = true := by
        rw [halert, hrecentre]; exact Bool.false_ne_true
      refine ⟨fun hpick => ?_, fun wr q hpick => ?_, fun q howed hpick hopen => ?_⟩
      · refine show execDramCommandIssue chan sub x ready s = _ from traffic_of hp ((if_neg hgo).trans ?_)
        simp only [show pickAccess (forcedSub s.w chan sub x) chan sub x ready = none from hpick]
        rfl
      · refine show execDramCommandIssue chan sub x ready s = _ from traffic_of hp ((if_neg hgo).trans ?_)
        simp only [show pickAccess (forcedSub s.w chan sub x) chan sub x ready = some (wr, q) from hpick]
        rfl
      · refine show execDramCommandIssue chan sub x ready s = _ from traffic_of hp ((if_neg hgo).trans ?_)
        simp only [forcedSub_none x howed, hpick]
        exact issueAccess_open_read sub x hopen
  · exact fun w chan x rd wr => ⟨fun q => chosen_aged_read, fun q => chosen_aged_write, chosen_read⟩
  · intro line err s hp hserve
    have hgo : ¬(!serving s.w line) = true := by rw [hserve]; exact Bool.false_ne_true
    refine ⟨?_, fun i hdec => ?_, fun hdec => ?_⟩
    · rintro (hdec | hdec) <;>
        exact show execDramReadReturn line err s = _ from traffic_same ((if_neg hgo).trans (by rw [hdec]))
    · exact show execDramReadReturn line err s = _ from traffic_of hp ((if_neg hgo).trans (by rw [hdec]))
    · exact show execDramReadReturn line err s = _ from traffic_of hp ((if_neg hgo).trans (by rw [hdec]))

/-- Settles O30: a slot that is left is used, and none is without one; no refresh is forced where fewer than 16 are owed. -/
theorem channelSlotsAreUsed : Obligations.ChannelSlotsAreUsed := by
  unfold Obligations.ChannelSlotsAreUsed
  refine ⟨?_, ?_, ?_, ?_⟩
  · intro chan sub rank s hp howed r less swap
    refine ⟨fun hearly => execRefreshSlot_waits howed (.inr hearly), fun hnone => ⟨execRefreshSlot_waits howed (.inl hnone), ?_, ?_⟩,
      fun hslot => ⟨fun htime => execRefreshSlot_sends hp howed hslot htime, ?_, ?_, ?_, ?_⟩⟩
    · exact show execZqCalibration chan sub rank s = _ from traffic_same (displaceRef_none hnone)
    · exact show execEcsOperation chan sub rank s = _ from traffic_same (displaceRef_none hnone)
    · rw [issueRef_out, chan_setChan_same, rank_setRank_same]
      rfl
    · rw [issueRef_rank, chan_setChan_same, rank_setRank_same]
    · exact show execZqCalibration chan sub rank s = _ from traffic_of hp (displaceRef_slot hslot)
    · exact show execEcsOperation chan sub rank s = _ from traffic_of hp (displaceRef_slot hslot)
  · intro chan sub rank bank s hp hrfm
    exact show execRfmSlot chan sub rank bank s = _ from traffic_of hp (if_neg hrfm)
  · intro chan sub rank reading double m s hp hmod
    have hgo : ¬(s.w.chan chan).mod.isNone = true := by rw [hmod]; exact Bool.false_ne_true
    exact ⟨show execMr4Read chan sub rank double s = _ from traffic_of hp (if_neg hgo),
      show execSpdThermalRead chan reading s = _ from traffic_of hp (if_neg hgo)⟩
  · intro chan groups s hp hdue htakes halert
    refine ⟨?_, ?_⟩
    · exact show execRecentreSlot chan false groups s = _ from traffic_of hp (if_neg (by
        rw [hdue, htakes, halert]; exact Bool.false_ne_true))
    · exact show execRecentreSlot chan true groups s = _ from traffic_same (if_pos (by
        rw [Bool.or_true, Bool.true_or]))

end

section
/-! PROOFS. Alerts, entries to OUT, training, rebuild and row repair of a channel (14 R534, R553-R569; 04 R117, R125; 15 R601). -/

namespace Sys2Proof.Machine

/-! ### Alerts and drains (R562-R564, 04 R117) -/

section
variable {e : Env} {c : Nat} {w : Work} {i : Issued}

theorem undoCommand_read (h : i.kind = 0) : undoCommand e c w i = if i.again then raiseUe e w i.line
    else w.setChan c { w.chan c with reads := { line := i.line, t := i.t, again := true, acct := i.acct } :: (w.chan c).reads } :=
  if_pos h

theorem undoCommand_write (h : i.kind = 1) : undoCommand e c w i = repairWrite e w i.line := by
  simp only [undoCommand, h, Nat.one_ne_zero, if_false, if_true]

theorem undoCommand_refresh (h : i.kind = 2) : undoCommand e c w i =
    w.setChan c ((w.chan c).setRank i.sub i.rank { (w.chan c).rank i.sub i.rank with
      owed := ((w.chan c).rank i.sub i.rank).owed + 256 }) := by
  simp only [undoCommand, h, OfNat.ofNat_ne_zero, OfNat.ofNat_ne_one, Nat.reduceEqDiff, if_false]

theorem undoCommand_rfm (h : i.kind = 3) : undoCommand e c w i = w.emit (.dram c i.sub busRfm i.rank i.bank) := by
  simp only [undoCommand, h, OfNat.ofNat_ne_zero, OfNat.ofNat_ne_one, if_false, if_true]

theorem undoCommand_activate (h : i.kind = 4) :
    undoCommand e c w i = w.setChan c { w.chan c with rows := mdel (w.chan c).rows (bankKey i.sub i.rank i.bank) } := by
  simp only [undoCommand, h, OfNat.ofNat_ne_zero, OfNat.ofNat_ne_one, Nat.reduceEqDiff, if_false, if_true]

end

/-! ### Training (R534, R553-R557) -/

section
variable {e : Env} {w : Work}

/-- Recording the reference module changes the geometry register and the note of it alone. -/
theorem recordGeometry_eq (e : Env) (w : Work) (c : Nat) (m : Module) :
    ∃ g r, recordGeometry e w c m = { w with regs := g, chans := { w.chans with refs := r } } := by
  unfold recordGeometry
  dsimp only
  split
  · exact ⟨_, _, rfl⟩
  · exact ⟨w.regs, w.chans.refs, rfl⟩

/-- Saving a channel's record changes the saved records alone. -/
theorem saveRecord_eq (w : Work) (c : Nat) : ∃ t, saveRecord w c = { w with chans := { w.chans with trained := t } } := by
  unfold saveRecord
  split
  · exact ⟨_, rfl⟩
  · exact ⟨w.chans.trained, rfl⟩

/-- Groups that a training settles. -/
def trainedGroups (m : Module) (groups : List (Nat × Sweeps)) : AMap GroupRec :=
  (groupKeys m).foldl (fun g k => mset g k (trainedGroup (sweepsOf groups k))) []

/-- The state once training has passed. -/
def trainedWork (e : Env) (w : Work) (chan : Nat) (m : Module) (groups : List (Nat × Sweeps)) : Work :=
  let u := recordGeometry e w chan m
  let v := u.setChan chan { mod := some m, groups := trainedGroups m groups, spd := (u.chan chan).spd }
  let v := (v.setReg (aChannelTrainStatus chan) 0).setFld (aChannelTrainStatus chan) 23 16 (groupSpan (trainedGroups m groups))
  (saveRecord v chan).queue (.chanTo chan (if (u.chan chan).cold then chOnline else chReady))

/-- A field of 8 bits put into bits 23:16 of a register that reads 0 leaves its lower half 0. -/
theorem reg_field_low (w : Work) (a x : Nat) : ((w.setReg a 0).setFld a 23 16 x).reg a % 2 ^ 16 = 0 := by
  rw [Work.setFld, Work.reg_setReg_same, Work.reg_setReg_same]
  simp only [putBits, bitsOf]
  omega

theorem trainedWork_spec (e : Env) (w : Work) (chan : Nat) (m : Module) (groups : List (Nat × Sweeps)) :
    let t := trainedWork e w chan m groups
    t.pool = w.pool ∧ (t.chan chan).mod = some m ∧ (t.chan chan).groups = trainedGroups m groups ∧
    t.reg (aChannelTrainStatus chan) % 2 ^ 16 = 0 ∧
    t.due = w.due ++ [.chanTo chan (if (w.chan chan).cold then chOnline else chReady)] := by
  obtain ⟨g, r, hgeo⟩ := recordGeometry_eq e w chan m
  have hcold : ({ w with regs := g, chans := { w.chans with refs := r } } : Work).chan chan = w.chan chan := rfl
  simp only [trainedWork, hgeo, hcold]
  generalize hv : ((Work.setChan _ chan _).setReg (aChannelTrainStatus chan) 0).setFld (aChannelTrainStatus chan) 23 16 _ = v
  obtain ⟨t, hsave⟩ := saveRecord_eq v chan
  have hchan : v.chan chan = { mod := some m, groups := trainedGroups m groups, spd := (w.chan chan).spd } := by
    rw [← hv]
    exact chan_setChan_same ..
  have hreg : v.reg (aChannelTrainStatus chan) % 2 ^ 16 = 0 := by rw [← hv]; exact reg_field_low ..
  have hpool : v.pool = w.pool := by rw [← hv]; rfl
  have hdue : v.due = w.due := by rw [← hv]; rfl
  rw [hsave]
  refine ⟨hpool, ?_, ?_, hreg, ?_⟩
  · change (v.chan chan).mod = _
    rw [hchan]
  · change (v.chan chan).groups = _
    rw [hchan]
  · rw [Work.queue_due]
    exact congrArg (· ++ _) hdue

end

/-! ### Rebuild (04 R125, R127) -/

/-- A unit none of whose lines comes from another device is rebuilt at once. -/
theorem execRebuildStep_local {s : State} {chan k : Nat} {o : OpSlot} (hp : poolRuns s.env = true)
    (hslot : rebuildSlot s.w chan = some (k, o)) (hst : chanState s.w chan = chRebuilding) (hmark : o.mark < rebuildEnd s.w chan)
    (hrun : o.st = 1) (hnext : o.next ≠ some o.mark) (hopen : bgOpen s.w (bgPart s.w (chan / 10)) = true)
    (hrepair : (unitLines s.w chan o.mark).any (repairHolds s.w chan) = false)
    (hnear : ∀ l, l ∈ unitLines s.w chan o.mark → remoteSource s.env s.w o l = none) :
    execRebuildStep chan s = .next { s with
      w := advanceMark ((unitLines s.w chan o.mark).foldl (rebuildLine s.env o)
        (bgDraw s.w (bgPart s.w (chan / 10)) ((unitLines s.w chan o.mark).foldl (fun n l => n + rebuildBytes s.env s.w o l) 0)))
        k chan o } := by
  have hgo : ¬(chanState s.w chan ≠ chRebuilding ∨ o.mark ≥ rebuildEnd s.w chan ∨ o.st ≠ 1 ∨ bgOpen s.w (bgPart s.w (chan / 10)) = false ∨
      (unitLines s.w chan o.mark).any (repairHolds s.w chan) = true) := by
    simp [hst, Nat.not_le.mpr hmark, hrun, hopen, hrepair]
  have hfar : (unitLines s.w chan o.mark).filterMap (fun l => (remoteSource s.env s.w o l).map (fun x => (l, x))) = [] :=
    List.filterMap_eq_nil_iff.mpr (fun l hl => by rw [hnear l hl]; rfl)
  refine traffic_of hp ?_
  simp only [hslot, if_neg hgo, if_neg hnext, hfar, List.any_nil, Bool.false_eq_true, if_false, Bool.not_false, List.filter_true,
    List.isEmpty_nil, if_true]

/-! ### Row repair (R567-R569) -/

theorem pprHard_putBits (v : Nat) : pprHard (putBits v 28 28 1) = true := by
  simp only [pprHard, bitAt, putBits, bitsOf, beq_iff_eq]
  omega

theorem pprCheck_hard {w : Work} {c v : Nat} (resource : Bool) (h : chanState w c ≠ chOut) :
    pprCheck w c v true resource = 0x020E := by
  have hne : (chanState w c != chOut) = true := bne_iff_ne.mpr h
  simp only [pprCheck, hne, if_true]

theorem pprStart_code (w : Work) (c v : Nat) (resource confirmed : Bool) (bad : List Nat) :
    pprStart w c v resource confirmed bad =
      (let u := w.setReg (aChannelPprCtl c) (2 ^ 20 * bitsOf v 28 20 + bitsOf v 16 0)
       let code := pprCheck u c v (pprHard v) resource
       let answer := u.setFld (aChannelPprStatus c) 15 0 code
       if code = 0 then
         (answer.setFld (aChannelPprStatus c) 18 16 1).setChan c { answer.chan c with ppr := some ⟨v, confirmed, bad⟩ }
       else answer) := by
  unfold pprStart
  exact ite_not ..

/-- A line that holds the poison pattern and can be read. -/
def poisoned (w : Work) (l : Nat) : Prop := w.pool.bad.contains l = false ∧ w.pool.poison.contains l = true

theorem rawRead_poisoned {w : Work} {l : Nat} (key : Option KeyId) (h : poisoned w l) : rawRead w key l = some ⟨0, true⟩ := by
  rw [rawRead, h.1, h.2, if_neg Bool.false_ne_true, if_pos rfl]

theorem contains_sadd_of_contains {l : List Nat} {a : Nat} (k : Nat) (h : l.contains a = true) : (sadd l k).contains a = true := by
  induction l with
  | nil => cases h
  | cons i r ih =>
    rw [List.contains_cons, Bool.or_eq_true] at h
    unfold sadd
    split
    · rw [List.contains_cons, Bool.or_eq_true]
      exact h.imp_right ih
    · split
      · rw [List.contains_cons, Bool.or_eq_true]
        exact h
      · rw [List.contains_cons, List.contains_cons, Bool.or_eq_true, Bool.or_eq_true]
        exact .inr h

theorem contains_sdel_of_not {l : List Nat} {a : Nat} (k : Nat) (h : l.contains a = false) : (sdel l k).contains a = false := by
  rw [List.contains_eq_mem, decide_eq_false_iff_not] at h ⊢
  exact fun hmem => h (List.mem_filter.mp hmem).1

theorem poisoned_write_same (w : Work) (l : Nat) : poisoned (rawWrite w none l ⟨0, true⟩) l :=
  ⟨contains_sdel_same .., contains_sadd_same ..⟩

theorem poisoned_write {w : Work} {a : Nat} (l : Nat) (h : poisoned w a) : poisoned (rawWrite w none l ⟨0, true⟩) a :=
  ⟨contains_sdel_of_not l h.1, contains_sadd_of_contains l h.2⟩

theorem poisoned_writes {ls : List Nat} {a : Nat} (w : Work) (h : poisoned w a ∨ a ∈ ls) :
    poisoned (ls.foldl (fun w l => rawWrite w none l ⟨0, true⟩) w) a := by
  induction ls generalizing w with
  | nil => exact h.resolve_right List.not_mem_nil
  | cons l r ih =>
    rw [List.foldl_cons]
    refine ih _ ?_
    cases h with
    | inl h => exact .inl (poisoned_write l h)
    | inr h =>
      cases List.mem_cons.mp h with
      | inl h => exact .inl (h ▸ poisoned_write_same w a)
      | inr h => exact .inr h

/-- An sPPR leaves the lines that could not be corrected as the poison pattern. -/
theorem repairRow_poisons {w : Work} {chan l : Nat} {p : Repair} (hsoft : pprHard p.v = false) (hrow : l ∈ rowLines w chan p.v)
    (hbad : l ∈ p.bad ∨ l ∈ w.pool.bad) : poisoned (repairRow w chan p) l := by
  rw [repairRow, if_neg (by rw [hsoft]; exact Bool.false_ne_true)]
  refine poisoned_writes _ (.inr (List.mem_filter.mpr ⟨hrow, ?_⟩))
  obtain ⟨_, _, _, _, _, hq⟩ := (quiet_memRead w acctDev ((rowLines w chan p.v).headD 0) 128).trans
    (quiet_memWrite _ acctDev ((rowLines w chan p.v).headD 0) 128)
  rw [hq]
  simpa using hbad

end Sys2Proof.Machine

open Sys2Proof Sys2Proof.Machine

/-- Settles O32: a command of the alert window is undone by its kind, and a drain that ends leaves empty queues. -/
theorem alertsAndChannelOut : Obligations.AlertsAndChannelOut := by
  unfold Obligations.AlertsAndChannelOut
  refine ⟨?_, ?_, ?_, ?_⟩
  · intro chan sub x m s hp hmod
    refine ⟨fun halert => ?_, fun halert => ?_⟩
    · exact show execDramAlert chan sub x s = _ from traffic_same (if_pos (by rw [halert, Bool.or_true]))
    · exact show execDramAlert chan sub x s = _ from traffic_of hp (if_neg (by rw [hmod, halert]; exact Bool.false_ne_true))
  · intro chan sub x a s hp halert hlater c hit w
    refine show execDramAlertCleared chan sub x s = _ from traffic_of hp ?_
    simp only [halert]
    exact if_neg (Nat.not_lt.mpr hlater)
  · exact fun e chan w i => ⟨undoCommand_read, undoCommand_write, undoCommand_refresh, undoCommand_rfm, undoCommand_activate⟩
  · intro chan d s hp hout
    exact show execChannelOut chan s = _ from traffic_of hp (by simp only [drained, hout])

/-- Settles O33: each check's outcome selects the next state; what training leaves is `trainedWork_spec`. -/
theorem trainingRebuildAndRepair : Obligations.TrainingRebuildAndRepair := by
  unfold Obligations.TrainingRebuildAndRepair
  refine ⟨?_, ?_, ?_, ?_, ?_, ?_, ?_, ?_⟩
  · intro chan m groups s hp hopen
    have hgo : ¬(!trainingOpen s.w chan) = true := by rw [hopen]; exact Bool.false_ne_true
    refine ⟨fun hno => ?_, fun k code hok hfault => ?_, fun hok hfault => ?_⟩
    · exact show execTrainingPassed chan m groups s = _ from
        traffic_of hp ((if_neg hgo).trans (if_pos (by rw [hno]; rfl)))
    · have hok' : ¬(!supported m) = true := by rw [hok]; exact Bool.false_ne_true
      exact show execTrainingPassed chan m groups s = _ from
        traffic_of hp ((if_neg hgo).trans ((if_neg hok').trans (by rw [hfault])))
    · have hok' : ¬(!supported m) = true := by rw [hok]; exact Bool.false_ne_true
      have hrun : execTrainingPassed chan m groups s = .next { s with w := trainedWork s.env s.w chan m groups } :=
        traffic_of hp ((if_neg hgo).trans ((if_neg hok').trans (by rw [hfault]; rfl)))
      exact ⟨_, hrun, rfl, rfl, trainedWork_spec s.env s.w chan m groups⟩
  · intro chan code group sub rank s hp hopen
    refine show execTrainFailed chan code group sub rank s = _ from traffic_of hp ?_
    rw [hopen, Bool.true_and]
    by_cases hcode : code = 0
    · rw [if_pos hcode, if_neg (by rw [hcode]; exact Bool.false_ne_true)]
    · rw [if_neg hcode, if_pos (bne_iff_ne.mpr hcode)]
  · intro chan k o s hp hslot hst hmark hrun hnext hopen hrepair hnear
    exact execRebuildStep_local hp hslot hst hmark hrun hnext hopen hrepair hnear
  · intro chan v resource confirmed bad s hp u w code answer busy
    refine ⟨?_, ?_, fun hout => ?_⟩
    · exact show execPprSppr chan v resource confirmed bad s = _ from traffic_of hp (pprStart_code ..)
    · exact show execPprHppr chan v resource confirmed s = _ from traffic_of hp (pprStart_code ..)
    · change pprCheck (w 1) chan (putBits v.toNat 28 28 1) (pprHard (putBits v.toNat 28 28 1)) resource = _
      rw [pprHard_putBits, pprCheck_hard resource hout]
  · intro e w chan p hppr
    simp only [repairDone, hppr]
  · exact fun w chan l p hsoft hrow hbad => rawRead_poisoned none (repairRow_poisons hsoft hrow hbad)
  · intro chan v s hp
    exact show execChannelSchedWrite chan v s = _ from traffic_of hp rfl
  · intro chan k v s hp
    exact show execBankMaskWrite chan k v s = _ from traffic_of hp rfl

end

section
/-! PROOFS. Zeroing and the patrol (17 R649-R652), page moves (03 R97, R98), and the enables of the address map and of the Gazetteer (03
R68, 05 R184). -/

namespace Sys2Proof.Machine

/-! ### Zeroing and the patrol -/

/-- A field of the status register reads what was put into it. -/
theorem fld_setFld_18_16 (w : Work) (a x : Nat) : (w.setFld a 18 16 x).fld a 18 16 = x % 8 := by
  rw [Work.fld, Work.setFld, Work.reg_setReg_same]
  simp only [bitsOf, putBits]
  omega

theorem setFld_pool_comm (w : Work) (a hi lo x : Nat) (p : Pool) :
    { w.setFld a hi lo x with pool := p } = ({ w with pool := p } : Work).setFld a hi lo x := rfl

section
variable {s : State} {p done : Nat}

theorem execSpargeZeroStep_runs {lines : Nat} (hp : poolRuns s.env = true) (hzero : s.w.pool.zero = some (p, done))
    (hopen : bgOpen s.w (parcelPart s.w p) = true) :
    execSpargeZeroStep lines s = .next { s with
      w :=
        let n := min lines (parcelLines s.w p - done)
        let w := (List.range n).foldl (fun w i => zeroOffset s.env w p (64 * (done + i))) (bgDraw s.w (parcelPart s.w p) (64 * n))
        { w with pool := { w.pool with zero := some (p, done + n) } }.setReg aSpargeZeroMark ((done + n) / 32768) } := by
  refine traffic_of hp ?_
  simp only [hzero, hopen, Bool.true_eq_false, if_false]

theorem execSpargeZeroStep_waits {lines : Nat} (hzero : s.w.pool.zero = some (p, done))
    (hclosed : bgOpen s.w (parcelPart s.w p) = false) : execSpargeZeroStep lines s = .next s := by
  refine traffic_same ?_
  simp only [hzero, hclosed, if_true]

theorem execZeroingDone_waits (hzero : s.w.pool.zero = some (p, done)) (hmore : done < parcelLines s.w p) :
    execZeroingDone s = .next s := by
  refine traffic_same ?_
  simp only [hzero, hmore, true_or, if_true]

/-- The end of a zeroing (R650). -/
theorem execZeroingDone_ends (hp : poolRuns s.env = true) (hzero : s.w.pool.zero = some (p, done))
    (hall : parcelLines s.w p ≤ done) (hidle : (allReqs s.w).any (fun r => r.agent == 0x7E && r.parcel == p) = false) :
    execZeroingDone s = .next { s with
      w := ({ s.w with pool := { s.w.pool with zero := none, zeroed := sadd s.w.pool.zeroed p } } : Work).setFld aSpargeStatus 18 16 2 } := by
  have hgo : ¬(done < parcelLines s.w p ∨ (allReqs s.w).any (fun r => r.agent == 0x7E && r.parcel == p) = true) := by
    rw [hidle]
    exact not_or.mpr ⟨Nat.not_lt.mpr hall, Bool.false_ne_true⟩
  refine traffic_of hp ?_
  simp only [hzero]
  refine (if_neg hgo).trans ?_
  rw [Work.setFld_pool]
  exact setFld_pool_comm s.w aSpargeStatus 18 16 2 _

/-- The patrol while it is enabled and every tract's background allotment is open. -/
theorem execPatrolRead_runs {errs : List (Nat × Image)} (hp : poolRuns s.env = true) (hon : s.w.fld aSpargePatrol 31 31 ≠ 0)
    (hopen : patrolOpen s.w = true) :
    execPatrolRead errs s = .next { s with
      w :=
        let x := s.w.pool.patrol
        let w := (List.range 8).foldl (patrolStripe s.env x) ((List.range 80).foldl (patrolLine s.env errs x) s.w)
        if x + 1 < patrolEnd w then { w with pool := { w.pool with patrol := x + 1 } } else patrolPass s.env w } := by
  have hgo : ¬(s.w.fld aSpargePatrol 31 31 = 0 ∨ patrolOpen s.w = false) := by simp [hon, hopen]
  refine traffic_of hp ((if_neg hgo).trans ?_)
  dsimp only
  rw [← ite_not, if_congr Nat.not_le rfl rfl]

end

/-! ### Page moves -/

theorem bitsOf_go_28 (v : Nat) : bitsOf (putBits v 31 31 1) 28 28 = bitsOf v 28 28 := by
  simp only [bitsOf, putBits]
  omega

theorem bitsOf_go_8_0 (v : Nat) : bitsOf (putBits v 31 31 1) 8 0 = bitsOf v 8 0 := by
  simp only [bitsOf, putBits]
  omega

/-- The move that a go starts. -/
def newMove (e : Env) (w : Work) (v : Nat) : PageMove :=
  { parcel := w.fld aSheetMoveParcel 15 0, plot := w.fld aSheetMovePlot 25 0, page := bitsOf v 8 0, copy := bitsOf v 28 28
    tdev := (moveTarget w).1, tpage := (moveTarget w).2, frame := e.clk.frame }

theorem sheetMoveWrite_go {e : Env} {w : Work} (v : Nat) (h : w.pool.move = none) :
    sheetMoveWrite e w (putBits v 31 31 1) =
      (let u := w.setReg aSheetMoveCtl (2 ^ 28 * bitsOf v 28 28 + bitsOf v 8 0)
       if moveRefused e u (u.fld aSheetMoveParcel 15 0) (u.fld aSheetMovePlot 25 0) then u.setReg aSheetMoveStatus 4
       else ({ u with pool := { u.pool with move := some (newMove e u v) } }).setReg aSheetMoveStatus 1) := by
  simp only [sheetMoveWrite, bitsOf_go_28, bitsOf_go_8_0, bitAt_putBits_enable, Work.setReg_pool, h, Option.isSome_none, Bool.not_true,
    Bool.or_self, Bool.false_eq_true, if_false]
  rfl

section
variable {s : State} {m : PageMove}

theorem execPageMoveCopy_late (hmove : s.w.pool.move = some m) (hlate : moveInTime s.env s.w m = false) :
    execPageMoveCopy s = .next s := by
  refine traffic_same ?_
  simp only [hmove, hlate, or_true, if_true]

theorem execPageMoveCopy_runs {q : Nat} (hp : poolRuns s.env = true) (hmove : s.w.pool.move = some m) (hnot : m.copied = false)
    (hframe : m.frame + 1 ≤ s.env.clk.frame) (hentry : moveEntry s.env s.w m = some q) (htime : moveInTime s.env s.w m = true) :
    execPageMoveCopy s = .next { s with
      w :=
        let home := if sPriDev q = s.env.board then pageLines (qPriPage q) else []
        let w := recallPage s.env s.w m home
        if home.any (fun l => (findTxn w l).isSome || heldLine w (w.pool.move.getD m) l) then w else copyPage s.env w m q } := by
  refine traffic_of hp ?_
  simp only [hmove, hnot, Nat.not_lt.mpr hframe, htime, Bool.false_eq_true, Bool.true_eq_false, or_self, if_false, hentry]

/-- A page may be copied until three quarters of the second frame (R98). -/
theorem moveInTime_spec {e : Env} {w : Work} (h : moveInTime e w m = true) :
    e.clk.frame < m.frame + 2 ∨ (e.clk.frame = m.frame + 2 ∧ e.clk.now ≤ e.clk.start + 3 * e.period / 4) := by
  simp only [moveInTime, Bool.or_eq_true, Bool.and_eq_true, decide_eq_true_eq, beq_iff_eq] at h
  exact h.imp_right (fun ⟨⟨hframe, _⟩, hnow⟩ => ⟨hframe, hnow⟩)

end

/-! ### Enables -/

theorem memmapWrite_enable {w : Work} {v : Nat} (hon : bitAt v 31 = true) (hoff : w.fld aMemmapCtl 31 31 = 0) :
    memmapWrite w v =
      if memmapCheck w = 0 then
        { w.setReg aMemmapStatus 0 with pool := { w.pool with maskRec := some (allMasks (w.setReg aMemmapStatus 0)) } }.setReg
          aMemmapCtl (2 ^ 31)
      else w.setReg aMemmapStatus (memmapCheck w) := by
  have hgo : ¬(!bitAt v 31 || w.fld aMemmapCtl 31 31 == 1) = true := by rw [hon, hoff]; exact Bool.false_ne_true
  rw [memmapWrite, if_neg hgo]
  dsimp only
  by_cases hcode : memmapCheck w = 0
  · rw [if_pos hcode, if_neg (not_not.mpr hcode), hcode]
    rfl
  · rw [if_neg hcode, if_pos hcode]

theorem gazWrite_enable {e : Env} {w : Work} {d v : Nat} (hon : bitAt v 31 = true) (hoff : gazOn w d = false) :
    gazWrite e w d v =
      (let u := w.setReg (aGazCtl d) (bitsOf v 20 0)
       let code := gazCheck e u d
       let u' := u.setFld (aGazStatus d) 15 0 code
       if code = 0 then (showLost (headerNew e u' d) d).setFld (aGazCtl d) 31 31 1 else u') := by
  simp only [gazWrite, hoff, hon, Bool.not_true, Bool.false_eq_true, if_false]
  exact ite_not ..

end Sys2Proof.Machine

open Sys2Proof Sys2Proof.Machine

/-- Settles O35: the engine and the patrol go on only within their allotment; the end of a zeroing is `execZeroingDone_ends`. -/
theorem zeroingAndPatrolAdvance : Obligations.ZeroingAndPatrolAdvance := by
  unfold Obligations.ZeroingAndPatrolAdvance
  refine ⟨?_, ?_, ?_⟩
  · intro lines p done s hp hzero n w
    exact ⟨fun hclosed => execSpargeZeroStep_waits hzero hclosed, fun hopen => execSpargeZeroStep_runs hp hzero hopen⟩
  · intro p done s hp hzero
    refine ⟨fun hmore => execZeroingDone_waits hzero hmore, fun hall hidle => ?_⟩
    exact ⟨_, execZeroingDone_ends hp hzero hall hidle, rfl, rfl, fld_setFld_18_16 .., Work.setFld_pool ..,
      fun a ha => Work.reg_setReg_ne _ aSpargeStatus a _ ha⟩
  · intro errs s hp
    refine ⟨fun hstop => ?_, fun hon hopen => execPatrolRead_runs hp hon hopen⟩
    exact show execPatrolRead errs s = _ from traffic_same (if_pos hstop)

/-- Settles O36: a move is recalled and copied in time, or ends aborted. -/
theorem pagesMove : Obligations.PagesMove := by
  unfold Obligations.PagesMove
  refine ⟨?_, ?_, fun e w m => moveInTime_spec, ?_, ?_⟩
  · intro v s hp hnone w p i
    have hgo : sheetMoveWrite s.env s.w (putBits v.toNat 31 31 1) =
        if moveRefused s.env w p i then w.setReg aSheetMoveStatus 4
        else ({ w with pool := { w.pool with move := some (newMove s.env w v.toNat) } }).setReg aSheetMoveStatus 1 :=
      sheetMoveWrite_go v.toNat hnone
    refine ⟨fun hrefused => ?_, fun hok => ?_⟩
    · exact show execPageMove v s = _ from traffic_of hp (hgo.trans (if_pos hrefused))
    · exact show execPageMove v s = _ from traffic_of hp (hgo.trans (if_neg (by rw [hok]; exact Bool.false_ne_true)))
  · intro m q s hp hmove hnot hframe hentry home w
    exact ⟨fun hlate => execPageMoveCopy_late hmove hlate, fun htime => execPageMoveCopy_runs hp hmove hnot hframe hentry htime⟩
  · intro m s hp hmove hframe
    refine ⟨fun hcopied => ⟨?_, ?_⟩, fun hnot => ⟨?_, ?_⟩⟩
    · exact show execPageMoveDone s = _ from traffic_of hp (by simp only [hmove]; exact if_pos ⟨hcopied, hframe⟩)
    · exact show execPageMoveAbort s = _ from traffic_same (by simp only [hmove, hcopied, Bool.true_eq_false, false_and, if_false])
    · exact show execPageMoveAbort s = _ from traffic_of hp (by simp only [hmove]; exact if_pos ⟨hnot, hframe⟩)
    · exact show execPageMoveDone s = _ from traffic_same (by simp only [hmove, hnot, Bool.false_eq_true, false_and, if_false])
  · intro e w st hheld
    simp only [endMove, hheld, List.foldl_nil]

/-- Settles O37: each enable acts once, by the code of its check. -/
theorem mapAndGazetteerAreEnabled : Obligations.MapAndGazetteerAreEnabled := by
  unfold Obligations.MapAndGazetteerAreEnabled
  refine ⟨?_, ?_, ?_, fun e w d hk => if_pos hk, ?_⟩
  · intro v s hp hon hoff
    exact show execMemmapEnable v s = _ from traffic_of hp (memmapWrite_enable hon hoff)
  · intro v s hon
    exact show execMemmapEnable v s = _ from traffic_same (if_pos (by rw [hon, beq_self_eq_true, Bool.or_true]))
  · intro d v s hp hgo hoff w code w'
    exact show execGazEnable d v s = _ from traffic_of hp (gazWrite_enable hgo hoff)
  · intro d v s hon
    exact show execGazEnable d v s = _ from traffic_same (if_pos hon)

end

section
/-! PROOFS. The rules of a Daoth link and its pair (13), and a link's set-up (13 R498-R501, R512, R532, R533; 17 R644-R646). -/

namespace Sys2Proof.Machine

/-! ### Links and pairs -/

section
variable (w : Work) (n d : Nat)

@[simp] theorem link_setLink_same (l : Link) : (w.setLink n l).link n = l := mgetD_mset_same ..
@[simp] theorem link_setFld (a hi lo v : Nat) : (w.setFld a hi lo v).link n = w.link n := rfl
@[simp] theorem link_emit (o : Out) : (w.emit o).link n = w.link n := rfl
@[simp] theorem pair_setPair_same (p : Pair) : (w.setPair d p).pair d = p := mgetD_mset_same ..
@[simp] theorem pair_setFld (a hi lo v : Nat) : (w.setFld a hi lo v).pair d = w.pair d := rfl
@[simp] theorem pair_setLink (l : Link) : (w.setLink n l).pair d = w.pair d := rfl
@[simp] theorem pair_setLinkState (st : Nat) : (setLinkState w n st).pair d = w.pair d := pair_setFld ..
@[simp] theorem linkState_setLink (m : Nat) (l : Link) : linkState (w.setLink m l) n = linkState w n := rfl
@[simp] theorem linkState_takeHeader (m : Nat) (f : FlitHdr) : linkState (takeHeader w m f) n = linkState w n := rfl

theorem isLost_setFld (a hi lo v : Nat) : isLost (w.setFld a hi lo v) d = isLost w d := rfl
theorem isAbsent_setFld (a hi lo v : Nat) : isAbsent (w.setFld a hi lo v) d = isAbsent w d := rfl
theorem isLost_setLink (l : Link) : isLost (w.setLink n l) d = isLost w d := rfl
theorem isAbsent_setLink (l : Link) : isAbsent (w.setLink n l) d = isAbsent w d := rfl
theorem isLost_sendPlain (k c : Nat) : isLost (sendPlain w n k c) d = isLost w d := rfl
theorem isLost_takeHeader (f : FlitHdr) : isLost (takeHeader w n f) d = isLost w d := rfl
theorem isAbsent_takeHeader (f : FlitHdr) : isAbsent (takeHeader w n f) d = isAbsent w d := rfl
theorem isAbsent_sendPlain (k c : Nat) : isAbsent (sendPlain w n k c) d = isAbsent w d := rfl

end

theorem linkLive_of_state {w : Work} {n : Nat} (h : linkState w n = lkInit ∨ linkState w n = lkActive ∨ linkState w n = lkTest) :
    linkLive w n = true := by
  simpa [linkLive, or_assoc] using h

/-! ### Flits other than PAYLOAD (R503, R520) -/

section
variable {w : Work} {n : Nat} {f : FlitHdr} {replay : Bool} (k : Work → Work)

theorem rxPlain_taken (hlive : linkLive w n = true) (hcrc : f.crcOk = true)
    (hseq : replay = true ∨ f.seq = ((takeHeader w n f).link n).expect) : rxPlain w n f replay k = k (takeHeader w n f) := by
  have hno : ¬(!replay && f.seq != ((takeHeader w n f).link n).expect) = true := by
    obtain h | h := hseq
    · rw [h]; exact Bool.false_ne_true
    · rw [h, bne_self_eq_false, Bool.and_false]; exact Bool.false_ne_true
  simp only [rxPlain, hlive, hcrc, Bool.not_true, Bool.false_eq_true, if_false, if_neg hno]

theorem rxPlain_broken (hlive : linkLive w n = true) (hcrc : f.crcOk = false) :
    rxPlain w n f replay k = askReplay (w.inc (aDaothPortCrcErr n) 1) n := by
  simp only [rxPlain, hlive, hcrc, Bool.not_true, Bool.not_false, Bool.false_eq_true, if_false, if_true]

end

/-! ### DAOTH[n].CTL (R498, R533, 19 R735) -/

section
variable {e : Env} {w : Work} {n v : Nat}

/-- The test bit of a write of CTL. -/
def testWritten (w : Work) (n v : Nat) : Work := w.setFld (aDaothPortCtl n) 30 30 (bitsOf v 30 30)

theorem link_testWritten (w : Work) (n v m : Nat) : (testWritten w n v).link m = w.link m := link_setFld ..

theorem daothCtlWrite_enable_off (hoff : (testWritten w n v).fld (aDaothPortCtl n) 31 31 = 0) (hgo : bitAt v 31 = true)
    (hwait : (w.link n).off = false) :
    daothCtlWrite e w n v =
      (let u := testWritten w n v
       let code := daothCheck e u n
       let u' := setLinkReason u n code
       if code = 0 then startTraining e (u'.setFld (aDaothPortCtl n) 31 31 1) n else u') := by
  have hne : ¬(testWritten w n v).fld (aDaothPortCtl n) 31 31 = 1 := by rw [hoff]; decide
  have hgo' : ¬(!bitAt v 31) = true := by rw [hgo]; exact Bool.false_ne_true
  refine (if_neg hne).trans ((if_neg hgo').trans ((ite_not ..).trans ?_))
  dsimp only
  rw [link_setFld, setLinkReason, link_setFld, link_setFld, hwait, if_neg Bool.false_ne_true]
  rfl

theorem daothCtlWrite_disable_off (hoff : (testWritten w n v).fld (aDaothPortCtl n) 31 31 = 0) (hgo : bitAt v 31 = false) :
    daothCtlWrite e w n v = testWritten w n v := by
  have hne : ¬(testWritten w n v).fld (aDaothPortCtl n) 31 31 = 1 := by rw [hoff]; decide
  exact (if_neg hne).trans (if_pos (by rw [hgo]; rfl))

theorem daothCtlWrite_enable_on (hon : (testWritten w n v).fld (aDaothPortCtl n) 31 31 = 1) (hgo : bitAt v 31 = true) :
    daothCtlWrite e w n v = testWritten w n v := (if_pos hon).trans (if_pos hgo)

theorem daothCtlWrite_disable_on (hon : (testWritten w n v).fld (aDaothPortCtl n) 31 31 = 1) (hgo : bitAt v 31 = false) :
    daothCtlWrite e w n v =
      ((testWritten w n v).setFld (aDaothPortCtl n) 31 31 0).setLink n { w.link n with off := true } := by
  refine (if_pos hon).trans ((if_neg (by rw [hgo]; exact Bool.false_ne_true)).trans ?_)
  rw [link_setFld]
  rfl

theorem bitsOf_setBitAt_30 (v : Nat) (b : Bool) : bitsOf (setBitAt v 31 b) 30 30 = bitsOf v 30 30 := by
  simp only [setBitAt, putBits, bitsOf]
  omega

theorem testWritten_setBitAt (w : Work) (n v : Nat) (b : Bool) : testWritten w n (setBitAt v 31 b) = testWritten w n v := by
  rw [testWritten, bitsOf_setBitAt_30, testWritten]

theorem bitsOf_setBitAt_30_same (v : Nat) (b : Bool) : bitsOf (setBitAt v 30 b) 30 30 = if b then 1 else 0 := by
  cases b
  · simp only [setBitAt, putBits, bitsOf, Bool.false_eq_true, if_false]
    omega
  · simp only [setBitAt, putBits, bitsOf, if_true]
    omega

/-- Setting or clearing bit 30 of a register whose bit 31 is set leaves that bit set. -/
theorem bitAt_setBitAt_30 {v : Nat} (b : Bool) (h : bitsOf v 31 31 = 1) : bitAt (setBitAt v 30 b) 31 = true := by
  have hone : (if b then 1 else 0) % 2 ≤ 1 := by cases b <;> decide
  simp only [bitAt, setBitAt, putBits, bitsOf, beq_iff_eq] at h ⊢
  omega

theorem fld_testWritten (w : Work) (n v : Nat) : (testWritten w n v).fld (aDaothPortCtl n) 31 31 = w.fld (aDaothPortCtl n) 31 31 := by
  rw [testWritten, Work.fld, Work.setFld, Work.reg_setReg_same, Work.fld]
  simp only [putBits, bitsOf]
  omega

/-- TEST alone is written where CTL is written back with its bit changed. -/
theorem daothCtlWrite_test (b : Bool) (hon : w.fld (aDaothPortCtl n) 31 31 = 1) :
    daothCtlWrite e w n (setBitAt (w.reg (aDaothPortCtl n)) 30 b) = w.setFld (aDaothPortCtl n) 30 30 (if b then 1 else 0) := by
  rw [daothCtlWrite_enable_on ((fld_testWritten ..).trans hon) (bitAt_setBitAt_30 b hon), testWritten, bitsOf_setBitAt_30_same]

end

/-! ### INIT (R499-R501, R512, R526-R532) -/

section
variable {e : Env} {w : Work} {n : Nat}

theorem identIn_held {x : IdentInfo} (hfail : identCheck e w n x ≠ 0) (hother : identCheck e w n x ≠ 0x0507) :
    identIn e w n x = (e, holdLink w n (identCheck e w n x)) := by
  simp only [identIn, if_neg hother, if_pos hfail]

theorem identIn_noted {x : IdentInfo} (hok : identCheck e w n x = 0) (hrun : (w.pair (peerDev e n)).run = some x.runId) :
    identIn e w n x = (e, (setLinkState (w.setLink n { w.link n with identOk := true }) n (linkState w n)).setPair (peerDev e n)
      { w.pair (peerDev e n) with run := some x.runId }) := by
  simp only [identIn, hok, hrun, OfNat.zero_ne_ofNat, ne_eq, not_true_eq_false, if_false, bne_self_eq_false, Bool.false_eq_true,
    pair_setLinkState, pair_setLink]

/-- A link in INIT takes an IDENT of the expected number. -/
theorem execIdent_init {s : State} {f : FlitHdr} {x : IdentInfo} {u : Work} (hp : mainRuns s.env = true)
    (hinit : linkState s.w n = lkInit) (hcrc : f.crcOk = true) (hseq : f.seq = ((takeHeader s.w n f).link n).expect)
    (hin : identIn s.env (takeHeader s.w n f) n x = (s.env, u)) : execIdent n f x s = .next { s with w := u } := by
  have hwake : wakes s.env s.w n x = false := by
    rw [wakes, hinit]
    rfl
  refine whole_of (x := (s.env, u)) ?_
  simp only [hp, hcrc, hwake, rxPlain_taken id (linkLive_of_state (.inl hinit)) hcrc (.inr hseq), id, linkState_takeHeader, hinit,
    hin, Bool.not_true, Bool.and_false, Bool.false_eq_true, if_false, beq_self_eq_true, Bool.and_self, if_true]

/-- The counts of a link that becomes ACTIVE. -/
def creditsZero (e : Env) (l : Link) : Link :=
  { l with cons := [0, 0, 0, 0], freedIn := [0, 0, 0, 0], freed := [0, 0, 0, 0], occ := [0, 0, 0, 0], unreported := 0, flits := 0
           got := 0, since := e.clk.frame }

end

/-! ### The session exchange (17 R644-R646) -/

section
variable {e : Env} {w : Work} {d hash key sig : Nat} {ok : Bool}

/-- The membership check changes the security state alone. -/
theorem memberOk_eq {x : Env} (h : memberOk e d hash = some x) : ∃ y, x = { e with sec := y } := by
  unfold memberOk at h
  split at h
  · split at h
    · exact ⟨e.sec, (Option.some.inj h).symm⟩
    · cases h
  · split at h
    · exact ⟨_, (Option.some.inj h).symm⟩
    · cases h

/-- The links of a pair that are in INIT. -/
def initPorts (e : Env) (w : Work) (d : Nat) : List Nat := (portsTo e d).filter (fun n => linkState w n == lkInit)

theorem datumIn_between (h : initPorts e w d = []) (step : Nat) :
    datumIn e w d step ok hash key sig = (e, w.setPair d { w.pair d with datum := (w.pair d).datum + 1 }) :=
  if_pos (by rw [show (portsTo e d).filter (fun n => linkState w n == lkInit) = [] from h]; rfl)

theorem initPorts_isEmpty (h : initPorts e w d ≠ []) : ¬((portsTo e d).filter (fun n => linkState w n == lkInit)).isEmpty = true :=
  fun hempty => h (List.isEmpty_iff.mp hempty)

/-- A message of the exchange, with the pair as it stands after it. -/
def sayDatum (e : Env) (w : Work) (d k : Nat) (q : Pair) (args : List Nat) : Work :=
  (carryDatum e (w.setPair d q) .request d 0x7F).emit (.peer { op := 0x55, dev := d, args := k :: args })

/-- The session of every link of the pair in INIT. -/
def openAll (e : Env) (w : Work) (ns : List Nat) (d eph peerKey : Nat) (tr : List Nat) : Work :=
  ns.foldl (fun w n => w.setLink n (openSession e d (sessionSecret eph peerKey tr) (w.link n))) w

theorem datumIn_first_refused (hns : initPorts e w d ≠ []) (hd : d < e.board) (hmember : memberOk e d hash = none) :
    datumIn e w d 1 ok hash key sig = (e, (initPorts e w d).foldl (fun w n => holdLink w n 0x0503) w) := by
  simp only [datumIn, if_neg (initPorts_isEmpty hns), hd, and_self, if_true, hmember]
  rfl

theorem datumIn_first {x : Env} (hns : initPorts e w d ≠ []) (hd : d < e.board) (hmember : memberOk e d hash = some x) :
    datumIn e w d 1 ok hash key sig =
      (let y := w.free.1
       let tr := [key, hash, Config.publicKey y, Config.identity]
       (x, sayDatum x w.free.2 d 2 { w.pair d with step := 2, eph := y, transcript := tr ++ [Config.signature tr] }
        [Config.publicKey y, Config.identity, Config.signature tr])) := by
  obtain ⟨z, rfl⟩ := memberOk_eq hmember
  simp only [datumIn, if_neg (initPorts_isEmpty hns), hd, and_self, if_true, hmember]
  rfl

theorem datumIn_second {x : Env} (hns : initPorts e w d ≠ []) (hd : e.board < d) (hstep : (w.pair d).step = 1)
    (hmember : memberOk e d hash = some x) :
    datumIn e w d 2 true hash key sig =
      (let tr := (w.pair d).transcript ++ [key, hash, sig]
       let own := Config.signature tr
       (x, openAll x (sayDatum x w d 3 { w.pair d with step := 3, transcript := tr ++ [own] } [own]) (initPorts e w d) d (w.pair d).eph
        key (tr ++ [own]))) := by
  obtain ⟨z, rfl⟩ := memberOk_eq hmember
  have h1 : ¬(d < e.board ∧ (2 : Nat) = 1) := by omega
  simp only [datumIn, if_neg (initPorts_isEmpty hns), if_neg h1, hd, hstep, and_self, if_true, hmember]
  rfl

theorem datumIn_third (hns : initPorts e w d ≠ []) (hd : d < e.board) (hstep : (w.pair d).step = 2) :
    datumIn e w d 3 ok hash key sig =
      (let tr := (w.pair d).transcript ++ [sig]
       (e, if ok then openAll e (w.setPair d { w.pair d with step := 3, transcript := tr }) (initPorts e w d) d (w.pair d).eph
          (tr.headD 0) tr
        else (initPorts e w d).foldl (fun w n => holdLink w n 0x0503) w)) := by
  simp only [datumIn, if_neg (initPorts_isEmpty hns), hd, hstep, OfNat.ofNat_ne_one, Nat.reduceEqDiff, and_false, and_self,
    if_false, if_true]
  rfl

/-- A message of a peer for Datum from assigned agents is handled. -/
theorem peerWhole_run {s : State} {h : Hdr} {f : Env → Work → Env × Work} {e : Env} {u : Work} (hp : mainRuns s.env = true)
    (hdev : h.dev ≠ s.env.board) (hsrc : agentKnown h.src = true) (hdst : agentKnown h.dst = true) (hf : f s.env s.w = (e, u)) :
    peerWhole h s f = .next { s with env := e, w := u } := by
  have hgo : ¬(!mainRuns s.env || h.dev == s.env.board) = true := by
    rw [hp, beq_eq_false_iff_ne.mpr hdev]; exact Bool.false_ne_true
  have hnone : [h.src, h.dst].find? (fun a => !agentKnown a) = none := by simp [hsrc, hdst]
  refine whole_of (x := (e, u)) ((if_neg hgo).trans ?_)
  rw [hnone, hf]

end

end Sys2Proof.Machine

open Sys2Proof Sys2Proof.Machine

/-- Settles O39: the codes of the checks select what the set-up does; the exchange goes on step by step (`datumIn_first` and after). -/
theorem linksAreSetUp : Obligations.LinksAreSetUp := by
  unfold Obligations.LinksAreSetUp
  refine ⟨?_, ?_, ?_, ?_, ?_, ?_, fun e d s l => rfl⟩
  · intro n v s hp a w code w'
    have hw (b : Bool) : testWritten s.w n (setBitAt v.toNat 31 b) = w := testWritten_setBitAt ..
    refine ⟨fun hoff hwait => ?_, fun hoff => ?_, fun hon => ⟨?_, ?_⟩⟩
    · refine show execDaothEnable n v s = _ from traffic_of hp ?_
      rw [daothCtlWrite_enable_off (by rw [hw]; exact hoff) (bitAt_setBitAt_enable ..) hwait, hw]
    · refine show execDaothDisable n v s = _ from traffic_of hp ?_
      rw [daothCtlWrite_disable_off (by rw [hw]; exact hoff) (bitAt_setBitAt_enable ..), hw]
    · refine show execDaothEnable n v s = _ from traffic_of hp ?_
      rw [daothCtlWrite_enable_on (by rw [hw]; exact hon) (bitAt_setBitAt_enable ..), hw]
    · refine show execDaothDisable n v s = _ from traffic_of hp ?_
      rw [daothCtlWrite_disable_on (by rw [hw]; exact hon) (bitAt_setBitAt_enable ..), hw]
  · intro n s hp hon
    exact ⟨show execDaothTestSet n s = _ from traffic_of hp (daothCtlWrite_test true hon),
      show execDaothTestClear n s = _ from traffic_of hp (daothCtlWrite_test false hon)⟩
  · intro n width rate s hp htrain
    refine ⟨fun hslow => ?_, fun hwidth hrate => ?_⟩
    · exact show execLinkTrained n width rate s = _ from traffic_of hp ((if_neg (not_not.mpr htrain)).trans (if_pos hslow))
    · have hfast : ¬(width < 8 ∨ rate < 64) := by omega
      have hfull : ¬width < 16 := by omega
      refine show execLinkTrained n width rate s = _ from
        traffic_of hp ((if_neg (not_not.mpr htrain)).trans ((if_neg hfast).trans ?_))
      simp only [hfull, decide_false, Bool.false_eq_true, if_false]
  · intro n f x s hp hinit hcrc w d code hseq
    refine ⟨fun hfail hother => ?_, fun hok hrun => ?_⟩
    · exact execIdent_init hp hinit hcrc hseq (identIn_held hfail hother)
    · refine execIdent_init hp hinit hcrc hseq ((identIn_noted hok hrun).trans ?_)
      rw [linkState_takeHeader, hinit]
  · intro n trip turn f s hp hinit hcrc w l d hseq
    have hlive := linkLive_of_state (.inl hinit)
    have hinit' : linkState (takeHeader s.w n f) n = lkInit := hinit
    refine ⟨?_, fun htrip hfew => ?_, ?_⟩
    · refine show execProbe n f turn s = _ from traffic_of hp ((rxPlain_taken _ hlive hcrc (.inr hseq)).trans ?_)
      rw [if_pos hinit']
    · refine show execEcho n f trip turn s = _ from traffic_of hp ((rxPlain_taken _ hlive hcrc (.inr hseq)).trans ?_)
      have hnot : ¬(l.echoes + 1 ≥ 16 ∧ trip - turn > 2000) := by omega
      refine (if_neg (not_not.mpr hinit')).trans ?_
      simp only [show ((takeHeader s.w n f).link n).trip = none from htrip]
      exact if_neg hnot
    · intro hdone hlost habsent w₁ z w₂
      refine show execCreditInit n f s = _ from traffic_of hp ((rxPlain_taken _ hlive hcrc (.inr hseq)).trans ?_)
      have hgo : ¬(linkState (takeHeader s.w n f) n ≠ lkInit ∨ initDone ((takeHeader s.w n f).link n) = false) := by
        rintro (h | h)
        · exact h hinit'
        · rw [show initDone ((takeHeader s.w n f).link n) = true from hdone] at h
          cases h
      refine (if_neg hgo).trans ?_
      have hlost' : isLost (setLinkReason (setLinkState w₂ n lkActive) n 0) d = false := by
        rw [setLinkReason, setLinkState, isLost_setFld, isLost_setFld]
        exact (isLost_setLink w₁ n d _).trans ((isLost_sendPlain w n d _ _).trans ((isLost_takeHeader ..).trans hlost))
      have habsent' : isAbsent (setLinkReason (setLinkState w₂ n lkActive) n 0) d = false := by
        rw [setLinkReason, setLinkState, isAbsent_setFld, isAbsent_setFld]
        exact (isAbsent_setLink w₁ n d _).trans ((isAbsent_sendPlain w n d _ _).trans ((isAbsent_takeHeader ..).trans habsent))
      exact (if_neg (by rw [hlost']; exact Bool.false_ne_true)).trans (if_neg (by rw [habsent']; exact Bool.false_ne_true))
  · intro h step hash key sig ok s hp hdev hsrc hdst d p ns say open_
    refine ⟨fun hnone => ?_, fun hns hd hmember => ?_, fun hns hd e hmember => ?_, fun hns hd hstep e hmember => ?_,
      fun hns hd hstep => ⟨?_, ?_⟩⟩
    · exact show execDatum h step ok ⟨hash, key, sig⟩ s = _ from peerWhole_run hp hdev hsrc hdst (datumIn_between hnone step)
    · exact show execDatum h 1 ok ⟨hash, key, sig⟩ s = _ from peerWhole_run hp hdev hsrc hdst (datumIn_first_refused hns hd hmember)
    · exact show execDatum h 1 ok ⟨hash, key, sig⟩ s = _ from peerWhole_run hp hdev hsrc hdst (datumIn_first hns hd hmember)
    · exact show execDatum h 2 true ⟨hash, key, sig⟩ s = _ from
        peerWhole_run hp hdev hsrc hdst (datumIn_second hns hd hstep hmember)
    · exact show execDatum h 3 true ⟨hash, key, sig⟩ s = _ from peerWhole_run hp hdev hsrc hdst (datumIn_third hns hd hstep)
    · exact show execDatum h 3 false ⟨hash, key, sig⟩ s = _ from peerWhole_run hp hdev hsrc hdst (datumIn_third hns hd hstep)

end

section
/-! PROOFS. What a Daoth link does with the flits that arrive and what it sends, links that fail and return, devices that are lost, and the
Vorir lanes (13 R503-R529; 01 R22-R24). -/

namespace Sys2Proof.Machine

/-! ### Flits that arrive (R510, R520) -/

section
variable {e : Env} {w : Work} {n : Nat} {f : FlitHdr} {msgs : List MsgHead}

theorem linkLive_guard (h : linkLive w n = true) : ¬(!linkLive w n) = true := by rw [h]; exact Bool.false_ne_true

theorem execPayloadFlit_broken {s : State} (hp : poolRuns s.env = true) (hlive : linkLive s.w n = true) (hcrc : f.crcOk = false) :
    execPayloadFlit n f msgs s = .next { s with w := askReplay (s.w.inc (aDaothPortCrcErr n) 1) n } :=
  traffic_of hp ((if_neg (linkLive_guard hlive)).trans (if_pos (by rw [hcrc]; rfl)))

theorem execPayloadFlit_taken {s : State} (hp : poolRuns s.env = true) (hlive : linkLive s.w n = true) (hcrc : f.crcOk = true) :
    execPayloadFlit n f msgs s = .next { s with
      w :=
        let w := takeHeader s.w n f
        let d := (4096 + (w.link n).expect - f.seq) % 4096
        if d = 0 then acceptFlit s.env w n msgs else if d ≤ 2048 then w else askReplay w n } :=
  traffic_of hp ((if_neg (linkLive_guard hlive)).trans (if_neg (by rw [hcrc]; exact Bool.false_ne_true)))

/-- What a replay request does once its header is taken. -/
def replayAsked (e : Env) (f : FlitHdr) (n : Nat) (w : Work) : Work :=
  let l := w.link n
  let u := match l.held with | x :: _ => x.seq | [] => l.next
  let k := (4096 + f.seq - u) % 4096
  if k > l.held.length then linkDown e w n true
  else
    let w := if k = 0 then w else w.setLink n { l with held := l.held.drop k, resends := 0 }
    if (w.link n).held.isEmpty then w else resendOrDown e w n

/-- A request for the next flit of a link that holds nothing asks for nothing. -/
theorem replayAsked_nothing (hheld : (w.link n).held = []) (hseq : f.seq = (w.link n).next) : replayAsked e f n w = w := by
  have hzero : (4096 + f.seq - (w.link n).next) % 4096 = 0 := by omega
  simp only [replayAsked, hheld, hzero, List.length_nil, gt_iff_lt, Nat.lt_irrefl, if_false, if_true, List.isEmpty_nil]

/-- A request for the oldest flit held resends what is held. -/
theorem replayAsked_oldest {x : TxFlit} {rest : List TxFlit} (hheld : (w.link n).held = x :: rest) (hseq : f.seq = x.seq) :
    replayAsked e f n w = resendOrDown e w n := by
  have hzero : (4096 + f.seq - x.seq) % 4096 = 0 := by omega
  simp only [replayAsked, hheld, hzero, gt_iff_lt, Nat.not_lt_zero, if_false, if_true, List.isEmpty_cons, Bool.false_eq_true]

theorem execReplayReq_taken {s : State} {u : Work} (hp : poolRuns s.env = true) (hlive : linkLive s.w n = true) (hcrc : f.crcOk = true)
    (hasked : replayAsked s.env f n (takeHeader s.w n f) = u) : execReplayReq n f s = .next { s with w := u } :=
  traffic_of hp ((rxPlain_taken _ hlive hcrc (.inl rfl)).trans hasked)

/-- A complete group with the right tag: its messages are released. -/
theorem execPayloadMessage_verified {s : State} (hp : poolRuns s.env = true)
    (hst : linkState s.w n = lkActive ∨ linkState s.w n = lkTest) (hsome : (s.w.link n).inGroup ≠ 0)
    (hfull : (s.w.link n).expect % 4 = 0) (tagOk : Bool) :
    execPayloadMessage n tagOk s = .next { s with
      w :=
        let l := s.w.link n
        let w := s.w.setLink n { l with group := [], inGroup := 0 }
        if tagOk then l.group.foldl (fun w m => releaseMsg s.env w n m)
          (w.setLink n { l with group := [], inGroup := 0, verified := (4095 + l.expect) % 4096 })
        else linkDown s.env (linkRecord s.env (l.group.foldl (fun w m => freeSlots w n m) w) n 0x7008 1) n true } := by
  have hgo : ¬(¬(linkState s.w n = lkActive ∨ linkState s.w n = lkTest) ∨ (s.w.link n).inGroup = 0 ∨ (s.w.link n).expect % 4 ≠ 0) := by
    simp [hst, hsome, hfull]
  refine traffic_of hp ((if_neg hgo).trans ?_)
  simp only [link_setLink_same]

end

/-! ### What a link sends (R509, R513, R516-R524) -/

section
variable {e : Env} {w : Work} {n : Nat}

theorem execMessageSend_starts {s : State} {m : MsgHead} (hp : poolRuns s.env = true) (hsrc : m.srcDev = s.env.board)
    (hdst : m.dstDev = peerDev s.env n) (hcarries : carries s.w n m = true) (hstart : canStart s.w n m = true)
    (hslot : slotOpen s.env s.w m = true) (hfrozen : (s.w.pair m.dstDev).frozen = []) :
    execMessageSend n m s = .next { s with
      w := sendMsg (s.w.setPair m.dstDev (numbered (s.w.pair m.dstDev) m).2) n (numbered (s.w.pair m.dstDev) m).1 } := by
  have hgo : ¬(m.srcDev ≠ s.env.board ∨ m.dstDev ≠ peerDev s.env n ∨ carries s.w n m = false ∨ canStart s.w n m = false ∨
      slotOpen s.env s.w m = false) := by simp [hsrc, hdst, hcarries, hstart, hslot]
  refine traffic_of hp ((if_neg hgo).trans ?_)
  rw [hdst] at hfrozen ⊢
  simp only [hfrozen, List.find?_nil, ite_self]

theorem padFlits_full (k : Nat) (h : (w.link n).next % 4 = 0) : padFlits w n (k + 1) = w := by
  rw [padFlits, if_pos (.inl h)]

/-- One flit short of a whole group: one flit of PAD completes it. -/
theorem padFlits_one (k : Nat) (hnext : (w.link n).next % 4 = 3) (hroom : (w.link n).held.length < 512) :
    padFlits w n (k + 2) =
      sendFlit (w.setLink n (holdFlit (w.link n) [])) n fkPayload (w.link n).next (w.link n).ackOut 0 := by
  have hgo : ¬((w.link n).next % 4 = 0 ∨ (w.link n).held.length ≥ 512) := by omega
  have hfull : ((sendFlit (w.setLink n (holdFlit (w.link n) [])) n fkPayload (w.link n).next (w.link n).ackOut 0).link n).next % 4 = 0 := by
    rw [sendFlit, link_emit, link_setLink_same, link_setLink_same]
    change ((w.link n).next + 1) % 4096 % 4 = 0
    omega
  rw [padFlits, if_neg hgo]
  exact padFlits_full k hfull

theorem execAckAdvance_due {s : State} {ns : Nat} (hp : poolRuns s.env = true) (hlive : linkLive s.w n = true)
    (hnew : (s.w.link n).ackOut ≠ (s.w.link n).verified) (hdue : 16 ≤ (s.w.link n).unadv ∨ 64 ≤ ns ∧ (s.w.link n).unadv ≠ 0) :
    execAckAdvance n ns s = .next { s with
      w := sendPlain (s.w.setLink n { s.w.link n with
        ackOut := (s.w.link n).verified
        unadv := (4095 + (s.w.link n).expect - (s.w.link n).verified) % 4096 }) n fkIdle 0 } := by
  refine traffic_of hp (if_pos ?_)
  rw [hlive, bne_iff_ne.mpr hnew, Bool.true_and, Bool.and_true, decide_eq_true_eq]
  exact hdue

theorem execReplayReqRepeat_again {s : State} (hp : poolRuns s.env = true) (hlive : linkLive s.w n = true)
    (hasking : (s.w.link n).asking = 1 ∨ (s.w.link n).asking = 2) :
    execReplayReqRepeat n s = .next { s with
      w := sendFlit (s.w.setLink n { s.w.link n with asking := (s.w.link n).asking + 1 }) n fkReplay (s.w.link n).expect
        (s.w.link n).ackOut 0 } := by
  have hne : ((s.w.link n).asking == 0) = false := beq_eq_false_iff_ne.mpr (by omega)
  have hfew : ¬(s.w.link n).asking + 1 ≥ 4 := by omega
  refine traffic_of hp ((if_neg ?_).trans (if_neg hfew))
  rw [hlive, hne]
  exact Bool.false_ne_true

/-- Half full: xoff is set (R518). -/
theorem execXoffChange_set {s : State} {c : Cls} (hp : poolRuns s.env = true) (hinit : linkState s.w n = lkInit)
    (hclear : bitAt (s.w.link n).xoffOut (clsIx c) = false) (hhalf : 256 ≤ (s.w.link n).occ.getD (clsIx c) 0) :
    execXoffChange n c s = .next { s with
      w := sendPlain (s.w.setLink n { s.w.link n with xoffOut := setBitAt (s.w.link n).xoffOut (clsIx c) true }) n fkIdle 0 } := by
  have hroom : 512 - (s.w.link n).occ.getD (clsIx c) 0 ≤ 256 := by omega
  exact traffic_of hp ((if_neg (not_not.mpr (.inl hinit))).trans (if_pos ⟨hclear, hroom⟩))

/-- A quarter full: xoff is taken back. -/
theorem execXoffChange_clear {s : State} {c : Cls} (hp : poolRuns s.env = true) (hinit : linkState s.w n = lkInit)
    (hset : bitAt (s.w.link n).xoffOut (clsIx c) = true) (hquarter : (s.w.link n).occ.getD (clsIx c) 0 ≤ 128) :
    execXoffChange n c s = .next { s with
      w := sendPlain (s.w.setLink n { s.w.link n with xoffOut := setBitAt (s.w.link n).xoffOut (clsIx c) false }) n fkIdle 0 } := by
  have hroom : 384 ≤ 512 - (s.w.link n).occ.getD (clsIx c) 0 := by omega
  have hno : ¬(bitAt (s.w.link n).xoffOut (clsIx c) = false ∧ 512 - (s.w.link n).occ.getD (clsIx c) 0 ≤ 256) :=
    fun ⟨h, _⟩ => by rw [hset] at h; cases h
  exact traffic_of hp ((if_neg (not_not.mpr (.inl hinit))).trans ((if_neg hno).trans (if_pos ⟨hset, hroom⟩)))

end

/-! ### Links that fail, devices that are lost, Vorir lanes (R522-R529; 01 R22) -/

section
variable {e : Env} {w : Work} {n : Nat}

theorem linkDown_dead (tell : Bool) (h : linkLive w n = false) : linkDown e w n tell = w := if_pos (by rw [h]; rfl)

theorem linkDown_init (h : linkState w n = lkInit) :
    linkDown e w n false =
      (let u := setLinkState (linkRecord e w n 0x7009 1) n lkDown
       u.setLink n { freshLink (u.link n) with away := (u.link n).away }) := by
  have hlive := linkLive_of_state (.inl h)
  have hact : ¬lkInit = lkActive := by decide
  have htest : ¬lkInit = lkTest := by decide
  have hne : (lkInit != lkInit) = false := rfl
  simp only [linkDown, hlive, h, if_neg hact, if_neg htest, hne, Bool.or_false, Bool.false_and, Bool.not_true, Bool.false_eq_true,
    if_false]

theorem declareLost_lost {d : Nat} (h : isLost w d = true) : declareLost e w d = w := if_pos (by rw [h]; rfl)

/-- LOST of a device that a peer tells. -/
theorem execLost_run {s : State} {h : Hdr} {dev : Nat} {u : Env × Work} (hfrom : fromPeer s h [])
    (hf : (if dev = s.env.board then (startEntry s.env 5 s.env.clk.now, s.w) else (s.env, declareLost s.env s.w dev)) = u) :
    execLost h dev s = .next { s with env := u.1, w := u.2 } := by
  obtain ⟨hp, hdev, hsrc, hdst, -⟩ := hfrom
  exact peerWhole_run (poolRuns_main hp) hdev hsrc hdst hf

/-- A replay on a Vorir link counts it, and changes of the fabric nothing else. -/
theorem vorirReplay_vorir (w : Work) (link : Nat) :
    (vorirReplay w link).vorir = { w.vorir with replays := mmod w.vorir.replays link 0 (· + 1) } := by
  have hsame (u : Work) (m : VMsg) : (charge u acctDev 6 m.slots).vorir = u.vorir := by
    obtain ⟨k, h⟩ := charge_eq u acctDev 6 m.slots
    rw [h]
  unfold vorirReplay
  dsimp only
  split
  · rw [hsame]
    rfl
  · rfl

theorem execVorirCrcError_link {s : State} {link lane : Nat} (hp : poolRuns s.env = true) (hlink : link < 9) :
    execVorirCrcError link lane s = .next { s with
      w :=
        let w := vorirReplay s.w link
        let k := 2 ^ 16 * link + lane
        let errs := mmod w.vorir.errs k 0 (· + 1)
        { w with vorir := { w.vorir with
          errs := errs
          failing := if max 1 (w.fld aVorirLaneLimit 15 0) ≤ mgetD errs k 0 then sadd w.vorir.failing k else w.vorir.failing } } } := by
  refine traffic_of hp ((if_neg (Nat.not_le.mpr hlink)).trans ?_)
  simp only [decide_eq_true_eq]

end

end Sys2Proof.Machine

open Sys2Proof Sys2Proof.Machine

/-- Settles O40: a flit's CRC and number decide what is done with it. -/
theorem flitsAreTaken : Obligations.FlitsAreTaken := by
  unfold Obligations.FlitsAreTaken
  refine ⟨?_, ?_, ?_⟩
  · intro n f msgs s hp hlive
    refine ⟨fun hcrc => ⟨?_, ?_, ?_, ?_⟩, fun hcrc => ⟨fun hseq => ⟨?_, ?_⟩, ?_, fun hheld hseq _ => ?_,
      fun x rest hheld hseq _ => ?_⟩⟩
    · exact show execIdle n f s = _ from traffic_of hp (rxPlain_broken _ hlive hcrc)
    · exact show execTestPattern n f s = _ from traffic_of hp (rxPlain_broken _ hlive hcrc)
    · exact execPayloadFlit_broken hp hlive hcrc
    · exact show execReplayReq n f s = _ from traffic_of hp (rxPlain_broken _ hlive hcrc)
    · exact show execIdle n f s = _ from traffic_of hp (rxPlain_taken id hlive hcrc (.inr hseq))
    · exact show execTestPattern n f s = _ from traffic_of hp (rxPlain_taken id hlive hcrc (.inr hseq))
    · exact execPayloadFlit_taken hp hlive hcrc
    · exact execReplayReq_taken hp hlive hcrc (replayAsked_nothing hheld hseq)
    · exact execReplayReq_taken hp hlive hcrc (replayAsked_oldest hheld hseq)
  · intro n s hp hst hsome hfull l w
    exact ⟨execPayloadMessage_verified hp hst hsome hfull true, execPayloadMessage_verified hp hst hsome hfull false⟩
  · intro n frame code src offset arrival f s hp hactive hcrc w r hseq
    have hst : f.crcOk = true ∧ (linkState (takeHeader s.w n f) n = lkInit ∨ linkState (takeHeader s.w n f) n = lkActive) :=
      ⟨hcrc, .inr hactive⟩
    refine show execTiming n f frame code src offset arrival s = _ from whole_of (x := r) ?_
    simp only [hp, Bool.not_true, Bool.false_eq_true, if_false, rxPlain_taken id (linkLive_of_state (.inr (.inl hactive))) hcrc (.inr hseq),
      id, if_pos hst]
    rfl

/-- Settles O41: each of what a link sends goes by its threshold. -/
theorem linksSend : Obligations.LinksSend := by
  unfold Obligations.LinksSend
  refine ⟨?_, ?_, ?_, ?_, ?_⟩
  · intro n m s hp hsrc hdst hcarries hstart hslot hfrozen x
    exact execMessageSend_starts hp hsrc hdst hcarries hstart hslot hfrozen
  · intro n s hp hst
    refine ⟨fun hnext => ?_, fun hnext hroom => ?_⟩
    · exact show execGroupPad n s = _ from traffic_same ((if_pos hst).trans (padFlits_full 2 hnext))
    · exact show execGroupPad n s = _ from traffic_of hp ((if_pos hst).trans (padFlits_one 1 hnext hroom))
  · intro n ns s hp hlive l
    refine ⟨?_, fun hnew hdue => ?_, fun hheld => ?_, fun hasking => ?_⟩
    · exact show execKeepalive n s = _ from traffic_of hp (if_pos hlive)
    · exact execAckAdvance_due hp hlive hnew hdue
    · refine show execReplayTimeout n s = _ from traffic_of hp (if_pos ?_)
      rw [hlive, List.isEmpty_eq_false_iff.mpr hheld]
      rfl
    · exact execReplayReqRepeat_again hp hlive hasking
  · intro n ns s hp hactive hdue
    exact show execCreditReturnIdle n ns s = _ from traffic_of hp (if_pos ⟨hactive, hdue⟩)
  · intro n c s hp hinit l
    exact ⟨execXoffChange_set hp hinit, execXoffChange_clear hp hinit⟩

/-- Settles O42: what is live or lost already decides whether anything is declared. -/
theorem linksFailAndReturn : Obligations.LinksFailAndReturn := by
  unfold Obligations.LinksFailAndReturn
  refine ⟨?_, fun e w n h => linkDown_init h, ?_, ?_, ?_, ?_, ?_⟩
  · intro n dev s hp
    refine ⟨?_, ?_, fun hpeer hactive => ?_, fun hdead => ?_⟩
    · exact show execNoFlitTimeout n s = _ from traffic_of hp rfl
    · exact show execPhyLockLoss n s = _ from traffic_of hp rfl
    · exact show execLinkFail dev n s = _ from traffic_of hp (if_pos ⟨hpeer, hactive⟩)
    · exact show execNoFlitTimeout n s = _ from traffic_same (linkDown_dead true hdead)
  · intro n s hp haway hactive hsince hempty
    exact show execLinkFailback n s = _ from traffic_of hp (if_pos ⟨haway, hactive, hsince, hempty⟩)
  · intro dev f s hp habsent hdue hnot
    refine show execPeerLostTimeout dev s = _ from traffic_of hp ?_
    simp only [habsent, hdue, hnot, Bool.not_false, Bool.and_self, if_true]
  · intro h dev s hfrom
    refine ⟨?_, fun hother => ?_, ?_, fun hlost => ?_⟩
    · exact show execDepart h s = _ from peer_of hfrom rfl
    · exact execLost_run hfrom (if_neg hother)
    · exact execLost_run hfrom (if_pos rfl)
    · exact show execDepart h s = _ from peer_of hfrom (declareLost_lost hlost)
  · intro s hp hiso hdue
    refine show execIsolationReset s = _ from whole_of (x := (startEntry s.env 5 s.env.clk.now, s.w)) (if_pos ?_)
    rw [hp, hiso, hdue]
    rfl
  · intro link lane s hp hlink k w errs
    refine ⟨?_, ?_, execVorirCrcError_link hp hlink⟩
    · exact congrArg (·.replays) (vorirReplay_vorir s.w link)
    · exact congrArg (·.errs) (vorirReplay_vorir s.w link)

end

section
/-! PROOFS. The doorbell page (08 Table 8-3, R302, R309; 09 R391), sync descriptors at their scheduler (08 R334, 10 R405) and windows' enable (08
R346-R348, R357). -/

namespace Sys2Proof.Machine

/-! ### The doorbell page -/

section
variable {s : State} {agent r : Nat}

/-- A command to a doorbell page that can be reached. -/
theorem door_of {f : Env → Work → Work} {u : Work} (hp : poolRuns s.env = true) (hreach : ldReachable s.w agent = true)
    (hopen : ldOpen s.w agent = true) (hf : f s.env s.w = u) :
    traffic s (fun e w => doorIn e w agent (f e)) = .next { s with w := u } :=
  traffic_of hp ((doorIn_open hreach hopen s.env (f s.env)).trans hf)

/-- A write of another agent, or to a disabled ring, is discarded (R302). -/
theorem doorbell_foreign {w : Work} (h : getRing w r = none ∨ ringState w r = 0 ∨ ringOwner w r ≠ agent)
    (f : Work → Ring → Work) : doorbell w agent r f = w := by
  unfold doorbell
  split
  · next x hx =>
    refine if_neg fun ⟨hst, howner⟩ => ?_
    obtain hnone | hzero | hother := h
    · rw [hnone] at hx; cases hx
    · exact hst hzero
    · exact hother howner
  · rfl

theorem doorbellCarried_eq (w : Work) (agent r : Nat) : ∃ v, doorbellCarried w agent r = { w with vorir := v } := carryOn_dev ..

theorem ringState_doorbellCarried (w : Work) (agent r : Nat) : ringState (doorbellCarried w agent r) r = ringState w r := by
  obtain ⟨v, h⟩ := doorbellCarried_eq w agent r
  rw [h]
  rfl

theorem ringDescs_doorbellCarried (w : Work) (agent r : Nat) : ringDescs (doorbellCarried w agent r) r = ringDescs w r := by
  obtain ⟨v, h⟩ := doorbellCarried_eq w agent r
  rw [h]
  rfl

/-- The ring's descriptors of a context that wait on a fault. -/
def faultedDescs (w : Work) (r ctx : Nat) : List Desc := (ringDescs w r).filter (fun d => d.phase == .faulted && dCtx d.img == ctx)

/-- A descriptor that waited on a fault runs again, its tile in this frame (09 R391). -/
def resumeDesc (e : Env) (r : Nat) (w : Work) (d : Desc) : Work :=
  let w := { w with mash := { w.mash with tiles := w.mash.tiles.map (fun t =>
    if t.ring = r ∧ t.n = d.n ∧ t.st = .arrived then { t with frame := e.clk.frame } else t) } }
  putDesc w { d with phase := .running }

theorem getDesc_putDesc_same (w : Work) (d : Desc) : getDesc (putDesc w d) d.ring d.n = some d := mget_mset_same ..

section
variable {w : Work} {x : Ring} (hx : getRing w r = some x) (ho : ringOwner w r = agent)
include hx ho

theorem stopCmd_running {e : Env} (hst : ringState w r = 1) (hstop : x.stopping = none) :
    stopCmd e w agent r = stopRing e (doorbellCarried w agent r) r 2 := by
  rw [stopCmd, doorbell_owner hx (by rw [hst]; decide) ho, ringState_doorbellCarried, if_pos ⟨hst, hstop⟩]

theorem startCmd_stopped (hst : ringState w r = 2) :
    startCmd w agent r = setRingState (doorbellCarried w agent r) r 1 := by
  rw [startCmd, doorbell_owner hx (by rw [hst]; decide) ho, ringState_doorbellCarried, if_pos hst]

theorem resumeCmd_owner {e : Env} (hst : ringState w r ≠ 0) (ctx : Nat) :
    resumeCmd e w agent r ctx = (faultedDescs w r ctx).foldl (resumeDesc e r) (doorbellCarried w agent r) := by
  rw [resumeCmd, doorbell_owner hx hst ho, ringDescs_doorbellCarried]
  rfl

end

/-- RESUME leaves the pool and the registers as they are. -/
theorem resumed_frame (e : Env) (w : Work) (r agent : Nat) (ds : List Desc) :
    (ds.foldl (resumeDesc e r) (doorbellCarried w agent r)).pool = w.pool ∧
    (ds.foldl (resumeDesc e r) (doorbellCarried w agent r)).regs = w.regs := by
  obtain ⟨v, h⟩ := doorbellCarried_eq w agent r
  rw [h]
  exact ⟨foldl_keeps Work.pool (f := resumeDesc e r) (fun _ _ => rfl) ds _,
    foldl_keeps Work.regs (f := resumeDesc e r) (fun _ _ => rfl) ds _⟩

end

/-! ### Sync descriptors (R334, 10 R405) -/

section
variable {e : Env} {w : Work} {ring n op : Nat} {d : Desc}

theorem syncDesc_misaligned (hdesc : getDesc w ring n = some d) (hop : dOp d.img = op) (hrun : d.phase = .running)
    (hoff : dSrc d.img 0 % 64 ≠ 0) : syncDesc e w ring n op = closeDesc w d stPermission 0 0 := by
  simp only [syncDesc, hdesc, hop, hrun, hoff, ne_eq, not_true_eq_false, true_or, or_self, if_false, not_false_eq_true, if_true]

/-- A descriptor whose object is translated goes to its engine. -/
theorem syncDesc_translated {t : Tile} {d' : Desc} (hdesc : getDesc w ring n = some d) (hop : dOp d.img = op)
    (hrun : d.phase = .running) (hoff : dSrc d.img 0 % 64 = 0)
    (htile : getTile (tileTranslate e (putDesc w { d with phase := .running }) ring n 0) ring n 0 = some t)
    (hdesc' : getDesc (tileTranslate e (putDesc w { d with phase := .running }) ring n 0) ring n = some d')
    (hread : t.st = .reading) (hrun' : d'.phase = .running) :
    syncDesc e w ring n op = syncIssue e (tileTranslate e (putDesc w { d with phase := .running }) ring n 0) d' t := by
  simp only [syncDesc, hdesc, hop, hrun, hoff, ne_eq, not_true_eq_false, true_or, or_self, if_false, htile, hdesc', hread, hrun',
    and_self, if_true]

end

section
variable {e : Env} {w : Work} {d : Desc} {t : Tile} {p g o : Nat} {q : Place} (hplace : tilePlace t (dSrc d.img 0) = some (p, g, o))
  (hkind : eKind (cadEntry w p) = 2) (hsaved : mhas w.sync.saved (dCtx d.img) = false)
  (hprim : (locate e w (cadEntry w p) o).primary w = some q)
include hplace hkind hsaved hprim

/-- The object lies on another device, which is not lost: the operation is sent there. -/
theorem syncIssue_away (hdev : q.dev ≠ e.board) (hlost : isLost w q.dev = false) :
    syncIssue e w d t =
      (let h := { d with phase := .held }
       let x := { w with mash := { w.mash with tag := (w.mash.tag + 1) % 2 ^ 16 } }
       let m := syncMsg e x h q p g o
       (carrySync e (dropTile (putDesc x { h with engine := some q.dev, sent := some m }) t) (acctOf d) d.ring q.dev
         m.src m.line false).emit (.peer m)) := by
  simp only [syncIssue, hplace, hkind, hsaved, hprim, hdev, hlost, ne_eq, not_true_eq_false, if_false, Bool.false_eq_true]
  rfl

/-- The state in which a descriptor's operation reaches the engine of an object on this device. -/
def syncCarried (e : Env) (w : Work) (d : Desc) (line : Nat) : Work :=
  carrySync e (putDesc w { d with phase := .held }) (acctOf d) d.ring e.board (schedAgent w d.ring) line d.retried

theorem syncIssue_here (hdev : q.dev = e.board) :
    syncIssue e w d t =
      (let line := q.dpa / 64
       let x := syncCarried e w d line
       if (findTxn x line).isSome || (reservation x line).isSome then syncEnd x line d.ring d.n .full
       else
         let r := syncLocal e x { d with phase := .held } ⟨p, o / 64 * 64, line⟩
         syncEnd r.2 line d.ring d.n r.1) := by
  simp only [syncIssue, hplace, hkind, hsaved, hprim, hdev, ne_eq, not_true_eq_false, if_false, Bool.false_eq_true, if_true]
  rfl

end

/-! ### Windows (R346-R348, R357) -/

/-- Bits that a mask below 2 ^ 28 keeps do not depend on higher ones. -/
theorem and_of_mod {x y m : Nat} (h : x % 2 ^ 28 = y % 2 ^ 28) (hm : m < 2 ^ 28) : x &&& m = y &&& m := by
  refine Nat.eq_of_testBit_eq fun i => ?_
  rw [Nat.testBit_and, Nat.testBit_and]
  by_cases hi : i < 28
  · have hbit := congrArg (·.testBit i) h
    simp only [Nat.testBit_mod_two_pow, hi, decide_true, Bool.true_and] at hbit
    rw [hbit]
  · have hzero : m.testBit i = false :=
      Nat.testBit_lt_two_pow (Nat.lt_of_lt_of_le hm (Nat.pow_le_pow_right (by decide) (Nat.not_lt.mp hi)))
    rw [hzero, Bool.and_false, Bool.and_false]

theorem windowFields_setBitAt (v : Nat) (b : Bool) : setBitAt v 31 b &&& 0x0FF0FFFF = v % 2 ^ 31 &&& 0x0FF0FFFF := by
  refine and_of_mod ?_ (by decide)
  simp only [setBitAt, putBits, bitsOf]
  omega

section
variable {e : Env} {w : Work} {k v : Nat}

theorem windowCtlWrite_enable (hnone : mget w.mash.wins k = none) (hgo : bitAt v 31 = true) :
    windowCtlWrite e w k v =
      (let u := w.setReg (aWindowCtl k) (v &&& 0x0FF0FFFF)
       let code := windowCheck e u k
       let u' := u.setFld (aWindowStatus k) 15 0 code
       if code = 0 then
         openBanks e (putWin (u'.setFld (aWindowCtl k) 31 31 1) k { parcel := u'.fld (aWindowCtl k) 15 0 }) k
           (u'.fld (aWindowCtl k) 15 0)
       else u') := by
  simp only [windowCtlWrite, hnone, hgo, Bool.not_true, Bool.false_eq_true, if_false]
  exact ite_not ..

theorem windowCtlWrite_fields (hnone : mget w.mash.wins k = none) (hgo : bitAt v 31 = false) :
    windowCtlWrite e w k v = w.setReg (aWindowCtl k) (v &&& 0x0FF0FFFF) := by
  simp only [windowCtlWrite, hnone, hgo, Bool.not_false, if_true]

theorem windowCtlWrite_on {x : Win} (hsome : mget w.mash.wins k = some x) (hon : x.off = false) :
    windowCtlWrite e w k v = if bitAt v 31 then w else (putWin w k { x with off := true }).setFld (aWindowCtl k) 31 31 0 := by
  simp only [windowCtlWrite, hsome, hon, Bool.false_eq_true, if_false]

end

end Sys2Proof.Machine

open Sys2Proof Sys2Proof.Machine

/-- Settles O44: the owner's write acts where its message arrives, another's is discarded (`doorbell_foreign`). -/
theorem doorbellPageWorks : Obligations.DoorbellPageWorks := by
  unfold Obligations.DoorbellPageWorks
  intro agent r s hp hreach hopen
  refine ⟨fun x hx ho => ?_, fun hforeign => ?_⟩
  · intro w
    refine ⟨fun v hst => ?_, fun hst hstop => ?_, fun hst => ?_, fun hst ctx => ?_⟩
    · exact show execCqHead agent r v s = _ from door_of hp hreach hopen (doorbell_owner hx hst ho _)
    · exact show execStop agent r s = _ from door_of hp hreach hopen (stopCmd_running hx ho hst hstop)
    · exact show execStart agent r s = _ from door_of hp hreach hopen (startCmd_stopped hx ho hst)
    · have hrun : execResume agent r ctx s = .next { s with
          w := (faultedDescs s.w r ctx).foldl (resumeDesc s.env r) (doorbellCarried s.w agent r) } :=
        door_of hp hreach hopen (resumeCmd_owner hx ho hst ctx)
      obtain ⟨hpool, hregs⟩ := resumed_frame s.env s.w r agent (faultedDescs s.w r ctx)
      refine ⟨⟨_, hrun, rfl, rfl, hpool, hregs⟩, fun hnone => ?_, fun d hone => ⟨_, hrun, ?_⟩⟩
      · refine Eq.trans hrun ?_
        rw [show faultedDescs s.w r ctx = [] from hnone]
        rfl
      · rw [show faultedDescs s.w r ctx = [d] from hone]
        exact getDesc_putDesc_same _ { d with phase := .running }
  · refine ⟨fun v => ⟨?_, ?_⟩, ?_, ?_, fun ctx => ?_⟩
    · exact show execTail agent r v s = _ from door_of hp hreach hopen (doorbell_foreign hforeign _)
    · exact show execCqHead agent r v s = _ from door_of hp hreach hopen (doorbell_foreign hforeign _)
    · exact show execStop agent r s = _ from door_of hp hreach hopen (doorbell_foreign hforeign _)
    · exact show execStart agent r s = _ from door_of hp hreach hopen (doorbell_foreign hforeign _)
    · exact show execResume agent r ctx s = _ from door_of hp hreach hopen (doorbell_foreign hforeign _)

/-- Settles O46: alignment, translation and the home of the object select the way of a sync descriptor; a window's code its enable. -/
theorem syncDescriptorsAndWindows : Obligations.SyncDescriptorsAndWindows := by
  unfold Obligations.SyncDescriptorsAndWindows
  refine ⟨?_, ?_, ?_, ?_⟩
  · intro ring n op c d s hp hc hdesc hop hrun
    have hexec : exec c s = traffic s (fun e w => syncDesc e w ring n op) := by
      simp only [List.mem_cons, Prod.mk.injEq, List.not_mem_nil, or_false] at hc
      obtain ⟨rfl, rfl⟩ | ⟨rfl, rfl⟩ | ⟨rfl, rfl⟩ := hc
      · rfl
      · rfl
      · rfl
    rw [hexec]
    refine ⟨fun hoff => ?_, fun hoff => ?_⟩
    · exact traffic_of hp (syncDesc_misaligned hdesc hop hrun hoff)
    · intro w t d' htile hdesc' hread hrun'
      exact traffic_of hp (syncDesc_translated hdesc hop hrun hoff htile hdesc' hread hrun')
  · intro e w d t p g o q hplace hkind hsaved hprim h
    refine ⟨fun hdev hlost => syncIssue_away hplace hkind hsaved hprim hdev hlost, fun hdev => ?_⟩
    intro line x
    have hhere := syncIssue_here hplace hkind hsaved hprim hdev
    refine ⟨fun hfree hres => ?_, fun hbusy => ?_⟩
    · refine hhere.trans (if_neg ?_)
      rw [show findTxn (syncCarried e w d (q.dpa / 64)) (q.dpa / 64) = none from hfree,
        show reservation (syncCarried e w d (q.dpa / 64)) (q.dpa / 64) = none from hres]
      exact Bool.false_ne_true
    · refine hhere.trans (if_pos ?_)
      rw [show (findTxn (syncCarried e w d (q.dpa / 64)) (q.dpa / 64)).isSome = true from hbusy, Bool.true_or]
  · intro k v s hp hnone w code w'
    refine ⟨?_, ?_⟩
    · refine show execWindowEnable k v s = _ from traffic_of hp ?_
      rw [windowCtlWrite_enable hnone (bitAt_setBitAt_enable ..), windowFields_setBitAt]
    · refine show execWindowDisable k v s = _ from traffic_of hp ?_
      rw [windowCtlWrite_fields hnone (bitAt_setBitAt_enable ..), windowFields_setBitAt]
  · intro k v x s hp hsome hon
    refine ⟨?_, ?_⟩
    · refine show execWindowEnable k v s = _ from traffic_same ?_
      rw [windowCtlWrite_on hsome hon, bitAt_setBitAt_enable, if_pos rfl]
    · refine show execWindowDisable k v s = _ from traffic_of hp ?_
      rw [windowCtlWrite_on hsome hon, bitAt_setBitAt_enable, if_neg Bool.false_ne_true]

end

section
/-! PROOFS. Context commands and invalidations (09 R360-R363, R377, R378, Table 9-5). -/

namespace Sys2Proof.Machine

/-! ### Context commands (R360, R361) -/

/-- The reserved operations of a context command take 0x0611 (R361). -/
theorem ctxCheck_reserved {op : Nat} (h : op = 0 ∨ op = 3) (e : Env) (w : Work) (c : Nat) : ctxCheck e w op c = 0x0611 :=
  if_pos (h.imp_right Or.inl)

/-! ### Invalidations (R377, R378; Table 9-5) -/

section
variable {e : Env} {w u : Work} {a v : Nat} (hgo : bitAt v 31 = true)
  (hu : w.setHreg a hInvalCtl (2 ^ 24 * bitsOf v 25 24 + bitsOf v 11 0) = u) (hdone : u.hfld a hInvalStatus 0 0 = 1)
include hgo hu hdone

/-- A go of an invalidation while none is under way is refused, or kept with what it names. -/
theorem invalWrite_go :
    invalWrite e w a v =
      (let scope := bitsOf v 25 24
       let c := bitsOf v 11 0
       if scope = 3 ∨ (scope ≠ 2 ∧ (ctxHost u c == some a) = false) ∨ (scope = 1 ∧ u.hreg a hInvalPages = 0) then
         u.setHfld a hInvalStatus 1 0 3
       else
         let cs := if scope = 2 then (u.xlat.ctxs.filter (fun x => xHost x.2.entry == a)).map (·.1) else [c]
         let r := if scope = 1 then some (u.hreg2 a hInvalBase / 4096, u.hreg a hInvalPages) else none
         { u.setHfld a hInvalStatus 1 0 0 with xlat := { u.xlat with invals := mset u.xlat.invals a ⟨cs, r, e.clk.frame⟩ } }) := by
  have hopen : ¬(!bitAt v 31 || u.hfld a hInvalStatus 0 0 == 0) = true := by rw [hgo, hdone]; decide
  unfold invalWrite
  rw [hu]
  exact if_neg hopen

theorem invalWrite_context (hs : bitsOf v 25 24 = 0) (hb : ctxHost u (bitsOf v 11 0) = some a) :
    invalWrite e w a v = { u.setHfld a hInvalStatus 1 0 0 with
      xlat := { u.xlat with invals := mset u.xlat.invals a ⟨[bitsOf v 11 0], none, e.clk.frame⟩ } } := by
  rw [invalWrite_go hgo hu hdone]
  simp [hs, hb]

theorem invalWrite_foreign (hs : bitsOf v 25 24 = 0) (hb : ctxHost u (bitsOf v 11 0) ≠ some a) :
    invalWrite e w a v = u.setHfld a hInvalStatus 1 0 3 := by
  rw [invalWrite_go hgo hu hdone]
  exact if_pos (.inr (.inl ⟨by rw [hs]; decide, beq_false_of_ne hb⟩))

theorem invalWrite_pages (hs : bitsOf v 25 24 = 1) (hb : ctxHost u (bitsOf v 11 0) = some a)
    (hpages : u.hreg a hInvalPages ≠ 0) :
    invalWrite e w a v = { u.setHfld a hInvalStatus 1 0 0 with
      xlat := { u.xlat with
        invals := mset u.xlat.invals a
          ⟨[bitsOf v 11 0], some (u.hreg2 a hInvalBase / 4096, u.hreg a hInvalPages), e.clk.frame⟩ } } := by
  rw [invalWrite_go hgo hu hdone]
  simp [hs, hb, hpages]

theorem invalWrite_contexts (hs : bitsOf v 25 24 = 2) :
    invalWrite e w a v = { u.setHfld a hInvalStatus 1 0 0 with
      xlat := { u.xlat with
        invals := mset u.xlat.invals a
          ⟨(u.xlat.ctxs.filter (fun x => xHost x.2.entry == a)).map (·.1), none, e.clk.frame⟩ } } := by
  rw [invalWrite_go hgo hu hdone]
  simp [hs]

end

/-- An invalidation without tiles left is done before its last boundary (Table 9-5). -/
theorem endInval_idle {e : Env} {w : Work} {a : Nat} {v : Inval} (hfirst : v.frame + 1 ≤ e.clk.frame)
    (hearly : e.clk.frame < v.frame + 4) (hidle : invalTiles w v = []) :
    endInval e w a v =
      { w.setHfld a hInvalStatus 0 0 1 with xlat := { w.xlat with invals := mdel w.xlat.invals a } } := by
  have hlate : decide (v.frame + 4 ≤ e.clk.frame) = false := decide_eq_false (Nat.not_le.mpr hearly)
  unfold endInval
  dsimp only
  rw [hlate, hidle, if_neg Bool.false_ne_true, if_pos ⟨hfirst, .inr rfl⟩]

end Sys2Proof.Machine

open Sys2Proof Sys2Proof.Machine

/-- Settles O47: the reserved operations fail the check, and an invalidation goes by its scope while none is under way. -/
theorem contextsAndInvalidations : Obligations.ContextsAndInvalidations := by
  unfold Obligations.ContextsAndInvalidations
  refine ⟨?_, ?_, ?_⟩
  · intro v s hp op c w code w' t
    exact ⟨show execContextLoad v s = _ from traffic_of hp rfl, show execContextDisable v s = _ from traffic_of hp rfl,
      fun hop => ctxCheck_reserved hop ..⟩
  · intro agent v s hp hr ho hgo scope c w hdone t
    have hrun {u : Work} (h : invalWrite s.env s.w agent v.toNat = u) :
        traffic s (fun e w => barIn e w agent (fun w => invalWrite e w agent v.toNat)) = .next { s with w := u } :=
      traffic_of hp ((barIn_open hr ho _).trans h)
    refine ⟨?_, ?_, ?_, ?_⟩
    · intro hs hb
      exact show execInvalContext agent v s = _ from hrun (invalWrite_context hgo rfl hdone hs hb)
    · intro hs hb hpages
      exact show execInvalPages agent v s = _ from hrun (invalWrite_pages hgo rfl hdone hs hb hpages)
    · intro hs
      exact show execInvalLdContexts agent v s = _ from hrun (invalWrite_contexts hgo rfl hdone hs)
    · intro hs hb
      exact show execInvalContext agent v s = _ from hrun (invalWrite_foreign hgo rfl hdone hs hb)
  · intro agent x s hp hinval
    refine ⟨?_, ?_⟩
    · intro hsecond
      exact show execInvalTileAbandon agent s = _ from traffic_of hp (by simp only [hinval]; exact if_pos hsecond)
    · intro hfirst hearly hidle
      exact show execInvalDone agent s = _ from traffic_of hp (by simp only [hinval, endInval_idle hfirst hearly hidle])

end

section
/-! PROOFS. Sync commands of hosts at the engine of their object (10 R403, R404, R408, Table 10-3), and the maintenance of sync
objects (R402, R417, R436, R437). -/

namespace Sys2Proof.Machine

/-! ### A command word at its port and its home (R403) -/

/-- A host that may access the line of a sync object has its request served by the object's engine. -/
theorem portServe_sync {e : Env} {w : Work} {q : HostReq} {op : HomeOp} {x : Extent} {p : Place}
    (hx : extentOf (w.ld q.agent) q.lda = some x) (hmay : hostMay w q.agent x (hostWrites op))
    (hres : resolvesAs 2 e w (portReq e w q x op) p) :
    portServe e w q op =
      syncHome e (sentHome e w (portReq e w q x op) p) { portReq e w q x op with line := p.dpa / 64 } := by
  obtain ⟨hst, hgen, hhold, hwrite⟩ := hmay
  have hserved : accessCheck e w (.host q.agent x.gen) x.parcel (q.lda - x.lda) (hostWrites op) =
      .served (locate e w (cadEntry w x.parcel) (q.lda - x.lda)) :=
    accessCheck_host hres.1 hres.2.1 hst hgen hhold hwrite
  have hchecked := checked_resolvesAs hres
  simp only [portServe, hx, hserved]
  exact hchecked

/-- The command word of a line that holds nothing else (R400). -/
theorem bitsOf_commandWord (cmd : BitVec 64) : bitsOf (BitVec.ofNat 512 (2 ^ 448 * cmd.toNat)).toNat 511 448 = cmd.toNat := by
  have hlt := cmd.isLt
  rw [BitVec.toNat_ofNat]
  simp only [bitsOf]
  omega

/-- A command word on an armed object with no transaction of its line goes to the engine, and the write is answered. -/
theorem syncHome_command {e : Env} {w w' : Work} {r : Req} {m : Meta} {cmd : BitVec 64} {v : Nat} (hagent : r.agent < 0x7E)
    (hop : r.op = .wr m ⟨BitVec.ofNat 512 (2 ^ 448 * cmd.toNat), false⟩ cmdMask false) (hfree : findTxn w r.line = none)
    (hres : reserved w r = false) (hread : objRead e (dropWaiting w r) (objOf r) = (some v, w'))
    (harmed : oKind v = kBarrier ∨ oKind v = kGate) :
    syncHome e w r = (let a := syncCmd e w' (objOf r) cmd.toNat (whoOf r); syncCmp e a.2 r a.1) := by
  have hhost : ¬(r.agent ≥ 0x7E ∧ r.agent < 0x80) := fun h => absurd h.1 (Nat.not_le.mpr hagent)
  have hopen : ¬((findTxn w r.line).isSome || reserved w r) = true := by rw [hfree, hres]; exact Bool.false_ne_true
  have hmask : (!false && cmdMask == cmdMask) = true := by decide
  rw [syncHome, if_neg hhost, if_neg hopen]
  simp only [hop, hread]
  rw [syncWrite]
  dsimp only
  rw [if_pos harmed, if_pos hmask, bitsOf_commandWord]

/-! ### Commands that the engine performs (R404, Table 10-3) -/

/-- The bits of DISARM's command word. -/
theorem syncCmd_disarm (e : Env) (w : Work) (o : Obj) (q : SyncWho) :
    syncCmd e w o (0x0F * 2 ^ 56) q = (true, syncDisarm e w o q) := by
  have hop : bitsOf (0x0F * 2 ^ 56) 63 56 = 0x0F := by decide
  have hzero : ¬(bitsOf (0x0F * 2 ^ 56) 55 49 ≠ 0 ∨ bitsOf (0x0F * 2 ^ 56) 31 0 ≠ 0) := by decide
  rw [syncCmd, hop, if_neg hzero]
  rfl

theorem staleCheck_unheld {v : Nat} (hheld : oHeld v = 0) (e : Env) (w : Work) (o : Obj) (q : SyncWho) :
    staleCheck e w o v q = (v, w) :=
  if_neg fun h => h.1 hheld

theorem completeGen_short {v : Nat} (h : oArrived v ≠ oParts v) (e : Env) (w : Work) (o : Obj) (q : SyncWho) :
    completeGen e w o v q = (v, w) :=
  if_pos h

/-- An arrival on time that does not complete the generation. -/
theorem syncArrive_onTime {e : Env} {w w' : Work} {o : Obj} {q : SyncWho} {v sense : Nat}
    (hread : objRead e (settleExpired e w o) o = (some v, w')) (hkind : oKind v = kBarrier) (hstale : oStale v = false)
    (hheld : oHeld v = 0) (htime : sense = oSense v)
    (hshort : oArrived (putBits v 47 32 (oArrived v + 1)) ≠ oParts (putBits v 47 32 (oArrived v + 1))) :
    syncArrive e w o q sense false 0 = (.ok 0, objWrite e w' o (putBits v 47 32 (oArrived v + 1))) := by
  have hfresh : ¬(oKind v ≠ kBarrier ∨ oStale v = true) := by rw [hkind, hstale]; decide
  have hlate : ¬(¬sense = oSense v ∧ oEarly v ≥ oArrived v) := fun h => h.1 htime
  rw [syncArrive]
  simp only [hread, staleCheck_unheld hheld]
  rw [if_neg hfresh, if_neg hlate]
  simp only [htime, if_true, Bool.false_eq_true, false_and, if_false, completeGen_short hshort]

/-! ### Checks of Table 10-11 -/

theorem syncCmdCheck_mem (e : Env) (w : Work) (op c : Nat) :
    syncCmdCheck e w op c ∈ [0, 0x0617, 0x0618, 0x0619, 0x061A] := by
  unfold syncCmdCheck
  split
  · simp
  · split
    · simp
    · split
      · simp
      · split <;> simp

/-- A go of SYNC.CTX_CMD, or a write of its fields alone (R437). -/
theorem syncCmdWrite_eq (e : Env) (w : Work) (v : Nat) :
    syncCmdWrite e w v =
      (let op := bitsOf v 27 26
       let c := bitsOf v 11 0
       let u := w.setReg aSyncCtxCmd (2 ^ 26 * op + c)
       let code := syncCmdCheck e u op c
       if bitAt v 31 = true then
         (if code = 0 then { u.setReg aSyncStatus 0 with sync := { u.sync with op := some ⟨c, op == 2, saveBase u, saveLen u⟩ } }
          else u.setFld aSyncStatus 15 0 code)
       else u) := by
  unfold syncCmdWrite
  cases bitAt v 31 <;> rfl

/-! ### The debug view (R436) -/

/-- The lowest DONE bit of a view's status reads as it was set. -/
theorem fld_setFld_16_16 (w : Work) (a : Nat) : (w.setFld a 16 16 1).fld a 16 16 = 1 := by
  rw [Work.fld, Work.setFld, Work.reg_setReg_same]
  simp only [bitsOf, putBits]
  omega

section
variable {e : Env} {w u : Work} {d v : Nat} (hu : w.setReg (aSyncDieViewCtl d) (bitsOf v 15 0) = u)
include hu

theorem viewWrite_fields (hgo : bitAt v 31 = false) : viewWrite e w d v = u := by
  rw [viewWrite]
  dsimp only
  rw [hgo, if_pos (show (!false) = true from rfl), hu]

theorem viewWrite_refused (hgo : bitAt v 31 = true) (hcode : viewCheck e u d (bitsOf v 15 0) ≠ 0) :
    viewWrite e w d v = u.setReg (aSyncDieViewStatus d) (viewCheck e u d (bitsOf v 15 0)) := by
  rw [viewWrite]
  dsimp only
  rw [hgo, hu, if_neg (show ¬(!true) = true from Bool.false_ne_true), if_pos hcode]

end

/-! A view that passes finds its object: the status register is none of the map's masks (03 R64). -/

section
variable {w : Work} {a : Nat} (ha : 0x230 ≤ a)
include ha

theorem tractOf_setReg (v dpa : Nat) : tractOf (w.setReg a v) dpa = tractOf w dpa := by
  have hmask {i : Nat} (hi : i < 3) : tractMask (w.setReg a v) i = tractMask w i := by
    have hlow : aMemmapTractXor i ≠ a := by unfold aMemmapTractXor; omega
    have hhigh : aMemmapTractXor i + 4 ≠ a := by unfold aMemmapTractXor; omega
    rw [tractMask, Work.reg2, Work.reg_setReg_ne _ _ _ _ hlow, Work.reg_setReg_ne _ _ _ _ hhigh]
    rfl
  simp only [tractOf, tractBit, hmask (show 0 < 3 by decide), hmask (show 1 < 3 by decide), hmask (show 2 < 3 by decide)]

theorem objAt_setReg (e : Env) (v line : Nat) : objAt e (w.setReg a v) line = objAt e w line := by
  have hplot : plotOwner e (w.setReg a v) line = plotOwner e w line := by
    rw [plotOwner, tractOf_setReg ha]
    rfl
  have howner : ownerOf e (w.setReg a v) line = ownerOf e w line := by
    rw [ownerOf, hplot]
    rfl
  rw [objAt, howner]
  rfl

end

theorem viewObj_setStatus (w : Work) (d v : Nat) : viewObj (w.setReg (aSyncDieViewStatus d) v) d = viewObj w d := by
  have hlow : aSyncDieViewObj d ≠ aSyncDieViewStatus d := by unfold aSyncDieViewObj aSyncDieViewStatus; omega
  have hhigh : aSyncDieViewObj d + 4 ≠ aSyncDieViewStatus d := by unfold aSyncDieViewObj aSyncDieViewStatus; omega
  rw [viewObj, Work.reg2, Work.reg_setReg_ne _ _ _ _ hlow, Work.reg_setReg_ne _ _ _ _ hhigh]
  rfl

/-- A view that passes its check names an object of this device. -/
theorem viewCheck_object {e : Env} {w : Work} {d n : Nat} (h : viewCheck e w d n = 0) : ∃ o, objAt e w (viewObj w d) = some o := by
  unfold viewCheck at h
  split at h
  · cases h
  · split at h
    · cases h
    next hno =>
      obtain ⟨-, hobj⟩ := not_or.mp hno
      exact Option.ne_none_iff_exists'.mp fun hnone => hobj (by rw [hnone]; rfl)

/-- A view that passes its check ends with its DONE bit. -/
theorem viewWrite_done {e : Env} {w u : Work} {d v : Nat} (hu : w.setReg (aSyncDieViewCtl d) (bitsOf v 15 0) = u)
    (hgo : bitAt v 31 = true) (hcode : viewCheck e u d (bitsOf v 15 0) = 0) :
    (viewWrite e w d v).fld (aSyncDieViewStatus d) 16 16 = 1 := by
  obtain ⟨o, hobj⟩ := viewCheck_object hcode
  have hobj' : objAt e (u.setReg (aSyncDieViewStatus d) 0) (viewObj (u.setReg (aSyncDieViewStatus d) 0) d) = some o := by
    rw [viewObj_setStatus, objAt_setReg (by unfold aSyncDieViewStatus; omega), hobj]
  rw [viewWrite]
  dsimp only
  rw [hgo, hu, if_neg (show ¬(!true) = true from Bool.false_ne_true), hcode, if_neg (not_not.mpr rfl), hobj']
  exact fld_setFld_16_16 ..

end Sys2Proof.Machine

open Sys2Proof Sys2Proof.Machine

/-- Settles O48: a command word is a write of a host to a line of a SYNC parcel, and the engine performs it. -/
theorem syncCommandsReachTheirEngine : Obligations.SyncCommandsReachTheirEngine := by
  unfold Obligations.SyncCommandsReachTheirEngine
  refine ⟨?_, ?_, syncCmd_disarm, ?_⟩
  · intro q x p cmd s op w r htake hx hmay hres u t code
    have hserve : hostIn s.env s.w q op = t.w := (hostIn_taken htake).trans (portServe_sync hx hmay hres)
    have hrun (k : Nat) (hk : code = k) : traffic s (fun e w => cmdWrite e w q k cmd) = .next t :=
      traffic_of htake.1 ((if_pos hk).trans hserve)
    exact ⟨hrun 0x01, hrun 0x02, hrun 0x03, hrun 0x0F⟩
  · intro e w w' r m cmd v hagent hop hfree hres hread harmed
    exact syncHome_command hagent hop hfree hres hread harmed
  · intro e w w' o q v sense hread hkind hstale hheld htime hshort
    exact syncArrive_onTime hread hkind hstale hheld htime hshort

/-- Settles O49: each command is made only where its check finds what it needs. -/
theorem syncMaintenance : Obligations.SyncMaintenance := by
  unfold Obligations.SyncMaintenance
  refine ⟨?_, ?_, ?_, ?_⟩
  · intro die start value ctx x o s hp hfind hobj
    exact show execSyncTimeout die start value ctx s = _ from traffic_of hp (by
      simp only [hfind, hobj]
      rfl)
  · intro line v d mask o w' s hp hobj hread harmed
    have harmed' : (oKind v == kBarrier || oKind v == kGate) = true := by
      rwa [Bool.or_eq_true, beq_iff_eq, beq_iff_eq]
    exact show execSyncDebugWrite line d mask s = _ from traffic_of hp (by
      simp only [hobj, hread, harmed', Bool.true_and]
      rfl)
  · intro v s hp op c w code t
    have hrun : traffic s (fun e w => syncCmdWrite e w v.toNat) = .next t := traffic_of hp (syncCmdWrite_eq ..)
    exact ⟨hrun, hrun, syncCmdCheck_mem ..⟩
  · intro d v s hp n w code
    refine ⟨?_, ?_, ?_⟩
    · intro hgo
      exact show execSyncView d v s = _ from traffic_of hp (viewWrite_fields rfl hgo)
    · intro hgo hcode
      exact show execSyncView d v s = _ from traffic_of hp (viewWrite_refused rfl hgo hcode)
    · intro hgo hcode
      exact ⟨_, show execSyncView d v s = _ from traffic_of hp rfl, rfl, rfl, viewWrite_done rfl hgo hcode⟩

end

section
/-! PROOFS. Cadastre and QoS commits (03 R73-R75, 11 R449, R464), latency registers (11 R454, R455) and latched counters (19
R684). -/

namespace Sys2Proof.Machine

/-! ### Cadastre commits (03 R73-R75) -/

section
variable {e : Env} {w u : Work} {v : Nat} (hu : w.setReg aCadastreCtl (bitsOf v 8 0) = u)
include hu

theorem cadCtlWrite_fields (hno : bitAt v 31 = false) : cadCtlWrite e w v = u := by
  rw [cadCtlWrite, hu, hno]
  exact if_pos rfl

theorem cadCtlWrite_count (hgo : bitAt v 31 = true) (hcount : cadCount u = 0 ∨ 256 < cadCount u) :
    cadCtlWrite e w v = cadStatus u (if cadFrame u < e.clk.frame + 2 then 0x0109 else 0x010B) := by
  rw [cadCtlWrite, hu, hgo]
  exact (if_neg Bool.false_ne_true).trans (if_pos hcount)

variable (hgo : bitAt v 31 = true) (hlow : 0 < cadCount u) (hhigh : cadCount u ≤ 256)
include hgo hlow hhigh

theorem cadCtlWrite_poisoned (hread : readRecords e u (cadStage u) (cadCount u) = none) :
    cadCtlWrite e w v = cadStatus u 0x0100 := by
  have hcount : ¬(cadCount u = 0 ∨ cadCount u > 256) := by omega
  rw [cadCtlWrite, hu, hgo]
  refine (if_neg Bool.false_ne_true).trans ((if_neg hcount).trans ?_)
  rw [hread]

/-- Records that read are checked together, and held for their frame with code 0 alone. -/
theorem cadCtlWrite_records {rs : List (BitVec 512)} (hread : readRecords e u (cadStage u) (cadCount u) = some rs) :
    cadCtlWrite e w v =
      (let code := cadCheck e u rs (cadFrame u) false
       if code = 0 then cadStatus { u with pool := { u.pool with cadPending := some { frame := cadFrame u, records := rs } } } 0
       else cadStatus u code) := by
  have hcount : ¬(cadCount u = 0 ∨ cadCount u > 256) := by omega
  rw [cadCtlWrite, hu, hgo]
  refine (if_neg Bool.false_ne_true).trans ((if_neg hcount).trans ?_)
  rw [hread]
  exact apply_ite Prod.snd _ _ _

end

/-! ### QoS commits (11 R449, R464) -/

theorem qosStatus_zero_or (w u : Work) (code : Nat) :
    (if code = 0 then qosStatus u 0 else qosStatus w code) = qosStatus (if code = 0 then u else w) code := by
  split
  next h => rw [h]
  · rfl

theorem qosCtlWrite_eq (e : Env) (w : Work) (v : Nat) :
    qosCtlWrite e w v =
      (let u := w.setReg aQosCtl (v &&& 0x10000)
       let code := qosCheck e u (qosView u qosAddrs) none
       if bitAt v 31 = true then qosStatus (if code = 0 then qosAccept u qosAddrs else u) code else u) := by
  unfold qosCtlWrite
  cases bitAt v 31
  · rfl
  · exact (if_neg Bool.false_ne_true).trans ((qosStatus_zero_or ..).trans (if_pos rfl).symm)

theorem qosHostWrite_eq (e : Env) (w : Work) (a v : Nat) :
    qosHostWrite e w a v =
      (let u := w.setReg (aQosHostCtl a) (v &&& 0x7C03FFFF)
       let code := qosCheck e u (qosView u (qosHostAddrs a)) (some a)
       if bitAt v 31 = true then qosStatus (if code = 0 then qosAccept u (qosHostAddrs a) else u) code else u) := by
  unfold qosHostWrite
  cases bitAt v 31
  · rfl
  · exact (if_neg Bool.false_ne_true).trans ((qosStatus_zero_or ..).trans (if_pos rfl).symm)

/-! ### Histograms (11 R455) -/

/-- Another register of the same page. -/
theorem hreg_setHreg_ne (w : Work) (a : Nat) {off off' : Nat} (v : Nat) (h : off' ≠ off) :
    (w.setHreg a off v).hreg a off' = w.hreg a off' := by
  have hkey : 0x1000 * a + off' ≠ 0x1000 * a + off := fun hsame => h (Nat.add_left_cancel hsame)
  by_cases hreset : v % 2 ^ 32 = hostReset off
  · simp only [Work.setHreg, Work.hreg, if_pos hreset, mget_mdel_ne _ _ _ hkey]
  · simp only [Work.setHreg, Work.hreg, if_neg hreset, mget_mset_ne _ _ _ _ hkey]

theorem hLatHist_ne (c : Nat) {i j : Nat} (h : i ≠ j) : hLatHist c i ≠ hLatHist c j := by
  unfold hLatHist
  omega

/-- Clearing the buckets `is` leaves every other register. -/
theorem hreg_clear_ne (a c : Nat) {off : Nat} {is : List Nat} (w : Work) (h : ∀ i ∈ is, off ≠ hLatHist c i) :
    (is.foldl (fun w i => w.setHreg a (hLatHist c i) 0) w).hreg a off = w.hreg a off := by
  induction is generalizing w with
  | nil => rfl
  | cons i is ih =>
    rw [List.foldl_cons, ih _ fun j hj => h j (List.mem_cons_of_mem i hj), hreg_setHreg_ne w a 0 (h i List.mem_cons_self)]

/-- A bucket that was cleared reads zero. -/
theorem hreg_clear_mem (a c : Nat) {i : Nat} {is : List Nat} (w : Work) (h : i ∈ is) :
    (is.foldl (fun w i => w.setHreg a (hLatHist c i) 0) w).hreg a (hLatHist c i) = 0 := by
  induction is generalizing w with
  | nil => cases h
  | cons j is ih =>
    rw [List.foldl_cons]
    by_cases hi : i ∈ is
    · exact ih _ hi
    · obtain rfl : i = j := (List.mem_cons.mp h).resolve_right hi
      have hother : ∀ k ∈ is, hLatHist c i ≠ hLatHist c k := fun k hk => hLatHist_ne c fun hsame => hi (hsame ▸ hk)
      rw [hreg_clear_ne a c _ hother, Work.hreg_setHreg_same, Nat.zero_mod]

theorem latClear_keeps {γ : Type} (g : Work → γ) {a : Nat} (h : ∀ w off v, g (Work.setHreg w a off v) = g w) (w : Work)
    (c : Nat) : g (latClear w a c) = g w :=
  foldl_keeps g (fun w i => h w (hLatHist c i) 0) _ w

/-! ### Counters (19 R684) -/

theorem counterRead_low {addr : Nat} (h : counterLow addr = true) (e : Env) (w : Work) :
    counterRead e w addr =
      { w with half := mset w.half (addr + 4) (BitVec.ofNat 32 (regRead e w (addr + 4))) }.emit
        (.read 0x7F addr (regRead e w addr)) :=
  if_pos h

theorem counterRead_latched {addr : Nat} {w : Work} {v : Word} (h : counterLow addr = false) (hhalf : mget w.half addr = some v)
    (e : Env) : counterRead e w addr = { w with half := mdel w.half addr }.emit (.read 0x7F addr v.toNat) := by
  rw [counterRead, h, if_neg Bool.false_ne_true, hhalf]

theorem counterRead_plain {addr : Nat} {w : Work} (h : counterLow addr = false) (hhalf : mget w.half addr = none) (e : Env) :
    counterRead e w addr = w.emit (.read 0x7F addr (regRead e w addr)) := by
  rw [counterRead, h, if_neg Bool.false_ne_true, hhalf]

end Sys2Proof.Machine

open Sys2Proof Sys2Proof.Machine

/-- Settles O51: every commit writes its code, and only a code of zero keeps what it staged. -/
theorem cadastreAndQosCommits : Obligations.CadastreAndQosCommits := by
  unfold Obligations.CadastreAndQosCommits
  refine ⟨?_, ?_, ?_⟩
  · intro v s hp w
    have hrun {u : Work} (h : cadCtlWrite s.env s.w v.toNat = u) : execCadastreCommit v s = .next { s with w := u } :=
      traffic_of hp h
    refine ⟨?_, ?_, ?_⟩
    · intro hno
      exact hrun (cadCtlWrite_fields rfl hno)
    · intro hgo hcount
      exact hrun (cadCtlWrite_count rfl hgo hcount)
    · intro hgo hlow hhigh
      refine ⟨?_, ?_⟩
      · intro hread
        exact hrun (cadCtlWrite_poisoned rfl hgo hlow hhigh hread)
      · intro rs hread code
        exact hrun (cadCtlWrite_records rfl hgo hlow hhigh hread)
  · intro v s hp w code
    exact show execQosCommit v s = _ from traffic_of hp (qosCtlWrite_eq ..)
  · intro a v s hp w code
    exact show execQosHostCommit a v s = _ from traffic_of hp (qosHostWrite_eq ..)

/-- Settles O53: a clear goes over the sixteen buckets, and a latched half is given out once. -/
theorem latencyAndCounterReads : Obligations.LatencyAndCounterReads := by
  unfold Obligations.LatencyAndCounterReads
  refine ⟨?_, ?_⟩
  · intro a c s hp hreach hopen
    refine ⟨?_, ?_, ?_⟩
    · exact show execLatHwmRead a c s = _ from traffic_of hp (barIn_open hreach hopen _)
    · intro v hno
      exact show execLatClear a c v s = _ from traffic_same ((barIn_open hreach hopen _).trans (if_neg (by rw [hno]; decide)))
    · intro v hgo
      have hrun : execLatClear a c v s = .next { s with w := latClear s.w a c } :=
        traffic_of hp ((barIn_open hreach hopen _).trans (if_pos hgo))
      refine ⟨_, hrun, rfl, rfl, ?_, ?_, ?_, ?_⟩
      · exact latClear_keeps (·.regs) (fun w off v => Work.setHreg_regs w a off v) s.w c
      · exact latClear_keeps (·.pool) (fun w off v => Work.setHreg_pool w a off v) s.w c
      · intro i hi
        exact hreg_clear_mem a c s.w (List.mem_range.mpr hi)
      · intro off hoff
        exact hreg_clear_ne a c s.w fun i hi => hoff i (List.mem_range.mp hi)
  · intro addr s hm
    have hrun {u : Work} (h : counterRead s.env s.w addr = u) : execCounterLowerRead addr s = .next { s with w := u } :=
      serve_of hm h
    refine ⟨?_, ?_, ?_⟩
    · intro hlow
      exact ⟨_, hrun (counterRead_low hlow ..), rfl, rfl, rfl, rfl, mget_mset_same ..⟩
    · intro v hlow hhalf
      exact hrun (counterRead_latched hlow hhalf _)
    · intro hlow hhalf
      exact hrun (counterRead_plain hlow hhalf _)

end

section
/-! PROOFS. Register writes reach their fields and their commands (19 R681, R682, 00 Table 0-3, 08 R302). -/

namespace Sys2Proof.Machine

/-! ### Writes of Datum (R681, R687) -/

theorem regWrite_absent {addr : Nat} (h : regLay addr = none) (e : Env) (w : Work) (v : Nat) : regWrite e w addr v = (e, w) :=
  if_pos (by rw [h]; rfl)

section
variable {e : Env} {w : Work} {addr v : Nat} (hlay : (regLay addr).isNone = false) (hpow : powered e addr = true)
include hlay hpow

theorem regWrite_datum {x : Env × Work} (hact : datumWrite e w addr v = some x) : regWrite e w addr v = x := by
  rw [regWrite, if_neg (by rw [hlay, hpow]; decide), hact]

variable (hdatum : datumWrite e w addr v = none)
include hdatum

theorem regWrite_ctl {u : Work} (hact : ctlWrite e w addr v = some u) : regWrite e w addr v = (e, u) := by
  rw [regWrite, if_neg (by rw [hlay, hpow]; decide), hdatum]
  simp only [hact]

theorem regWrite_plain (hno : ctlWrite e w addr v = none) : regWrite e w addr v = (e, plainWrite w addr v) := by
  rw [regWrite, if_neg (by rw [hlay, hpow]; decide), hdatum]
  simp only [hno]

end

/-- A register of a layout takes the bits that its mask lets through (00 Table 0-3). -/
theorem plainWrite_lay {addr : Nat} {l : RegLay} (h : regLay addr = some l) (w : Work) (v : Nat) :
    plainWrite w addr v = w.setMask addr (if rwlLocked w addr then l.rw else l.rw ||| l.rwl) v := by
  rw [plainWrite, h]

/-- With the pool running every block has power. -/
theorem powered_of_poolRuns {e : Env} (h : poolRuns e = true) (addr : Nat) : powered e addr = true := by
  simp only [poolRuns, Bool.and_eq_true] at h
  rw [powered, h.2]
  rfl

section
variable {addr : Nat} {v : Word} {s : State} (hm : mainRuns s.env = true)
include hm

theorem execRegisterWrite_datum {e : Env} {w : Work} (h : regWrite s.env s.w addr v.toNat = (e, w)) :
    execRegisterWrite 0x7F addr v s = .next { s with env := e, w := w } :=
  whole_pair ((if_pos rfl).trans ((if_pos hm).trans h))

end

/-- A control register whose write is that of a traffic command. -/
theorem execRegisterWrite_ctl {addr : Nat} {v : Word} {s : State} {f : Env → Work → Work} (hp : poolRuns s.env = true)
    (hlay : (regLay addr).isNone = false) (hdatum : datumWrite s.env s.w addr v.toNat = none)
    (hact : ctlWrite s.env s.w addr v.toNat = some (f s.env s.w)) :
    execRegisterWrite 0x7F addr v s = traffic s f :=
  (execRegisterWrite_datum (poolRuns_main hp) (regWrite_ctl hlay (powered_of_poolRuns hp addr) hdatum hact)).trans
    (traffic_of hp rfl).symm

/-! ### Writes of a host to its doorbell page (08 R302) -/

theorem hostWrite_tail {r : Nat} (hr : r < 1024) (e : Env) (w : Work) (a v : Nat) :
    hostWrite e w a (doorbellBase + 0x1000 * r) v = doorIn e w a (fun w => tailWrite w a r v) := by
  have hrange : doorbellBase ≤ doorbellBase + 0x1000 * r ∧ doorbellBase + 0x1000 * r < doorbellBase + 0x400000 := by omega
  have halign : ¬(doorbellBase + 0x1000 * r) % 4 ≠ 0 := by unfold doorbellBase; omega
  have hring : (doorbellBase + 0x1000 * r - doorbellBase) / 0x1000 = r := by omega
  have hoff : (doorbellBase + 0x1000 * r - doorbellBase) % 0x1000 = 0 := by omega
  rw [hostWrite, if_pos hrange, hring, hoff]
  simp only [if_neg halign, ringPageWrite, if_pos]

end Sys2Proof.Machine

open Sys2Proof Sys2Proof.Machine

/-- Settles O54: the address picks the register's action, and without one its layout the bits. -/
theorem registerWritesReachTheirFields : Obligations.RegisterWritesReachTheirFields := by
  unfold Obligations.RegisterWritesReachTheirFields
  refine ⟨?_, ?_, ?_, ?_⟩
  · intro agent addr v s hno
    refine show execRegisterWrite agent addr v s = _ from whole_pair ?_
    obtain ⟨rfl, hlay⟩ | ⟨hhigh, hdatum⟩ := hno
    · rw [if_pos rfl, regWrite_absent hlay, ite_self]
    · rw [if_neg hdatum, if_neg fun h => absurd h.1 (Nat.not_lt.mpr hhigh)]
  · intro addr v l s hm hlay hpow hdatum hctl
    have hsome : (regLay addr).isNone = false := by rw [hlay]; rfl
    have hplain := regWrite_plain hsome hpow hdatum hctl
    rw [plainWrite_lay hlay] at hplain
    exact show execRegisterWrite 0x7F addr v s = _ from execRegisterWrite_datum hm hplain
  · intro v s hp
    refine ⟨?_, ?_, ?_, ?_, ?_, ?_⟩
    · exact show execRegisterWrite 0x7F aKilnCtl v s = execKilnCommit v s from
        execRegisterWrite_ctl hp (by decide) rfl rfl
    · exact show execRegisterWrite 0x7F aQosCtl v s = execQosCommit v s from
        execRegisterWrite_ctl hp (by decide) rfl rfl
    · exact show execRegisterWrite 0x7F aCadastreCtl v s = execCadastreCommit v s from
        execRegisterWrite_ctl hp (by decide) rfl rfl
    · exact show execRegisterWrite 0x7F aXlatCtxCmd v s = execContextLoad v s from
        execRegisterWrite_ctl hp (by decide) rfl rfl
    · exact show execRegisterWrite 0x7F aSyncCtxCmd v s = execSyncCtxSave v s from
        execRegisterWrite_ctl hp (by decide) rfl rfl
    · have hact : regWrite s.env s.w aMeridianCtl v.toNat = merCtlWrite s.env s.w v.toNat :=
        regWrite_datum (by decide) (powered_of_poolRuns hp _) rfl
      exact show execRegisterWrite 0x7F aMeridianCtl v s = execMeridianCommit v s from
        (execRegisterWrite_datum (poolRuns_main hp) hact).trans (execMeridianCommit_run (poolRuns_main hp)).symm
  · intro agent r v s hp ha hr
    have hagent : ¬agent = 0x7F := fun h => by omega
    have htail : execTail agent r v s =
        .next { s with w := doorIn s.env s.w agent (fun w => tailWrite w agent r v.toNat) } := traffic_of hp rfl
    refine show execRegisterWrite agent (doorbellBase + 0x1000 * r) v s = execTail agent r v s from
      (whole_pair ?_).trans htail.symm
    rw [if_neg hagent, if_pos ⟨ha, hp⟩, hostWrite_tail hr]

end
